-- ==== Sys2Proof/Word.lean ====
section
/-! DEFINITION. The words of the card: bytes, the numbers of its landings, groups, cars and
channels, and sets of landings as the bit vectors the wire carries. -/

namespace Sys2Proof

/-- One byte of a frame (10, R158). -/
abbrev Byte := BitVec 8

/-- A landing of the tower, 0..127 (00, Conventions). -/
abbrev Landing := Fin 128

/-- A lift group G0..G5. -/
abbrev Group := Fin 6

/-- A car A..H of a group, as its index. -/
abbrev Car := Fin 8

/-- A reader channel 0..31, and the Reader Line of the same number. -/
abbrev Chan := Fin 32

/-- A physical directory page of the store, 0..543 (04, R56). -/
abbrev Page := Fin 544

/-- A set of landings: landing n is in the set when bit n is 1 (10.4, Common encodings). -/
abbrev LandingSet := BitVec 128

/-- A badge number. 0 is not a credential (00, Conventions). -/
abbrev Badge := Nat

/-- The highest badge number, 2 to the power 40 less one (00, Conventions). -/
def topBadge : Badge := 1099511627775

/-- Whether a landing is in a set. -/
def LandingSet.has (s : LandingSet) (l : Landing) : Bool := s.getLsbD l.val

/-- The landings of `a` that are not in `b`. -/
def LandingSet.less (a b : LandingSet) : LandingSet := a &&& ~~~b

/-- The set of one landing. -/
def LandingSet.one (l : Landing) : LandingSet := 1#128 <<< l.val

end Sys2Proof
end

