-- ==== Sys2Proof/Config.lean ====
section
/-! DEFINITION. What the spec leaves to the card or leaves open. Each constant has no body:
nothing in Lean can evaluate it or prove a value of it. The functions take the counter `free` of
State, so that each use is a fresh value (log 6). -/

namespace Sys2Proof

/-- R165: the card's serial number, set at manufacture (log 29). -/
opaque Config.serial : BitVec 64

/-- R67: the settings image is laid out in up to 40 pages; how many is not given (log 29).
Read through `imagePageCount`, which keeps it within 1..40. -/
opaque Config.imagePages : Nat

/-- R71: whether an ERASE of a directory page that is cut short had already cleared it wholly
(log 27). -/
opaque Config.cutEraseCleared : Nat → Bool

/-- R48: how many of the copies of a trip mark in service at a cut come to read as marked
(log 27). -/
opaque Config.cutTripCopies : Nat → Nat

/-- R64: whether a Commit Log MARK that is cut short reads as a whole number (log 27). -/
opaque Config.cutLogMarkWhole : Nat → Bool

/-- R64: which slots of a Commit Log page keep their number when its ERASE is cut short or fails
(logs 27 and 28). -/
opaque Config.logSlotKept : Nat → Nat → Bool

/-- The pages of a settings image: at least 1 and at most 40 (R67). -/
def imagePageCount : Nat := 1 + Config.imagePages % 40

end Sys2Proof
end

