-- ==== Sys2Proof/Syntax.lean ====
section
/-! DEFINITION. The commands of the card: one constructor for each row of spec/opcode_table.json,
in the table's order. The table gives the rows no operands; each constructor carries what the rule
of its row says the event carries (INVENTORY.md, Instructions). -/

namespace Sys2Proof

/-- The level of a discrete input (09, R149). For the service key HIGH is the switch closed, for the
reset input HIGH is asserted (log 4). -/
inductive Level
  | low
  | high
deriving DecidableEq, Repr

/-- The debounced inputs of the card (09, R149, R155; 10, R169). -/
inductive Input
  | recallLine (g : Group)
  | key
  | reset
deriving DecidableEq, Repr

/-- A serial link of the card (10). -/
inductive Link
  | site
  | group (g : Group)
  | reader (c : Chan)
deriving DecidableEq, Repr

/-- What a Site Link frame carries beside its TYPE: the TAG the reply echoes, and the payload (R158). -/
structure Req where
  tag : Byte
  payload : List Byte
deriving DecidableEq, Repr

/-- The commands, one for each row of the table. -/
inductive Instr
  /-- POWER_ON (R28): Power is applied and the card begins start-up, with uptime at 0 and every volatile state at its start-up value. -/
  | powerOn
  /-- RESET_ASSERTED (R169): The debounced reset input becomes asserted; the card abandons every operation and frame, deasserts the fault output and stays silent. -/
  | resetAsserted
  /-- RESET_RELEASED (R169): The debounced reset input becomes released and start-up begins exactly as at power-on. -/
  | resetReleased
  /-- SCAN_END (R72): The start-up scan's reads end; pages are classified, the Page Index is built, the erase queue is filled and the commit counter is set. -/
  | scanEnd
  /-- ADMISSION_OPENS (R177): The settings load ends; the port's phase becomes OPEN, channels take their configuration, and masks, enables and the fault line take their loaded values. -/
  | admissionOpens
  /-- SECOND_EVENT (R29): The time base delivers a second: uptime advances and, with the clock SET, the second advances. -/
  | secondEvent
  /-- MINUTE_BOUNDARY (R30): The second reaches 60: the week-minute advances, and the bank switch and Transfer Table expiry are taken. -/
  | minuteBoundary
  /-- BATCH_EXPIRED (R84): An OPEN batch reaches its idle deadline; the buffer is emptied, the batch closes and a DIRECTORY notice is raised. -/
  | batchExpired
  /-- READER_OFFLINE (R98): A channel's silence deadline is reached; it goes OFFLINE, discards its entry, settles its admission mark and raises READER_OFFLINE. -/
  | readerOffline (c : Chan)
  /-- DISPLAY_DEADLINE (R107): A SHOWING channel reaches its display deadline, sends the blank form and becomes IDLE. -/
  | displayDeadline (c : Chan)
  /-- STARTING_DISPLAY_END (R100): A STARTING channel's display deadline is reached and the blank form is sent. -/
  | startingDisplayEnd (c : Chan)
  /-- INTER_KEY_TIMEOUT (R103): An entry's inter-key timer runs out and the entry ends. -/
  | interKeyTimeout (c : Chan)
  /-- BADGE_WAIT_TIMEOUT (R103): An entry's badge wait runs out and the entry ends with the home landing as destination. -/
  | badgeWaitTimeout (c : Chan)
  /-- REPLY_DEADLINE (R137): A SENT order's reply deadline passes: NO_CAR is delivered, the reservation ends, CANCEL is sent and the order becomes CANCELLING. -/
  | replyDeadline (g : Group) (tag : Byte)
  /-- CANCEL_DEADLINE (R137): A CANCELLING order's cancel deadline is reached and the order is removed. -/
  | cancelDeadline (g : Group) (tag : Byte)
  /-- HOLD_EXPIRY (R145): A car's hold expiry is reached: WITHDRAW is sent and the confirmed set is emptied. -/
  | holdExpiry (g : Group) (car : Car)
  /-- LINK_SILENT (R133): A group link's silence deadline is reached; it becomes SILENT, its Car Table becomes UNKNOWN and GROUP_OFFLINE is raised. -/
  | linkSilent (g : Group)
  /-- RAW_LEVEL_CHANGE (R149): The raw level of a recall, key or reset input changes, starting or abandoning its 100 ms debounce count. -/
  | rawLevelChange (input : Input) (level : Level)
  /-- FIRST_STABLE_LEVEL (R149): An input's raw level has held for 100 ms since start-up and its stable level is first taken. -/
  | firstStableLevel (input : Input)
  /-- LINE_BECOMES_ACTIVE (R151): A recall line's debounce count ends with the line active; the recall state moves to RECALL. -/
  | lineBecomesActive (g : Group)
  /-- LINE_BECOMES_INACTIVE (R151): A recall line's debounce count ends with the line inactive; the recall state moves to CLEAR or HELD. -/
  | lineBecomesInactive (g : Group)
  /-- SERVICE_KEY_CHANGE (R155): The service key's debounced level changes and the key state becomes ON or OFF. -/
  | serviceKeyChange
  /-- BYTE_GAP_TIMEOUT (R159): The inter-byte limit runs out inside a frame and the frame is discarded. -/
  | byteGapTimeout (link : Link) (late : Option Byte)
  /-- FRAME_DISCARD (R159): A frame fails its length or CRC check and is discarded, raising SITE_FRAME or GROUP_PROTOCOL by link. -/
  | frameDiscard (link : Link) (bytes : List Byte)
  /-- SITE_FRAME_RECEIVE (R162): A valid Site Link frame joins the receive queue, or is discarded with SITE_OVERRUN when the queue is full. -/
  | siteFrameReceive (type : Byte) (r : Req)
  /-- TRANSMIT_COMPLETE (R161): The Site Link transmitter finishes a frame and sends the waiting reply, or else the notice at the head of the Notice Queue. -/
  | transmitComplete
  /-- UNKNOWN_TYPE (R163): A site request with an unlisted TYPE is answered UNKNOWN_TYPE. -/
  | unknownType (type : Byte) (r : Req)
  /-- IDENTIFY (R165): Returns the family code, revision, serial number and capacities. -/
  | identify (r : Req)
  /-- STATUS (R166): Returns the card's phase, uptime, key, faults, batch, store, queues and group availabilities. -/
  | status (r : Req)
  /-- CLOCK_SET (R32): Sets the day number, week-minute and second, makes the clock SET and raises a CLOCK notice. -/
  | clockSet (r : Req)
  /-- CLOCK_READ (R33): Returns the clock state, calendar, uptime and bank number. -/
  | clockRead (r : Req)
  /-- BATCH_OPEN (R80): Opens a batch with an empty buffer and sets the idle deadline. -/
  | batchOpen (r : Req)
  /-- STAGE_PUT (R81): Stages a whole credential record for a badge after the range, full and protection checks. -/
  | stagePut (r : Req)
  /-- STAGE_DROP (R82): Stages the removal of a badge's record after the range, full and protection checks. -/
  | stageDrop (r : Req)
  /-- BATCH_COMMIT (R86): Begins the commit of the staged edits, starting with the planning reads. -/
  | batchCommit (r : Req)
  /-- BATCH_ABANDON (R85): Discards an OPEN batch and closes it. -/
  | batchAbandon (r : Req)
  /-- COMPACT (R74): Starts the rewrite of the whole directory packed full under a new commit number. -/
  | compact (r : Req)
  /-- STORE_STATUS (R77): Returns the directory, page, commit, settings save and mark counts of the store. -/
  | storeStatus (r : Req)
  /-- RECORD_READ (R51): Starts a lookup of one badge and replies with its record when the lookup ends. -/
  | recordRead (r : Req)
  /-- DIRECTORY_SCAN (R52): Starts a scan of up to 16 records from a badge, or CONTINUE from the cursor. -/
  | directoryScan (r : Req)
  /-- PROFILE_WRITE (R18): Replaces one profile in the shadow bank. -/
  | profileWrite (r : Req)
  /-- PROFILE_READ (R19): Returns one profile from the active or shadow bank with the bank number. -/
  | profileRead (r : Req)
  /-- SWITCH_ARM (R20): Sets the switch arm to NEXT_MINUTE or AT W. -/
  | switchArm (r : Req)
  /-- SWITCH_DISARM (R21): Cancels a waiting switch, or answers NOT_ARMED. -/
  | switchDisarm (r : Req)
  /-- HOLIDAY_WRITE (R26): Replaces the Holiday List and queues a settings save. -/
  | holidayWrite (r : Req)
  /-- HOLIDAY_READ (R27): Returns the Holiday List in force. -/
  | holidayRead (r : Req)
  /-- ZONE_WRITE (R4): Validates and replaces the whole Zone Map and queues a settings save. -/
  | zoneWrite (r : Req)
  /-- ZONE_READ (R8): Returns the Zone Map in force. -/
  | zoneRead (r : Req)
  /-- CHANNEL_SET (R94): Stores a channel's kind, place and display hold, reconfiguring the channel when kind or place change. -/
  | channelSet (r : Req)
  /-- CHANNEL_READ (R96): Returns one channel's record. -/
  | channelRead (r : Req)
  /-- GROUP_SET (R150): Sets a group's recall polarity and mode and re-derives its recall state. -/
  | groupSet (r : Req)
  /-- GROUP_READ (R148): Returns a Group Link Manager's availability, link, recall, orders and cars. -/
  | groupRead (r : Req)
  /-- GROUP_RESUME (R153): Releases a HELD latched recall, or answers LINE_ACTIVE or NOT_ARMED. -/
  | groupResume (r : Req)
  /-- TRANSFER_READ (R131): Returns up to 64 unexpired Transfer Table entries from a start badge. -/
  | transferRead (r : Req)
  /-- TRANSFER_PURGE (R130): Removes one badge's Transfer Table entry. -/
  | transferPurge (r : Req)
  /-- NOTICE_SET (R170): Replaces the eight notice class enables, queuing a SUMMARY for newly enabled pending classes. -/
  | noticeSet (r : Req)
  /-- FAULT_READ (R176): Returns fault statuses, masks, severities, the line and the First-Fault Record. -/
  | faultRead (r : Req)
  /-- FAULT_CLEAR (R174): Clears the named fault statuses and re-raises those whose condition persists. -/
  | faultClear (r : Req)
  /-- FAULT_SET (R175): Replaces all fault masks and severities and reworks the fault output line. -/
  | faultSet (r : Req)
  /-- RESTART_ARM (R168): Sets the RESTART arm. -/
  | restartArm (r : Req)
  /-- RESTART (R168): With the arm SET, answers OK and starts up after the reply; otherwise answers NOT_ARMED. -/
  | restart (r : Req)
  /-- TIMING_SET (R167): Replaces the five timing parameters with clamping and queues a settings save. -/
  | timingSet (r : Req)
  /-- TIMING_READ (R167): Returns the five timing parameters in force. -/
  | timingRead (r : Req)
  /-- BADGE (R101): A BADGE record from a reader is handled by the channel's kind and state. -/
  | badge (c : Chan) (badge : BitVec 40)
  /-- KEY (R102): A KEY record from a reader is handled by the channel's kind and state. -/
  | key (c : Chan) (key : Byte)
  /-- ALIVE (R98): An ALIVE record sets the line's silence deadline. -/
  | alive (c : Chan)
  /-- UNKNOWN_READER_FRAME (R160): A valid reader frame of unknown type or wrong length sets liveness and is otherwise ignored. -/
  | unknownReaderFrame (c : Chan) (type : Byte) (payload : List Byte)
  /-- LOOKUP (R43): The arbiter serves a lookup READ, which ends FOUND, ABSENT or STORE_FAULT and is handed to the block that asked. -/
  | lookup (handOver : Bool)
  /-- SCAN_PAGE_READ (R52): A DIRECTORY SCAN page read is served; the scan gathers records or replies. `reply` says whether the reply of a scan whose last page is read is part of the same event, as it is where nothing is said (log 26). -/
  | scanPageRead (reply : Bool := true)
  /-- PLANNING_READ (R87): A planning read of BATCH COMMIT is served; after the last one the capacity and page checks are made and the commit is accepted or refused. -/
  | planningRead
  /-- COMPACT_READ (R75): A COMPACT page read is served; after the last one the new layout is fixed. -/
  | compactRead
  /-- TRIP_MARK (R48): The arbiter serves a trip mark request, marking a slot in each copy or discarding it. -/
  | tripMark
  /-- PROGRAM_COMPLETE (R58): A PROGRAM of a new copy completes and the page becomes STALE, held; after the last copy the commit enters LOGGING. -/
  | programComplete
  /-- PROGRAM_FAILURE (R62): A PROGRAM of a directory copy fails; the page is retired and the copy retried once or the work ends COMMIT_FAIL. -/
  | programFailure
  /-- ERASE_COMPLETE (R63): An ERASE completes and the page becomes FREE; a waiting commit may queue its PROGRAMs or its Commit Log MARK. -/
  | eraseComplete
  /-- ERASE_FAILURE (R63): An ERASE of a directory page fails; the page is retired and STORE_ERASE_FAIL is raised. -/
  | eraseFailure
  /-- LOG_ERASE_FAILURE (R64): An ERASE of a Commit Log page fails and the log position moves to the next page. -/
  | logEraseFailure
  /-- COMMIT_COMPLETE (R66): The Commit Log MARK completes; the Page Index switches, held pages become DATA and replaced pages become STALE. -/
  | commitComplete
  /-- SETTINGS_SAVE_START (R68): A queued save's first erase begins; the save becomes RUNNING and its image is fixed. -/
  | settingsSaveStart
  /-- SETTINGS_SAVE_COMPLETE (R68): The save's complete mark MARK completes; the result becomes OK and a pending save is queued. -/
  | settingsSaveComplete
  /-- SETTINGS_SAVE_FAILURE (R69): A PROGRAM or ERASE of a settings save fails; the save is retried once or ends FAILED. -/
  | settingsSaveFailure
  /-- GROUP_STATE (R133): A GROUP STATE sets the link's silence deadline and accepting flag, makes the link LIVE and reworks availability. -/
  | groupState (g : Group) (accepting : Byte)
  /-- CAR_STATE (R144): A CAR STATE replaces a car's row, taking a departure or a car leaving service where the row shows one. -/
  | carState (g : Group) (car landing motion door inService : Byte)
  /-- ASSIGN (R138): An ASSIGN for a SENT CALL removes the order, delivers GO, queues any trip mark and hands the journey to the Transfer Table. -/
  | assign (g : Group) (tag car : Byte)
  /-- ENABLED (R139): An ENABLED for a SENT ENABLE unites the proposed set into the car's confirmed set, sets the hold expiry and delivers GO. -/
  | enabled (g : Group) (tag : Byte)
  /-- REFUSE (R140): A REFUSE delivers NO_CAR for a SENT order, or removes a CANCELLING order. -/
  | refuse (g : Group) (tag : Byte)
  /-- CANCELLED (R140): A CANCELLED is taken as a refusal for a SENT order, or removes a CANCELLING order. -/
  | cancelled (g : Group) (tag : Byte)
  /-- UNKNOWN_GROUP_FRAME (R160): A valid group frame of unknown type or wrong length is ignored and raises GROUP_PROTOCOL. -/
  | unknownGroupFrame (g : Group) (type : Byte) (payload : List Byte)
  /-- LOSS_OF_POWER (R28): The card's supply is lost; every operation and frame in progress stops where it stood, and all volatile state, the calendar included, is gone until the next power-on. -/
  | lossOfPower
  /-- IN_FRAME (R159): A HUNTING receiver takes a 0xC3 byte as SYNC and becomes IN_FRAME, starting the byte-gap timing of a frame. `byte` is the byte that arrives, SYNC where none is named; a receiver already IN_FRAME collects it (log 31). -/
  | inFrame (link : Link) (byte : Byte := 0xC3)
  /-- SETTINGS_SAVE_ENTRY_COMPLETE (R68): An ERASE of a Settings Area page or a PROGRAM of an image page of a running settings save completes with success, and the arbiter starts its next operation. -/
  | settingsSaveEntryComplete
deriving DecidableEq, Repr

end Sys2Proof
end

