-- ==== Sys2Proof/Decode.lean ====
section
/-! DEFINITION. The words of the command table. The table gives no row a bit (its rows are events of a
block, and their operands stand in Instr), so no word spells a command (log 7). -/

namespace Sys2Proof

/-- The command a word spells by the table's bits: none, for no row has bits. -/
def decodeTableWord (_nbits _w : Nat) : Option Instr := none

end Sys2Proof
end

