-- ==== Sys2Proof/Machine/State.lean ====
section
/-! DEFINITION. The state of the card as plain data, block by block, and its value at reset. Names
in capitals in the spec are constructors here. Uptime values, deadlines and counts are Nat; bit
vectors are kept for what the wire carries as sets. -/

namespace Sys2Proof.Machine

/-! ### Supply and time base -/

/-- R28, R169: unpowered, held by the reset input, or running. -/
inductive Power
  | off
  | held
  | running
deriving DecidableEq, Repr

/-- R29: the time base since start-up, in whole seconds and milliseconds within the second (log 11). -/
structure TimeBase where
  seconds : Nat
  ms : Nat
deriving DecidableEq, Repr

/-- R159: a link's receiver. IN_FRAME carries the time of the last byte and the bytes collected since
SYNC. -/
inductive Receiver
  | hunting
  | inFrame (last : Nat) (got : List Byte)
deriving DecidableEq, Repr

/-- R149, R155, R169: an input's raw level, its stable level once known, and the time at which the
count of 100 ms began, when one runs. -/
structure Debounce where
  raw : Level
  stable : Option Level
  since : Option Nat
deriving DecidableEq, Repr

/-! ### Calendar Clock (02) -/

inductive ClockState
  | unset
  | set
deriving DecidableEq, Repr

/-- The table of 2.6. -/
structure Calendar where
  state : ClockState
  day : Nat
  weekMinute : Nat
  second : Nat
  dayLimitReported : Bool
  uptime : Nat
deriving DecidableEq, Repr

/-! ### Profile Banks (02) -/

/-- A clause (2.1). -/
structure Clause where
  landings : LandingSet
  days : BitVec 8
  start : Nat
  stop : Nat
deriving DecidableEq, Repr

/-- A profile (2.1). -/
structure Profile where
  serviceCar : Bool
  clauses : List Clause
deriving DecidableEq, Repr

/-- The switch arm (2.4). -/
inductive Arm
  | none
  | nextMinute
  | at (w : Nat)
deriving DecidableEq, Repr

structure Banks where
  active : Vector Profile 256
  shadow : Vector Profile 256
  number : Nat
  arm : Arm
  holidays : List Nat
deriving DecidableEq, Repr

/-! ### Zone Map (01) -/

structure LandingEntry where
  present : Bool
  label : List Byte
  secure : Bool
  transfer : Bool
deriving DecidableEq, Repr

structure GroupEntry where
  present : Bool
  serviceCar : Bool
  served : LandingSet
deriving DecidableEq, Repr

structure ZoneMap where
  landings : Vector LandingEntry 128
  groups : Vector GroupEntry 6
deriving DecidableEq, Repr

/-- A leg of a route (1.5). -/
structure Leg where
  group : Group
  src : Landing
  dst : Landing
deriving DecidableEq, Repr

/-! ### Answers, standings (06 R108, 07 R118) -/

inductive Reason
  | unknown | suspended | lost | expired | clockUnset | storeFault | badgeRequired | notPermitted
  | noDestination | sameLanding | noRoute | noTrips
deriving DecidableEq, Repr

inductive AnswerCode
  | go
  | denied (r : Reason)
  | invalidLanding | busy | linkBusy | outOfService | noCar | departed | starting
deriving DecidableEq, Repr

/-- An answer as it is handed to the Reader Front, its landings as numbers (R108). -/
structure Answer where
  code : AnswerCode
  car : Option Car
  dest : Option Landing
  transfer : Option Landing
deriving DecidableEq, Repr

inductive Standing
  | none | good | unknown | suspended | lost | expired | clockUnset | storeFault
deriving DecidableEq, Repr

inductive Path
  | normal
  | transfer
deriving DecidableEq, Repr

/-! ### Reader Front (06) -/

/-- A channel's kind with the place it has (6.1). -/
inductive Place
  | unused
  | lobby (l : Landing)
  | car (g : Group) (c : Car)
deriving DecidableEq, Repr

inductive ChanState
  | unused | offline | starting | idle | entry | pending | showing
deriving DecidableEq, Repr

inductive Mark
  | none | owned | discard
deriving DecidableEq, Repr

inductive EntryTimer
  | badgeWait
  | interKey
deriving DecidableEq, Repr

/-- A lobby entry (6.5). The deadline is on the time base, in milliseconds. -/
structure Entry where
  badge : Option Badge
  chars : List Byte
  timer : EntryTimer
  deadline : Nat
deriving DecidableEq, Repr

inductive Tone
  | accept | refuse | busy | key
deriving DecidableEq, Repr

/-- A record produced for a Reader Line (R108). A SHOW holds the landing numbers of its answer: its
labels are taken from the map when it is sent (R10). -/
inductive ReaderRecord
  | show_ (code : AnswerCode) (car : Option Car) (dest transfer : Option Landing)
  | blank
  | tone (t : Tone)
deriving DecidableEq, Repr

/-- A channel's configuration, the part the settings image holds (R93). -/
structure ChanConfig where
  place : Place
  hold : Nat
deriving DecidableEq, Repr

/-- A channel record (6.1) with the line's receiver, the records not yet sent (R109) and the frame on the
line (log 15). -/
structure Channel where
  cfg : ChanConfig
  state : ChanState
  entry : Option Entry
  mark : Mark
  displayDeadline : Option Nat
  silenceDeadline : Option Nat
  tx : List ReaderRecord
  sending : Option (List Byte)
  rx : Receiver
deriving DecidableEq, Repr

/-! ### Admission Queue, Admission Engine, Transfer Table (07) -/

/-- What a request asks, by kind (7.1). A CAR request has no destination. -/
inductive Ask
  | lobby (dest : Option Landing) (origin : Landing)
  | car (g : Group) (c : Car) (origin : Option Landing)
deriving DecidableEq, Repr

structure Request where
  channel : Chan
  badge : Option Badge
  ask : Ask
  arrival : Nat
deriving DecidableEq, Repr

/-! ### Credential record (03) -/

inductive CredStatus
  | active | suspended | lost
deriving DecidableEq, Repr

/-- A credential record (3.1) with its 32 trip mark slots (R46): slot i is marked when bit i is 1. -/
structure Record where
  badge : Badge
  status : CredStatus
  profile : Fin 256
  home : Option Landing
  accessible : Bool
  priority : Bool
  expiry : Option Nat
  budget : Option Nat
  slots : BitVec 32
deriving DecidableEq, Repr

/-- The result of a lookup (R43). `marks` are the marks R47 reports, `queued` the mark requests
queued for the badge when the READ was served (R51). -/
inductive LookupResult
  | found (r : Record) (marks queued commit : Nat)
  | absent (commit : Nat)
  | storeFault
deriving DecidableEq, Repr

/-- R114. `result` is a lookup result that has not yet reached the engine (log 26). -/
inductive Engine
  | idle
  | evaluating (r : Request) (result : Option LookupResult)
deriving DecidableEq, Repr

structure TransferEntry where
  badge : Badge
  landing : Landing
  final : Landing
  legs : Nat
  setAt : Nat
  expiry : Nat
deriving DecidableEq, Repr

structure TransferTable where
  entries : List TransferEntry
  evictions : Nat
deriving DecidableEq, Repr

/-! ### Directory and store (03, 04) -/

inductive Condition
  | usable
  | unusable
deriving DecidableEq, Repr

structure IndexEntry where
  low : Badge
  high : Badge
  page : Page
  count : Nat
  commit : Nat
deriving DecidableEq, Repr

structure Directory where
  condition : Condition
  index : List IndexEntry
  recordCount : Nat
  cursor : Option Badge
  marksTaken : Nat
  marksNotTaken : Nat
deriving DecidableEq, Repr

/-- What a programmed directory page holds: its header (3.2) and its records. -/
structure PageImage where
  low : Badge
  high : Badge
  count : Nat
  commit : Nat
  complete : Bool
  records : List Record
deriving DecidableEq, Repr

inductive PageContents
  | erased
  | programmed (p : PageImage)
deriving DecidableEq, Repr

/-- A physical directory page: its contents and its retired mark (R56). -/
structure DirPage where
  contents : PageContents
  retired : Bool
deriving DecidableEq, Repr

/-- The three conditions of a STALE page (R57). -/
inductive Stale
  | held | abandoned | superseded
deriving DecidableEq, Repr

/-- R57. An ERASING page keeps the condition it was STALE in (R66). -/
inductive PageState
  | free
  | data
  | stale (k : Stale)
  | erasing (k : Stale)
  | writing
  | retired
deriving DecidableEq, Repr

/-- An entry of the priority queue (R60): the READs by the block that asked, and trip marks. -/
inductive PrioEntry
  | engineRead (b : Badge)
  | portRead (b : Badge)
  | scanRead
  | planRead
  | compactRead
  | mark (b : Badge)
deriving DecidableEq, Repr

/-- An entry of the work queue (R60). `program i` is the PROGRAM of copy i of the running work;
`save k` stands for the entries of a settings save from the k-th on (R68). -/
inductive WorkEntry
  | program (i : Nat)
  | logErase (p : Fin 8)
  | logMark
  | save (k : Nat)
deriving DecidableEq, Repr

/-- What the array is doing. -/
inductive OpKind
  | program (i : Nat) (p : Page)
  | eraseDir (p : Page)
  | eraseLog (p : Fin 8)
  | logMark
  | saveErase (k : Nat)
  | saveProgram (k : Nat)
  | saveMark
deriving DecidableEq, Repr

/-- The operation of the array. The suspensions are of an ERASE (R61). -/
structure ArrayOp where
  kind : OpKind
  suspensions : Nat
  suspended : Bool
deriving DecidableEq, Repr

inductive WorkKind
  | commit | compact
deriving DecidableEq, Repr

inductive Phase
  | reading | commitWait | programming | logging
deriving DecidableEq, Repr

/-- A record of a new copy: carried unchanged from its old page, or fresh from an edit (R89). -/
structure PlanRecord where
  badge : Badge
  fresh : Option Record
deriving DecidableEq, Repr

/-- A new copy of the running work: its range, its records, the page it has been programmed on and
the failures of its PROGRAM (R62, R87). -/
structure Copy where
  low : Badge
  high : Badge
  records : List PlanRecord
  page : Option Page
  failures : Nat
deriving DecidableEq, Repr

/-- The running work of the store (R77). `todo` and `gathered` are a COMPACT's pages still to read
and the records read (R75); the counts are for the COMMITTED notice (R90). -/
structure Work where
  kind : WorkKind
  number : Nat
  phase : Phase
  copies : List Copy
  released : List Page
  added : Nat
  removed : Nat
  replaced : Nat
  todo : List IndexEntry
  gathered : List Record
deriving DecidableEq, Repr

inductive Polarity
  | activeHigh | activeLow
deriving DecidableEq, Repr

inductive RecallMode
  | level | latched
deriving DecidableEq, Repr

structure GroupConfig where
  polarity : Polarity
  mode : RecallMode
deriving DecidableEq, Repr

/-- The timing parameters, in the units of R167. -/
structure Timings where
  badgeWait : Nat
  interKey : Nat
  carHold : Nat
  validity : Nat
  batchIdle : Nat
deriving DecidableEq, Repr

/-- The settings image (R67). -/
structure Settings where
  bank : Vector Profile 256
  bankNumber : Nat
  holidays : List Nat
  zone : ZoneMap
  channels : Vector ChanConfig 32
  groups : Vector GroupConfig 6
  enables : BitVec 8
  masks : BitVec 12
  majors : BitVec 12
  timing : Timings
deriving DecidableEq, Repr

/-- The Settings Area (R67, R70). -/
structure SettingsArea where
  complete : Bool
  checkMatches : Bool
  image : Settings
deriving DecidableEq, Repr

inductive SaveState
  | idle | queued | running
deriving DecidableEq, Repr

inductive SaveResult
  | none | ok | failed
deriving DecidableEq, Repr

/-- The settings save (R68, R69). `retry` says that the second attempt is queued or running. -/
structure Save where
  state : SaveState
  pending : Bool
  last : SaveResult
  retry : Bool
  image : Option Settings
deriving DecidableEq, Repr

structure Store where
  pages : Vector DirPage 544
  pageState : Vector PageState 544
  log : Vector (Vector (Option Nat) 64) 8
  logPage : Fin 8
  logSlot : Fin 64
  counter : Nat
  prio : List PrioEntry
  workQ : List WorkEntry
  eraseQ : List Page
  op : Option ArrayOp
  capped : Nat
  work : Option Work
  area : SettingsArea
  save : Save
deriving DecidableEq, Repr

/-! ### Batch Control (05) -/

inductive BatchState
  | closed | open_ | committing
deriving DecidableEq, Repr

inductive EditKind
  | put (r : Record)
  | drop
deriving DecidableEq, Repr

structure Edit where
  badge : Badge
  kind : EditKind
deriving DecidableEq, Repr

structure Batch where
  state : BatchState
  edits : List Edit
  deadline : Option Nat
  commit : Option Nat
  purge : List Badge
deriving DecidableEq, Repr

/-! ### Group Link Managers (08) -/

inductive LinkCond
  | waiting | live | silent
deriving DecidableEq, Repr

inductive Avail
  | inService | notAccepting | inRecall | offline
deriving DecidableEq, Repr

/-- What an order asks, with the contents of R124 and, for an ENABLE, its proposed set (R145). -/
inductive OrderKind
  | call (legs : List Leg) (final : Landing) (accessible priority : Bool) (link : Option Badge)
      (path : Path)
  | enable (car : Car) (proposed : LandingSet) (hold : Nat)
deriving DecidableEq, Repr

inductive OrderState
  | sent
  | cancelling (deadline : Nat)
deriving DecidableEq, Repr

structure Order where
  tag : Byte
  kind : OrderKind
  channel : Chan
  badge : Option Badge
  reservation : Option Badge
  state : OrderState
  sentAt : Nat
deriving DecidableEq, Repr

inductive Motion
  | stopped | up | down
deriving DecidableEq, Repr

inductive Door
  | opened | closed
deriving DecidableEq, Repr

/-- A Car Table row (8.6); none is UNKNOWN. -/
structure CarRow where
  landing : Option Landing
  motion : Option Motion
  door : Option Door
  inService : Option Bool
deriving DecidableEq, Repr

/-- A Car Enable Table row (8.7). -/
structure CarEnable where
  confirmed : LandingSet
  expiry : Option Nat
deriving DecidableEq, Repr

/-- A frame the card sends to a group controller (10.4). -/
inductive GroupMsg
  | call (tag : Byte) (legs : List Leg) (final : Landing) (accessible priority : Bool)
  | enable (tag : Byte) (car : Car) (hold : Nat) (proposed : LandingSet)
  | cancel (tag : Byte)
  | withdraw (car : Car)
deriving DecidableEq, Repr

structure GroupMgr where
  link : LinkCond
  silenceDeadline : Nat
  accepting : Bool
  avail : Avail
  orders : List Order
  tagCounter : Byte
  cars : Vector CarRow 8
  enables : Vector CarEnable 8
  tx : List GroupMsg
  sending : Option (List Byte)
  rx : Receiver
deriving DecidableEq, Repr

/-! ### Recall Inputs (09) -/

inductive RecallState
  | clear | inRecall | held
deriving DecidableEq, Repr

/-- A group's recall input. `fixed` says that the recall state has been first fixed (R154). -/
structure RecallIn where
  cfg : GroupConfig
  line : Debounce
  state : RecallState
  fixed : Bool
deriving DecidableEq, Repr

/-! ### Notices and faults (11) -/

inductive NoticeClass
  | admission | security | directory | schedule | group | reader | clock | fault
deriving DecidableEq, Repr

inductive FaultKind
  | siteFrame | siteOverrun | groupProtocol | groupOffline | readerOffline | storeProgramFail
  | storeEraseFail | spareLow | storeFault | settingsLost | clockUnset | commitFail
deriving DecidableEq, Repr

/-- The calendar as some notices carry it: day number and week-minute when the clock is SET. -/
abbrev Date := Option (Nat × Nat)

/-- The order of a DECISION notice: the group, whether it is an ENABLE, the tag (R126). -/
structure OrderRef where
  group : Group
  enable : Bool
  tag : Byte
deriving DecidableEq, Repr

/-- The ADMISSION notice (R126). `outcome` none is ORDERED. -/
structure Decision where
  channel : Chan
  car : Bool
  badge : Option Badge
  path : Path
  standing : Standing
  outcome : Option AnswerCode
  dest : Option Landing
  route : List Leg
  order : Option OrderRef
  reservation : Bool
  bank : Nat
  wait : Nat
deriving DecidableEq, Repr

/-- The SECURITY notice (R118). -/
structure Presentation where
  channel : Chan
  car : Bool
  badge : Option Badge
  standing : Standing
  origin : Option Landing
  dest : Option Landing
  path : Path
  uptime : Nat
  date : Date
deriving DecidableEq, Repr

/-- The COMMITTED notice (R90). -/
structure Committed where
  number : Nat
  edits : Nat
  added : Nat
  removed : Nat
  replaced : Nat
  recordCount : Nat
  written : Nat
  released : Nat
  purged : Nat
deriving DecidableEq, Repr

inductive FailCause
  | programFail | noPages | logFail
deriving DecidableEq, Repr

inductive GroupCause
  | recallChange | linkLive | linkSilent | acceptingChange
deriving DecidableEq, Repr

/-- A change of recall state as a GROUP notice reports it (R152). -/
structure RecallChange where
  before : RecallState
  after : RecallState
  active : Bool
deriving DecidableEq, Repr

/-- The GROUP notice (R134, R152). -/
structure AvailNotice where
  group : Group
  before : Avail
  after : Avail
  link : LinkCond
  accepting : Bool
  cause : GroupCause
  removed : Nat
  withdrawn : Nat
  recallChange : Option RecallChange
deriving DecidableEq, Repr

/-- The contents of a notice, by class and kind (11.1). -/
inductive NoticeBody
  | decision (d : Decision)
  | presentation (p : Presentation)
  | batchExpired (edits : Nat)
  | committed (c : Committed)
  | commitFailed (number edits programmed : Nat) (cause : FailCause)
  | compactDone (number records : Nat)
  | compactFailed
  | switch (before after : Nat) (arm : Arm) (day weekMinute : Nat)
  | availability (a : AvailNotice)
  | readerOffline (c : Chan) (left : ChanState)
  | readerOnline (c : Chan)
  | clockSet (before : ClockState) (day0 minute0 : Nat) (day weekMinute : Nat)
  | dayLimit (weekMinute : Nat)
  | faultRaised (k : FaultKind) (major : Bool) (detail : Nat) (already : Bool) (date : Date)
deriving DecidableEq, Repr

structure Notice where
  uptime : Nat
  body : NoticeBody
deriving DecidableEq, Repr

/-- An entry of the Notice Queue (R171). -/
inductive QueuedNotice
  | notice (n : Notice)
  | summary (c : NoticeClass)
deriving DecidableEq, Repr

/-- The Notice Unit (R170). `raised` holds the notices of the event in progress, which the unit takes
in class order at its end (R171); it is empty between steps. -/
structure NoticeUnit where
  enables : BitVec 8
  pending : BitVec 8
  queue : List QueuedNotice
  raised : List Notice
deriving DecidableEq, Repr

/-- The First-Fault Record (R173). -/
structure FirstFault where
  kind : FaultKind
  uptime : Nat
  date : Date
  detail : Nat
deriving DecidableEq, Repr

/-- The Fault Unit (R173): bit k of a set is the k-th kind. -/
structure FaultUnit where
  status : BitVec 12
  masks : BitVec 12
  majors : BitVec 12
  first : Option FirstFault
  line : Bool
  storeDetail : Nat
deriving DecidableEq, Repr

/-! ### Site Link Port (10) -/

structure SiteFrame where
  type : Byte
  req : Req
deriving DecidableEq, Repr

/-- A frame the Site Link transmitter sends. `restart` marks the OK reply to an armed RESTART (R168). -/
structure SiteTx where
  type : Byte
  tag : Byte
  payload : List Byte
  restart : Bool
deriving DecidableEq, Repr

/-- What a request in hand waits for (R162). A scan carries its own start, the badge whose page is
read next and the records gathered (R52); `scanned` is a scan that has read its last page and whose
reply is still to come (R54); planning carries the pages still to read and those read. -/
inductive PortWait
  | recordRead (b : Badge)
  | scan (start next : Badge) (gathered : List Record)
  | scanned (records : List Record) (atEnd : Bool)
  | stage (e : Edit)
  | planning (todo : List IndexEntry) (done : List (IndexEntry × List Record))
deriving DecidableEq, Repr

structure InHand where
  frame : SiteFrame
  wait : PortWait
deriving DecidableEq, Repr

inductive PortPhase
  | scanning | loading | open_
deriving DecidableEq, Repr

structure Port where
  queue : List SiteFrame
  inHand : Option InHand
  phase : PortPhase
  restartArm : Bool
  seq : Byte
  sending : Option SiteTx
  waiting : Option SiteTx
  rx : Receiver
deriving DecidableEq, Repr

/-! ### The card -/

/-- The state of the card, and the queue of the commands that wait. -/
structure State where
  power : Power
  time : TimeBase
  cal : Calendar
  banks : Banks
  zone : ZoneMap
  readers : Vector Channel 32
  queue : List Request
  engine : Engine
  transfer : TransferTable
  dir : Directory
  store : Store
  batch : Batch
  groups : Vector GroupMgr 6
  recallIn : Vector RecallIn 6
  key : Debounce
  resetIn : Debounce
  site : Port
  notices : NoticeUnit
  faults : FaultUnit
  timing : Timings
  free : Nat
  pending : List Instr
deriving DecidableEq, Repr

/-- The card never stops (INVENTORY.md, Faults): no event of the spec ends its operation, so there is
no fault to name. -/
inductive Fault
deriving DecidableEq, Repr

/-- The one refusal: an arm of exec that has no meaning yet. -/
inductive Refusal
  /-- Raised by exec's own arm for a command that is not modelled; safe, since nothing is claimed of
  the command. No arm raises it now. -/
  | notModelled (mnemonic : String)
deriving DecidableEq, Repr

/-! ### Values after start-up and defaults -/

def Profile.default : Profile := { serviceCar := false, clauses := [] }

def LandingEntry.absent : LandingEntry :=
  { present := false, label := [], secure := false, transfer := false }

def GroupEntry.absent : GroupEntry := { present := false, serviceCar := false, served := 0 }

/-- The default map (R3). -/
def ZoneMap.default : ZoneMap :=
  { landings := Vector.replicate 128 LandingEntry.absent
    groups := Vector.replicate 6 GroupEntry.absent }

/-- R167. -/
def Timings.default : Timings :=
  { badgeWait := 40, interKey := 15, carHold := 10, validity := 600, batchIdle := 30 }

/-- The default severities of R173, MAJOR as 1: GROUP_OFFLINE, STORE_PROGRAM_FAIL, SPARE_LOW,
STORE_FAULT, SETTINGS_LOST, COMMIT_FAIL. -/
def defaultMajors : BitVec 12 := 0b101110101000#12

/-- R170: ADMISSION MASKED, the other seven ENABLED. -/
def defaultEnables : BitVec 8 := 0xFE#8

/-- The defaults of R70. -/
def Settings.default : Settings :=
  { bank := Vector.replicate 256 Profile.default
    bankNumber := 0
    holidays := []
    zone := ZoneMap.default
    channels := Vector.replicate 32 { place := .unused, hold := 5 }
    groups := Vector.replicate 6 { polarity := .activeHigh, mode := .level }
    enables := defaultEnables
    masks := 0
    majors := defaultMajors
    timing := Timings.default }

/-- The table of 2.6. -/
def Calendar.startUp : Calendar :=
  { state := .unset, day := 0, weekMinute := 0, second := 0, dayLimitReported := false, uptime := 0 }

/-- R93: a channel in STARTING. -/
def Channel.startUp : Channel :=
  { cfg := { place := .unused, hold := 5 }, state := .starting, entry := none, mark := .none
    displayDeadline := none, silenceDeadline := none, tx := [], sending := none, rx := .hunting }

def CarRow.unknown : CarRow := { landing := none, motion := none, door := none, inService := none }

def CarEnable.empty : CarEnable := { confirmed := 0, expiry := none }

/-- The table of 8.1. -/
def GroupMgr.startUp : GroupMgr :=
  { link := .waiting, silenceDeadline := 5, accepting := false, avail := .inRecall, orders := []
    tagCounter := 255, cars := Vector.replicate 8 CarRow.unknown
    enables := Vector.replicate 8 CarEnable.empty, tx := [], sending := none, rx := .hunting }

/-- The table of 10.2. -/
def Port.startUp : Port :=
  { queue := [], inHand := none, phase := .scanning, restartArm := false, seq := 0, sending := none
    waiting := none, rx := .hunting }

/-- The table of 5.1. -/
def Batch.startUp : Batch :=
  { state := .closed, edits := [], deadline := none, commit := none, purge := [] }

def TransferTable.startUp : TransferTable := { entries := [], evictions := 0 }

/-- Before the scan has built it (R166; log 5). -/
def Directory.startUp : Directory :=
  { condition := .usable, index := [], recordCount := 0, cursor := none, marksTaken := 0
    marksNotTaken := 0 }

def Save.startUp : Save :=
  { state := .idle, pending := false, last := .none, retry := false, image := none }

def NoticeUnit.startUp : NoticeUnit :=
  { enables := defaultEnables, pending := 0, queue := [], raised := [] }

def FaultUnit.startUp : FaultUnit :=
  { status := 0, masks := 0, majors := defaultMajors, first := none, line := false, storeDetail := 0 }

/-- A card in factory state (R41, R64, R73): page 0 holds the whole range and no record (log 2), the
Settings Area holds no complete image (log 3). -/
def Store.factory : Store :=
  { pages := (Vector.replicate 544 { contents := .erased, retired := false }).set 0
      { contents := .programmed
          { low := 1, high := topBadge, count := 0, commit := 0, complete := true, records := [] }
        retired := false }
    pageState := Vector.replicate 544 .free
    log := Vector.replicate 8 (Vector.replicate 64 none)
    logPage := 0
    logSlot := 0
    counter := 1
    prio := []
    workQ := []
    eraseQ := []
    op := none
    capped := 0
    work := none
    area := { complete := false, checkMatches := false, image := Settings.default }
    save := Save.startUp }

/-- An input whose stable level is not yet known, its count running from the start of start-up
(R149, R155). -/
def Debounce.startUp (raw : Level) : Debounce := { raw := raw, stable := none, since := some 0 }

/-- The FAULT notice that the raising of CLOCK_UNSET at the start of start-up gives (R173). -/
def clockUnsetNotice : Notice :=
  { uptime := 0, body := .faultRaised .clockUnset false 0 false none }

/-- The card in factory state at the start of the start-up that POWER_ON begins (log 1): every block at
the value its chapter gives after start-up, and CLOCK_UNSET raised (R173). -/
def State.reset : State :=
  { power := .running
    time := { seconds := 0, ms := 0 }
    cal := Calendar.startUp
    banks := { active := Vector.replicate 256 Profile.default
               shadow := Vector.replicate 256 Profile.default
               number := 0, arm := .none, holidays := [] }
    zone := ZoneMap.default
    readers := Vector.replicate 32 Channel.startUp
    queue := []
    engine := .idle
    transfer := TransferTable.startUp
    dir := Directory.startUp
    store := Store.factory
    batch := Batch.startUp
    groups := Vector.replicate 6 GroupMgr.startUp
    recallIn := Vector.replicate 6
      { cfg := { polarity := .activeHigh, mode := .level }, line := Debounce.startUp .low
        state := .inRecall, fixed := false }
    key := Debounce.startUp .low
    resetIn := { raw := .low, stable := some .low, since := none }
    site := Port.startUp
    notices := { NoticeUnit.startUp with queue := [.notice clockUnsetNotice] }
    faults := { FaultUnit.startUp with
      status := 0b010000000000#12
      first := some { kind := .clockUnset, uptime := 0, date := none, detail := 0 } }
    timing := Timings.default
    free := 0
    pending := [] }

end Sys2Proof.Machine
end

