-- ==== Sys2Proof/Machine/Wire.lean ====
section
/-! DEFINITION. The wire: byte order, the common encodings of 10.4, the CRC and the frame of R158,
the receive rules of R159 as a judgement on the bytes of a frame, and the TYPE and LENGTH tables of
10.3 and 10.4 that R160 and R163 judge by. -/

namespace Sys2Proof.Machine

/-! ### Numbers, high byte first (R158) -/

def u8 (n : Nat) : List Byte := [BitVec.ofNat 8 n]

def u16 (n : Nat) : List Byte := u8 (n / 256) ++ u8 n

def u32 (n : Nat) : List Byte := u16 (n / 65536) ++ u16 n

/-- A badge number, 5 bytes. -/
def u40 (n : Nat) : List Byte := u8 (n / 4294967296) ++ u32 n

/-- The number that bytes spell, high byte first. -/
def beNat (bs : List Byte) : Nat := bs.foldl (fun n b => n * 256 + b.toNat) 0

/-- The bytes `n` onward for `k`, as a number. -/
def field (bs : List Byte) (at_ k : Nat) : Nat := beNat ((bs.drop at_).take k)

/-- Byte `i` of a payload, 0 past its end. -/
def byteAt (bs : List Byte) (i : Nat) : Nat := (bs.getD i 0).toNat

/-! ### Items of one byte and optional items -/

def bool8 (b : Bool) : List Byte := u8 (if b then 1 else 0)

/-- A one-byte item that may be none: 0xFF (10.4, Enumerations). -/
def opt8 (n : Option Nat) : List Byte := u8 (n.getD 0xFF)

/-- A two-byte item that may be none: 0xFFFF. -/
def opt16 (n : Option Nat) : List Byte := u16 (n.getD 0xFFFF)

/-- A four-byte item that may be none: 0xFFFFFFFF. -/
def opt32 (n : Option Nat) : List Byte := u32 (n.getD 0xFFFFFFFF)

/-- A badge that may be none: badge number 0, which is no credential (DESIGN CHOICE, log 23). -/
def optBadge (b : Option Badge) : List Byte := u40 (b.getD 0)

def landing8 (l : Landing) : List Byte := u8 l.val

def optLanding (l : Option Landing) : List Byte := opt8 (l.map Fin.val)

/-- A landing set, 16 bytes: landing n is bit (n mod 8) of byte (n div 8). -/
def setBytes (s : LandingSet) : List Byte :=
  (List.range 16).map fun k => (s >>> (8 * k)).setWidth 8

/-- The landing set that 16 bytes spell. -/
def setOf (bs : List Byte) : LandingSet :=
  (List.range 16).foldl (fun s k => s ||| (bs.getD k 0).setWidth 128 <<< (8 * k)) 0

/-- A label, 3 bytes filled from the first, unused bytes 0. -/
def labelBytes (cs : List Byte) : List Byte := (cs ++ [0, 0, 0]).take 3

/-- The characters of a label field: the bytes before its trailing zero bytes. A zero byte followed
by a character stays in, and makes the label invalid (10.4, check 2 of R5). -/
def labelOf (bs : List Byte) : List Byte := (bs.reverse.dropWhile (· == 0)).reverse

/-- A label character: 0-9, B, L, M, S (00, Conventions). -/
def isLabelChar (b : Byte) : Bool :=
  (0x30 ≤ b.toNat && b.toNat ≤ 0x39) || b == 0x42 || b == 0x4C || b == 0x4D || b == 0x53

/-! ### The CRC and the frame (R158) -/

/-- One bit of the CRC-16 register with polynomial x^16 + x^12 + x^5 + 1. -/
def crcBit (r : BitVec 16) : BitVec 16 :=
  if r.msb then (r <<< 1) ^^^ 0x1021#16 else r <<< 1

/-- A byte taken into the register, most significant bit first. -/
def crcByte (r : BitVec 16) (b : Byte) : BitVec 16 :=
  Nat.repeat crcBit 8 (r ^^^ (b.setWidth 16 <<< 8))

/-- CRC-16: the register starts at 0xFFFF, no reflection, no final inversion. -/
def crc16 (bs : List Byte) : BitVec 16 := bs.foldl crcByte 0xFFFF#16

/-- The bytes of a frame, SYNC to CRC. -/
def frameBytes (type tag : Byte) (payload : List Byte) : List Byte :=
  let body := u16 payload.length ++ [type, tag] ++ payload
  0xC3#8 :: body ++ u16 (crc16 body).toNat

/-- The largest payload of a link (10.1). -/
def Link.maxPayload : Link → Nat
  | .site => 1024
  | .group _ => 256
  | .reader _ => 32

/-- The byte-gap limit of a link, in milliseconds (R159). -/
def Link.gapLimit : Link → Nat
  | .site => 20
  | .group _ => 20
  | .reader _ => 5

/-- The cause of a discard at SITE_FRAME (R173). -/
inductive DiscardCause
  | byteGap
  | length
  | crc
deriving DecidableEq, Repr

def DiscardCause.code : DiscardCause → Nat
  | .byteGap => 1
  | .length => 2
  | .crc => 3

/-- R159: why the receive rules discard the frame whose bytes after SYNC are `bs`. None where they do
not: the frame is valid, or not yet complete. -/
def discardCause (link : Link) (bs : List Byte) : Option DiscardCause :=
  let len := field bs 0 2
  if bs.length < 2 then none
  else if Link.maxPayload link < len then some .length
  else if bs.length = len + 6 ∧ field bs (len + 4) 2 ≠ (crc16 (bs.take (len + 4))).toNat then some .crc
  else none

/-- R159: whether the bytes after SYNC end a frame: they are discarded, or the last CRC byte is there. -/
def frameEnds (link : Link) (bs : List Byte) : Bool :=
  (discardCause link bs).isSome || (2 ≤ bs.length && field bs 0 2 + 6 ≤ bs.length)

/-! ### TYPE and LENGTH (R160, R163) -/

/-- The TYPEs of the site request table of 10.4. -/
def siteRequestTypes : List Byte :=
  [0x01, 0x02, 0x03, 0x04, 0x08, 0x09, 0x0A, 0x0B, 0x0C, 0x0D, 0x0E, 0x0F, 0x10, 0x14, 0x15, 0x16,
   0x17, 0x18, 0x19, 0x1C, 0x1D, 0x20, 0x21, 0x24, 0x25, 0x26, 0x28, 0x29, 0x2C, 0x2D, 0x2E, 0x2F,
   0x30, 0x31, 0x32, 0x33]

/-- The payload length of a frame from a reader, by its TYPE: BADGE, KEY, ALIVE. -/
def readerLength (type : Byte) : Option Nat :=
  if type = 0x60 then some 5 else if type = 0x61 then some 1 else if type = 0x62 then some 0 else none

/-- The payload length of a frame from a group controller, by its TYPE: ASSIGN, ENABLED, REFUSE,
CANCELLED, GROUP STATE, CAR STATE. -/
def groupLength (type : Byte) : Option Nat :=
  if type = 0x58 then some 1
  else if type = 0x59 ∨ type = 0x5A ∨ type = 0x5B then some 0
  else if type = 0x5C then some 1
  else if type = 0x5D then some 5
  else none

end Sys2Proof.Machine
end

