-- ==== Sys2Proof/Machine/Codes.lean ====
section
/-! DEFINITION. The wire codes of enumerated items (10.4, Enumerations and sets in replies and
notices; 11.1; 11.3), and the frames of notices, reader records and group messages. -/

namespace Sys2Proof.Machine

def ClockState.code : ClockState → Nat
  | .unset => 0
  | .set => 1

def PortPhase.code : PortPhase → Nat
  | .scanning => 0
  | .loading => 1
  | .open_ => 2

def BatchState.code : BatchState → Nat
  | .closed => 0
  | .open_ => 1
  | .committing => 2

def Condition.code : Condition → Nat
  | .usable => 0
  | .unusable => 1

def WorkKind.code : WorkKind → Nat
  | .commit => 1
  | .compact => 2

def Phase.code : Phase → Nat
  | .reading => 0
  | .commitWait => 1
  | .programming => 2
  | .logging => 3

def SaveState.code : SaveState → Nat
  | .idle => 0
  | .queued => 1
  | .running => 2

def SaveResult.code : SaveResult → Nat
  | .none => 0
  | .ok => 1
  | .failed => 2

def Avail.code : Avail → Nat
  | .inService => 0
  | .notAccepting => 1
  | .inRecall => 2
  | .offline => 3

def LinkCond.code : LinkCond → Nat
  | .waiting => 0
  | .live => 1
  | .silent => 2

def RecallState.code : RecallState → Nat
  | .clear => 0
  | .inRecall => 1
  | .held => 2

def Level.code : Level → Nat
  | .low => 0
  | .high => 1

def Polarity.code : Polarity → Nat
  | .activeHigh => 0
  | .activeLow => 1

def RecallMode.code : RecallMode → Nat
  | .level => 0
  | .latched => 1

def ChanState.code : ChanState → Nat
  | .unused => 0
  | .offline => 1
  | .starting => 2
  | .idle => 3
  | .entry => 4
  | .pending => 5
  | .showing => 6

def Mark.code : Mark → Nat
  | .none => 0
  | .owned => 1
  | .discard => 2

def EntryTimer.code : EntryTimer → Nat
  | .badgeWait => 0
  | .interKey => 1

def Motion.code : Motion → Nat
  | .stopped => 0
  | .up => 1
  | .down => 2

def Door.code : Door → Nat
  | .opened => 0
  | .closed => 1

def Standing.code : Standing → Nat
  | .none => 0
  | .good => 1
  | .unknown => 2
  | .suspended => 3
  | .lost => 4
  | .expired => 5
  | .clockUnset => 6
  | .storeFault => 7

def Path.code : Path → Nat
  | .normal => 0
  | .transfer => 1

def Reason.code : Reason → Nat
  | .unknown => 1
  | .suspended => 2
  | .lost => 3
  | .expired => 4
  | .clockUnset => 5
  | .storeFault => 6
  | .badgeRequired => 7
  | .notPermitted => 8
  | .noDestination => 9
  | .sameLanding => 10
  | .noRoute => 11
  | .noTrips => 12

def AnswerCode.code : AnswerCode → Nat
  | .go => 1
  | .denied _ => 2
  | .invalidLanding => 3
  | .busy => 4
  | .linkBusy => 5
  | .outOfService => 6
  | .noCar => 7
  | .departed => 8
  | .starting => 9

/-- The reason code, 0 for none. -/
def AnswerCode.reason : AnswerCode → Nat
  | .denied r => r.code
  | _ => 0

def Tone.code : Tone → Nat
  | .accept => 0
  | .refuse => 1
  | .busy => 2
  | .key => 3

def GroupCause.code : GroupCause → Nat
  | .recallChange => 0
  | .linkLive => 1
  | .linkSilent => 2
  | .acceptingChange => 3

def FailCause.code : FailCause → Nat
  | .programFail => 0
  | .noPages => 1
  | .logFail => 2

def CredStatus.code : CredStatus → Nat
  | .active => 0
  | .suspended => 1
  | .lost => 2

def Arm.form : Arm → Option Nat
  | .none => Option.none
  | .nextMinute => some 0
  | .at _ => some 1

def Arm.week : Arm → Option Nat
  | .at w => some w
  | _ => Option.none

def NoticeClass.code : NoticeClass → Nat
  | .admission => 0
  | .security => 1
  | .directory => 2
  | .schedule => 3
  | .group => 4
  | .reader => 5
  | .clock => 6
  | .fault => 7

/-- The classes in ascending number. -/
def NoticeClass.all : List NoticeClass :=
  [.admission, .security, .directory, .schedule, .group, .reader, .clock, .fault]

/-- The number of a fault kind, its bit in a fault kind set (11.3). -/
def FaultKind.code : FaultKind → Nat
  | .siteFrame => 0
  | .siteOverrun => 1
  | .groupProtocol => 2
  | .groupOffline => 3
  | .readerOffline => 4
  | .storeProgramFail => 5
  | .storeEraseFail => 6
  | .spareLow => 7
  | .storeFault => 8
  | .settingsLost => 9
  | .clockUnset => 10
  | .commitFail => 11

/-- The fault kinds in ascending number. -/
def FaultKind.all : List FaultKind :=
  [.siteFrame, .siteOverrun, .groupProtocol, .groupOffline, .readerOffline, .storeProgramFail,
   .storeEraseFail, .spareLow, .storeFault, .settingsLost, .clockUnset, .commitFail]

/-- The class a notice belongs to (11.1). -/
def NoticeBody.cls : NoticeBody → NoticeClass
  | .decision _ => .admission
  | .presentation _ => .security
  | .batchExpired _ => .directory
  | .committed _ => .directory
  | .commitFailed .. => .directory
  | .compactDone .. => .directory
  | .compactFailed => .directory
  | .switch .. => .schedule
  | .availability _ => .group
  | .readerOffline .. => .reader
  | .readerOnline _ => .reader
  | .clockSet .. => .clock
  | .dayLimit _ => .clock
  | .faultRaised .. => .fault

/-- The kind number within the class (11.1). -/
def NoticeBody.kind : NoticeBody → Nat
  | .decision _ => 1
  | .presentation _ => 1
  | .batchExpired _ => 1
  | .committed _ => 2
  | .commitFailed .. => 3
  | .compactDone .. => 4
  | .compactFailed => 5
  | .switch .. => 1
  | .availability _ => 1
  | .readerOffline .. => 1
  | .readerOnline _ => 2
  | .clockSet .. => 1
  | .dayLimit _ => 2
  | .faultRaised .. => 1

def dateBytes (d : Date) : List Byte := opt16 (d.map Prod.fst) ++ opt16 (d.map Prod.snd)

def legBytes (l : Leg) : List Byte := u8 l.group.val ++ landing8 l.src ++ landing8 l.dst

def routeBytes (ls : List Leg) : List Byte := u8 ls.length ++ ls.flatMap legBytes

/-- R126, items in the order listed. The wait is 2 bytes (10.4); one above 65,535 s, which no rule bounds
(R112), is sent as its low 16 bits, wrapping and not held at the top (DESIGN CHOICE, unsafe, log 61). -/
def Decision.bytes (d : Decision) : List Byte :=
  u8 d.channel.val ++ bool8 d.car ++ optBadge d.badge ++ u8 d.path.code ++ u8 d.standing.code
    ++ u8 ((d.outcome.map AnswerCode.code).getD 0) ++ u8 ((d.outcome.map AnswerCode.reason).getD 0)
    ++ optLanding d.dest ++ routeBytes d.route
    ++ opt8 (d.order.map fun o => o.group.val) ++ opt8 (d.order.map fun o => if o.enable then 1 else 0)
    ++ opt8 (d.order.map fun o => o.tag.toNat) ++ bool8 d.reservation ++ u16 d.bank ++ u16 d.wait

/-- R118. -/
def Presentation.bytes (p : Presentation) : List Byte :=
  u8 p.channel.val ++ bool8 p.car ++ optBadge p.badge ++ u8 p.standing.code ++ optLanding p.origin
    ++ optLanding p.dest ++ u8 p.path.code ++ u32 p.uptime ++ dateBytes p.date

/-- R90. -/
def Committed.bytes (c : Committed) : List Byte :=
  u32 c.number ++ u8 c.edits ++ u8 c.added ++ u8 c.removed ++ u8 c.replaced ++ u16 c.recordCount
    ++ u8 c.written ++ u8 c.released ++ u8 c.purged

/-- R134, and R152 for a change of recall state. -/
def AvailNotice.bytes (a : AvailNotice) : List Byte :=
  u8 a.group.val ++ u8 a.before.code ++ u8 a.after.code ++ u8 a.link.code ++ bool8 a.accepting
    ++ u8 a.cause.code ++ u8 a.removed ++ u8 a.withdrawn
    ++ (match a.recallChange with
        | some r => u8 r.before.code ++ u8 r.after.code ++ bool8 r.active
        | none => [])

/-- The contents of a notice on the wire, after class, kind and uptime. -/
def NoticeBody.bytes : NoticeBody → List Byte
  | .decision d => d.bytes
  | .presentation p => p.bytes
  | .batchExpired n => u8 n
  | .committed c => c.bytes
  | .commitFailed number edits programmed cause =>
    u32 number ++ u8 edits ++ u8 programmed ++ u8 cause.code
  | .compactDone number records => u32 number ++ u16 records
  | .compactFailed => []
  | .switch before after arm day minute =>
    u16 before ++ u16 after ++ opt8 arm.form ++ opt16 arm.week ++ u16 day ++ u16 minute
  | .availability a => a.bytes
  | .readerOffline c left => u8 c.val ++ u8 left.code
  | .readerOnline c => u8 c.val
  | .clockSet before day0 minute0 day minute =>
    u8 before.code ++ u16 day0 ++ u16 minute0 ++ u8 1 ++ u16 day ++ u16 minute
  | .dayLimit minute => u16 minute
  | .faultRaised k major detail already date =>
    u8 k.code ++ bool8 major ++ u16 detail ++ bool8 already ++ dateBytes date

/-- A queued notice as a Site Link frame with the sequence number as its TAG (R161; 10.4, Notices). -/
def QueuedNotice.frame (n : QueuedNotice) (seq : Byte) : SiteTx :=
  match n with
  | .notice n =>
    { type := 0x40, tag := seq
      payload := u8 n.body.cls.code ++ u8 n.body.kind ++ u32 n.uptime ++ n.body.bytes
      restart := false }
  | .summary c => { type := 0x41, tag := seq, payload := u8 c.code, restart := false }

/-- A reader record as the frame on its line (10.4, Reader Line records); the TAG is 0 (R158). `label`
gives the label of a landing number as the record is sent (R10). -/
def ReaderRecord.frame (label : Option Landing → List Byte) : ReaderRecord → List Byte
  | .show_ code car dest transfer =>
    frameBytes 0x68 0 (u8 code.code ++ u8 code.reason ++ opt8 (car.map Fin.val)
      ++ labelBytes (label dest) ++ labelBytes (label transfer))
  | .blank => frameBytes 0x68 0 (List.replicate 9 0)
  | .tone t => frameBytes 0x69 0 (u8 t.code)

/-- A message to a group controller as the frame on its link (10.4, Group Link messages). -/
def GroupMsg.frame : GroupMsg → List Byte
  | .call tag legs final accessible priority =>
    frameBytes 0x50 tag
      (optLanding (legs.head?.map Leg.src) ++ optLanding (legs.head?.map Leg.dst)
        ++ u8 ((if accessible then 1 else 0) + (if priority then 2 else 0)) ++ landing8 final
        ++ u8 legs.tail.length ++ legs.tail.flatMap legBytes)
  | .enable tag car hold proposed =>
    frameBytes 0x51 tag (u8 car.val ++ u8 hold ++ setBytes proposed)
  | .cancel tag => frameBytes 0x52 tag []
  | .withdraw car => frameBytes 0x53 0 (u8 car.val)

/-- A frame of the Site Link as its bytes. -/
def SiteTx.bytes (t : SiteTx) : List Byte := frameBytes t.type t.tag t.payload

end Sys2Proof.Machine
end

