-- ==== Sys2Proof/Machine/Ops.lean ====
section
/-! DEFINITION. The named operations every block uses: reading and updating a channel, a group, a
page; the time base; raising a notice and a fault and settling an event's notices (11); the settings
and the queueing of their save (04); sending on a line; the state before and after a start-up. -/

namespace Sys2Proof.Machine

/-- The numbers below `n`, in ascending order. -/
def finList (n : Nat) : List (Fin n) :=
  (List.range n).filterMap fun i => if h : i < n then some ⟨i, h⟩ else none

/-- A vector mapped entry by entry. -/
def vmap {α β : Type} {n : Nat} (f : α → β) (v : Vector α n) : Vector β n :=
  ⟨⟨v.toList.map f⟩, by simp⟩

/-- A vector from a function of the index. -/
def vmake {β : Type} {n : Nat} (f : Nat → β) : Vector β n :=
  ⟨⟨(List.range n).map f⟩, by simp⟩

/-- A 16-bit count that holds at its top (R48, R61, R127). -/
def hold16 (n : Nat) : Nat := min n 65535

/-! ### Reading and updating the parts of the state -/

def State.reader (s : State) (c : Chan) : Channel := s.readers[c]

def State.mapReader (s : State) (c : Chan) (f : Channel → Channel) : State :=
  { s with readers := s.readers.set c.val (f (s.reader c)) c.isLt }

def State.group (s : State) (g : Group) : GroupMgr := s.groups[g]

def State.mapGroup (s : State) (g : Group) (f : GroupMgr → GroupMgr) : State :=
  { s with groups := s.groups.set g.val (f (s.group g)) g.isLt }

def State.recallOf (s : State) (g : Group) : RecallIn := s.recallIn[g]

def State.mapRecall (s : State) (g : Group) (f : RecallIn → RecallIn) : State :=
  { s with recallIn := s.recallIn.set g.val (f (s.recallOf g)) g.isLt }

def State.mapStore (s : State) (f : Store → Store) : State := { s with store := f s.store }

def State.mapDir (s : State) (f : Directory → Directory) : State := { s with dir := f s.dir }

def State.mapSite (s : State) (f : Port → Port) : State := { s with site := f s.site }

def State.mapNotices (s : State) (f : NoticeUnit → NoticeUnit) : State :=
  { s with notices := f s.notices }

def State.mapFaults (s : State) (f : FaultUnit → FaultUnit) : State := { s with faults := f s.faults }

def State.mapBatch (s : State) (f : Batch → Batch) : State := { s with batch := f s.batch }

def State.zoneGroup (s : State) (g : Group) : GroupEntry := s.zone.groups[g]

def Store.page (st : Store) (p : Page) : DirPage := st.pages[p]

def Store.stateOf (st : Store) (p : Page) : PageState := st.pageState[p]

def Store.setPage (st : Store) (p : Page) (d : DirPage) : Store :=
  { st with pages := st.pages.set p.val d p.isLt }

def Store.setState (st : Store) (p : Page) (x : PageState) : Store :=
  { st with pageState := st.pageState.set p.val x p.isLt }

/-! ### The time base (R29; log 11) -/

/-- The time since start-up in milliseconds. -/
def State.now (s : State) : Nat := s.time.seconds * 1000 + s.time.ms

/-- The state at the moment the time base reaches `t`: at once when `t` is past, otherwise with the
time moved on to `t` within the current second. None when a second event must come first. While the
reset input holds the card no second events come, and the time is moved on without that bound. -/
def State.reach (s : State) (t : Nat) : Option State :=
  if t ≤ s.now then some s
  else if t ≤ s.time.seconds * 1000 + 1000 ∨ s.power ≠ .running then
    some { s with time := { s.time with ms := t - s.time.seconds * 1000 } }
  else none

/-- The day number and week-minute when the clock is SET. -/
def State.date (s : State) : Date :=
  match s.cal.state with
  | .set => some (s.cal.day, s.cal.weekMinute)
  | .unset => none

/-- The service key is ON while its stable level shows the switch closed (R155). -/
def State.keyOn (s : State) : Bool := s.key.stable == some .high

/-! ### Notices (R171) -/

/-- A block raises a notice in its event. -/
def State.raiseNotice (s : State) (b : NoticeBody) : State :=
  s.mapNotices fun u => { u with raised := u.raised ++ [{ uptime := s.cal.uptime, body := b }] }

/-- The bit of a class in a notice class set. -/
def NoticeClass.bit (c : NoticeClass) : BitVec 8 := 1#8 <<< c.code

def NoticeUnit.enabled (u : NoticeUnit) (c : NoticeClass) : Bool := u.enables.getLsbD c.code

def NoticeUnit.isPending (u : NoticeUnit) (c : NoticeClass) : Bool := u.pending.getLsbD c.code

/-- R171: a notice joins the tail when its class is ENABLED and a place is free; otherwise its class's
pending flag is set. -/
def NoticeUnit.take (u : NoticeUnit) (n : Notice) : NoticeUnit :=
  if u.enabled n.body.cls ∧ u.queue.length < 64 then { u with queue := u.queue ++ [.notice n] }
  else { u with pending := u.pending ||| n.body.cls.bit }

/-- R171: the notices of one event in ascending class number, those of one class as raised. -/
def inClassOrder (ns : List Notice) : List Notice :=
  NoticeClass.all.flatMap fun c => ns.filter fun n => n.body.cls == c

/-- The end of an event: the Notice Unit takes the notices raised in it. -/
def State.settle (s : State) : State :=
  s.mapNotices fun u => (inClassOrder u.raised).foldl NoticeUnit.take { u with raised := [] }

/-- R171, R172: a SUMMARY for a class joins the tail and the class's flag is cleared. -/
def NoticeUnit.queueSummary (u : NoticeUnit) (c : NoticeClass) : NoticeUnit :=
  { u with queue := u.queue ++ [.summary c], pending := u.pending &&& ~~~c.bit }

/-- R171: the classes `cs` have been made ENABLED: each with its flag set is given its SUMMARY while
places remain. -/
def NoticeUnit.summaries (u : NoticeUnit) (cs : List NoticeClass) : NoticeUnit :=
  cs.foldl (fun u c => if u.enabled c ∧ u.isPending c ∧ u.queue.length < 64 then u.queueSummary c else u) u

/-- R171: the enables are replaced, and each class this makes ENABLED with its flag set is given its
SUMMARY, lowest class first. -/
def NoticeUnit.setEnables (u : NoticeUnit) (e : BitVec 8) : NoticeUnit :=
  ({ u with enables := e }).summaries (NoticeClass.all.filter fun c => !u.enabled c)

/-! ### Faults (R157, R173) -/

/-- The bit of a kind in a fault kind set. -/
def FaultKind.bit (k : FaultKind) : BitVec 12 := 1#12 <<< k.code

def FaultUnit.isSet (f : FaultUnit) (k : FaultKind) : Bool := f.status.getLsbD k.code

def FaultUnit.masked (f : FaultUnit) (k : FaultKind) : Bool := f.masks.getLsbD k.code

def FaultUnit.major (f : FaultUnit) (k : FaultKind) : Bool := f.majors.getLsbD k.code

/-- R157: the fault output is asserted while a MAJOR kind is set and unmasked, and deasserted until
the settings load ends. -/
def State.reworkLine (s : State) : State :=
  s.mapFaults fun f =>
    { f with line := s.site.phase == .open_ && f.status &&& ~~~f.masks &&& f.majors != 0 }

/-- R173: a fault is raised. -/
def State.raiseFault (s : State) (k : FaultKind) (detail : Nat) : State :=
  let f := s.faults
  let s1 := s.mapFaults fun f =>
    { f with
      status := f.status ||| k.bit
      first := f.first <|> some { kind := k, uptime := s.cal.uptime, date := s.date, detail := detail }
      storeDetail := if k = .storeFault then detail else f.storeDetail }
  let s2 := if f.masked k then s1
    else s1.raiseNotice (.faultRaised k (f.major k) detail (f.isSet k) s.date)
  s2.reworkLine

/-- The detail word of GROUP_PROTOCOL: the group number in the high byte; the tag of an unmatched
reply, or 0xFF for any other cause, in the low byte (R173; log 38). -/
def protocolDetail (g : Group) (low : Nat) : Nat := g.val * 256 + low

/-! ### Lines (R109, R136) -/

/-- A record is produced for a channel's line; nothing is sent on the line of a channel in OFFLINE or
UNUSED (R98, R109). -/
def State.sendRecord (s : State) (c : Chan) (r : ReaderRecord) : State :=
  match (s.reader c).state with
  | .offline => s
  | .unused => s
  | _ => s.mapReader c fun ch => { ch with tx := ch.tx ++ [r] }

def State.sendTone (s : State) (c : Chan) (t : Tone) : State := s.sendRecord c (.tone t)

/-- A frame is produced for a group link (R136). -/
def State.sendGroup (s : State) (g : Group) (m : GroupMsg) : State :=
  s.mapGroup g fun m0 => { m0 with tx := m0.tx ++ [m] }

/-! ### The settings and their save (R67, R68) -/

/-- The settings in force, as the image carries them (R67). -/
def State.settings (s : State) : Settings :=
  { bank := s.banks.active
    bankNumber := s.banks.number
    holidays := s.banks.holidays
    zone := s.zone
    channels := vmap Channel.cfg s.readers
    groups := vmap RecallIn.cfg s.recallIn
    enables := s.notices.enables
    masks := s.faults.masks
    majors := s.faults.majors
    timing := s.timing }

/-- R68: a change that queues a settings save. -/
def State.queueSave (s : State) : State :=
  match s.store.save.state with
  | .idle => s.mapStore fun st =>
      { st with workQ := st.workQ ++ [.save 0], save := { st.save with state := .queued } }
  | .queued => s
  | .running => s.mapStore fun st => { st with save := { st.save with pending := true } }

/-! ### Outcomes -/

/-- A command taken while the card runs, as one event; while the card is unpowered or held by the
reset input it takes no frame and does nothing (R28, R169). -/
def whileRunning (f : State → State) (s : State) : Host.Outcome State Fault Refusal :=
  .next (if s.power = .running then (f s).settle else s)

end Sys2Proof.Machine
end

