-- ==== Sys2Proof/Machine/Zone.lean ====
section
/-! DEFINITION. The Zone Map and the route computation (01): the derived sets, the wire layout, the
checks of ZONE WRITE, labels, eligibility and routes. -/

namespace Sys2Proof.Machine

/-! ### The map and its sets (R1, R2) -/

def ZoneMap.landing (z : ZoneMap) (l : Landing) : LandingEntry := z.landings[l]

def ZoneMap.group (z : ZoneMap) (g : Group) : GroupEntry := z.groups[g]

/-- The set of the landings that satisfy `p`. -/
def landingsWhere (p : Landing → Bool) : LandingSet :=
  (finList 128).foldl (fun s l => if p l then s ||| LandingSet.one l else s) 0

/-- R1. -/
def ZoneMap.isPublic (z : ZoneMap) (l : Landing) : Bool := (z.landing l).present && !(z.landing l).secure

/-- R1. -/
def ZoneMap.isSecure (z : ZoneMap) (l : Landing) : Bool := (z.landing l).present && (z.landing l).secure

def ZoneMap.publicSet (z : ZoneMap) : LandingSet := landingsWhere z.isPublic

/-- The transfer landings, ascending (R1). -/
def ZoneMap.transfers (z : ZoneMap) : List Landing :=
  (finList 128).filter fun l => (z.landing l).present && (z.landing l).transfer

/-- The groups present in the map (R2). -/
def ZoneMap.presentGroups (z : ZoneMap) : List Group := (finList 6).filter fun g => (z.group g).present

/-! ### Labels (R9, R10) -/

/-- R9: the present landing whose label equals the characters keyed. -/
def ZoneMap.resolve (z : ZoneMap) (chars : List Byte) : Option Landing :=
  (finList 128).find? fun l => (z.landing l).present && (z.landing l).label == chars

/-- R10: the label of a landing as it is shown, empty where the landing is absent or there is none. -/
def ZoneMap.labelFor (z : ZoneMap) (l : Option Landing) : List Byte :=
  match l with
  | some l => if (z.landing l).present then (z.landing l).label else []
  | none => []

/-! ### The layout of ZONE WRITE and its checks (R5; 10.4) -/

/-- The flag byte of landing `n` in a ZONE WRITE payload. -/
def zoneFlags (p : List Byte) (n : Nat) : Byte := p.getD (4 * n) 0

/-- The label characters of landing `n`. -/
def zoneLabel (p : List Byte) (n : Nat) : List Byte := labelOf ((p.drop (4 * n + 1)).take 3)

def zoneGroupFlags (p : List Byte) (g : Nat) : Byte := p.getD (512 + 17 * g) 0

def zoneServed (p : List Byte) (g : Nat) : LandingSet := setOf ((p.drop (513 + 17 * g)).take 16)

/-- The map a payload carries. -/
def zoneOf (p : List Byte) : ZoneMap :=
  { landings := vmake fun n =>
      { present := (zoneFlags p n).getLsbD 0, label := zoneLabel p n
        secure := (zoneFlags p n).getLsbD 1, transfer := (zoneFlags p n).getLsbD 2 }
    groups := vmake fun g =>
      { present := (zoneGroupFlags p g).getLsbD 0, serviceCar := (zoneGroupFlags p g).getLsbD 1
        served := zoneServed p g } }

/-- The payload of ZONE WRITE and ZONE READ (10.4). -/
def ZoneMap.bytes (z : ZoneMap) : List Byte :=
  (z.landings.toList.flatMap fun e =>
    u8 ((if e.present then 1 else 0) + (if e.secure then 2 else 0) + (if e.transfer then 4 else 0))
      ++ labelBytes e.label)
  ++ z.groups.toList.flatMap fun e =>
    u8 ((if e.present then 1 else 0) + (if e.serviceCar then 2 else 0)) ++ setBytes e.served

/-- How many landings a set holds. -/
def setSize (s : LandingSet) : Nat := ((finList 128).filter (LandingSet.has s)).length

/-- R5, one check against the map carried: the item it fails on first. -/
def zoneCheckItem (p : List Byte) (z : ZoneMap) (check : Nat) : Option Nat :=
  let landings := finList 128
  let groups := finList 6
  let here l := (z.landing l).present
  match check with
  | 1 => (landings.find? fun l =>
      (!here l && (!(z.landing l).label.isEmpty || (z.landing l).secure || (z.landing l).transfer))
        || zoneFlags p l.val >>> 3 != 0).map Fin.val
  | 2 => (landings.find? fun l =>
      here l && ((z.landing l).label.isEmpty || (z.landing l).label.contains 0)).map Fin.val
  | 3 => (landings.find? fun l => here l && !(z.landing l).label.all isLabelChar).map Fin.val
  | 4 => (landings.find? fun l => here l && landings.any fun k =>
      k.val < l.val && here k && (z.landing k).label == (z.landing l).label).map Fin.val
  | 5 => (groups.find? fun g =>
      (!(z.group g).present && ((z.group g).served != 0 || (z.group g).serviceCar))
        || zoneGroupFlags p g.val >>> 2 != 0).map Fin.val
  | 6 => (groups.find? fun g =>
      (z.group g).present && landings.any fun l => LandingSet.has (z.group g).served l && !here l).map Fin.val
  | 7 => (groups.find? fun g => (z.group g).present && setSize (z.group g).served < 2).map Fin.val
  | 8 => (z.transfers[8]?).map Fin.val
  | 9 => (z.transfers.find? fun l =>
      (z.presentGroups.filter fun g => LandingSet.has (z.group g).served l).length < 2).map Fin.val
  | _ => none

/-- R5: the first failing check and the item it fails on. -/
def zoneFailure (p : List Byte) (z : ZoneMap) : Option (Nat × Nat) :=
  [1, 2, 3, 4, 5, 6, 7, 8, 9].findSome? fun c => (zoneCheckItem p z c).map fun i => (c, i)

/-! ### Eligibility and routes (R11 to R15) -/

/-- R11: presence and the service-car flag, which hold in both computations. -/
def ZoneMap.open_ (z : ZoneMap) (serviceCars : Bool) (g : Group) : Bool :=
  (z.group g).present && (!(z.group g).serviceCar || serviceCars)

/-- R11: eligible for a request, availabilities read from the Group Link Managers. -/
def State.eligible (s : State) (serviceCars : Bool) (g : Group) : Bool :=
  s.zone.open_ serviceCars g && (s.group g).avail == .inService

/-- R12: the leg from `a` to `b`, in the lowest-numbered group of `elig` serving both. -/
def ZoneMap.leg (z : ZoneMap) (elig : Group → Bool) (a b : Landing) : Option Leg :=
  if a = b then none
  else ((finList 6).find? fun g => elig g && LandingSet.has (z.group g).served a && LandingSet.has (z.group g).served b).map
    fun g => { group := g, src := a, dst := b }

/-- R12: the absolute difference of the two landing numbers. -/
def Leg.distance (l : Leg) : Nat := (l.src.val - l.dst.val) + (l.dst.val - l.src.val)

def routeDistance (ls : List Leg) : Nat := (ls.map Leg.distance).sum

/-- The route of the smallest distance, the first in the list among equals. -/
def nearest (routes : List (List Leg)) : Option (List Leg) :=
  routes.foldl (fun best r =>
    match best with
    | some b => if routeDistance r < routeDistance b then some r else some b
    | none => some r) none

/-- R13: the routes with one change, by ascending transfer landing. -/
def ZoneMap.twoLegs (z : ZoneMap) (elig : Group → Bool) (o d : Landing) : List (List Leg) :=
  (z.transfers.filter fun t => t != o && t != d).filterMap fun t =>
    match z.leg elig o t, z.leg elig t d with
    | some a, some b => some [a, b]
    | _, _ => none

/-- R13: the routes with two changes, by ascending pair of transfer landings. -/
def ZoneMap.threeLegs (z : ZoneMap) (elig : Group → Bool) (o d : Landing) : List (List Leg) :=
  let ts := z.transfers.filter fun t => t != o && t != d
  ts.flatMap fun t1 => ts.filterMap fun t2 =>
    match z.leg elig o t1, z.leg elig t1 t2, z.leg elig t2 d with
    | some a, some b, some c => some [a, b, c]
    | _, _, _ => none

/-- R13, from the direct-leg test onward. -/
def ZoneMap.search (z : ZoneMap) (elig : Group → Bool) (o d : Landing) : Option (List Leg) :=
  ((z.leg elig o d).map fun l => [l])
    <|> nearest (z.twoLegs elig o d)
    <|> nearest (z.threeLegs elig o d)

/-- The result of the route computation (1.5). -/
inductive RouteResult
  | route (legs : List Leg)
  | sameLanding
  | noRoute
  | outOfService
deriving DecidableEq, Repr

/-- R13, R14. -/
def State.route (s : State) (serviceCars : Bool) (o d : Landing) : RouteResult :=
  if !(s.zone.landing o).present || !(s.zone.landing d).present then .noRoute
  else if o = d then .sameLanding
  else match s.zone.search (s.eligible serviceCars) o d with
    | some ls => .route ls
    | none => if (s.zone.search (s.zone.open_ serviceCars) o d).isSome then .outOfService else .noRoute

/-- R15: the transfer landing of a route: the to-landing of its first leg when legs follow. -/
def routeTransfer (ls : List Leg) : Option Landing :=
  match ls with
  | a :: _ :: _ => some a.dst
  | _ => none

end Sys2Proof.Machine
end

