-- ==== Sys2Proof/Machine/Channels.lean ====
section
/-! DEFINITION. The Reader Front's shared operations (06): showing and dropping answers, the admission
mark, a channel going OFFLINE and coming back, reconfiguration. -/

namespace Sys2Proof.Machine

/-- R98: a line is live while its silence deadline lies after the present uptime. -/
def Channel.lineLive (ch : Channel) (uptime : Nat) : Bool :=
  match ch.silenceDeadline with
  | some d => uptime < d
  | none => false

/-- A channel whose kind is LOBBY or CAR. -/
def Channel.configured (ch : Channel) : Bool := ch.cfg.place != .unused

/-- R108: the tone that follows the SHOW of an answer. -/
def AnswerCode.tone : AnswerCode → Tone
  | .go => .accept
  | .busy => .busy
  | .linkBusy => .busy
  | _ => .refuse

/-- The SHOW record of an answer (R108). -/
def Answer.record (a : Answer) : ReaderRecord := .show_ a.code a.car a.dest a.transfer

/-- The SHOW of an answer and its tone (R109). -/
def State.sendAnswer (s : State) (c : Chan) (a : Answer) : State :=
  (s.sendRecord c a.record).sendTone c a.code.tone

/-- R106: the channel shows an answer for its display hold. -/
def State.showAnswer (s : State) (c : Chan) (a : Answer) : State :=
  (s.mapReader c fun ch =>
    { ch with state := .showing, displayDeadline := some (s.cal.uptime + ch.cfg.hold) }).sendAnswer c a

/-- An answer of the Reader Front's own: no car letter and no landing (R108). -/
def Answer.plain (code : AnswerCode) : Answer := { code := code, car := none, dest := none, transfer := none }

/-- R97: an answer is delivered for a channel. -/
def State.deliver (s : State) (c : Chan) (a : Answer) : State :=
  match (s.reader c).mark with
  | .owned => (s.mapReader c fun ch => { ch with mark := .none }).showAnswer c a
  | .discard => s.mapReader c fun ch =>
      { ch with mark := .none, state := if ch.state = .pending then .idle else ch.state }
  | .none => s

/-- R97, R113: the channel loses its admission: its request is removed from the queue where the queue
holds it, and its answer is dropped otherwise. -/
def State.settleMark (s : State) (c : Chan) : State :=
  match (s.reader c).mark with
  | .owned =>
    if s.queue.any fun r => r.channel == c then
      { s with queue := s.queue.filter fun r => r.channel != c }.mapReader c fun ch =>
        { ch with mark := .none }
    else s.mapReader c fun ch => { ch with mark := .discard }
  | _ => s

/-- R98: a channel has gone OFFLINE: the fault and the notice, with the state it left. -/
def State.raiseOffline (s : State) (c : Chan) (left : ChanState) : State :=
  (s.raiseFault .readerOffline c.val).raiseNotice (.readerOffline c left)

/-- R98, R109: a channel's silence deadline has been reached. -/
def State.goOffline (s : State) (c : Chan) : State :=
  ((s.mapReader c fun ch =>
      { ch with state := .offline, entry := none, displayDeadline := none, tx := [] }).settleMark c).raiseOffline
    c (s.reader c).state

/-- R98, R99: a valid frame on a line sets its silence deadline and brings an OFFLINE channel back. -/
def State.lineFrame (s : State) (c : Chan) : State :=
  let s1 := s.mapReader c fun ch =>
    { ch with silenceDeadline := some (s.cal.uptime + 3), rx := .hunting }
  if (s.reader c).state = .offline then
    (s1.mapReader c fun ch =>
      { ch with state := if ch.mark = .discard then .pending else .idle }).raiseNotice (.readerOnline c)
  else s1

/-- R107: a display is ended with the blank form. -/
def State.endDisplay (s : State) (c : Chan) : State :=
  (s.sendRecord c .blank).mapReader c fun ch => { ch with state := .idle, displayDeadline := none }

/-- R107: the display deadline of a SHOWING channel, when it is reached. -/
def State.checkDisplay (s : State) (c : Chan) : State :=
  let ch := s.reader c
  match ch.displayDeadline with
  | none => s
  | some d =>
    if s.cal.uptime < d then s
    else match ch.state with
      | .showing => s.endDisplay c
      | .starting => (s.sendRecord c .blank).mapReader c fun ch => { ch with displayDeadline := none }
      | _ => s

/-- R98: whether a channel in a state that can go OFFLINE has reached its silence deadline. -/
def Channel.silent (ch : Channel) (uptime : Nat) : Bool :=
  (match ch.state with
   | .idle => true
   | .entry => true
   | .pending => true
   | .showing => true
   | _ => false)
  && match ch.silenceDeadline with
     | some d => d ≤ uptime
     | none => false

/-- R98, at a second event. -/
def State.checkSilence (s : State) (c : Chan) : State :=
  if (s.reader c).silent s.cal.uptime then s.goOffline c else s

/-- R95: the effects of a change of kind or place, `cfg` being the configuration stored. Of the records
not yet sent, a channel made UNUSED keeps the blank form of the display this ends alone (R98, R109;
log 35). -/
def State.reconfigure (s : State) (c : Chan) (cfg : ChanConfig) : State :=
  let ch := s.reader c
  let blanks : Bool := ch.state == .showing && ch.lineLive s.cal.uptime
  let s1 := if blanks then s.sendRecord c .blank else s
  let s2 := (s1.mapReader c fun ch =>
    { ch with cfg := cfg, entry := none, displayDeadline := none }).settleMark c
  let set (x : ChanState) : State := s2.mapReader c fun ch => { ch with state := x }
  if cfg.place = .unused then
    s2.mapReader c fun ch => { ch with state := .unused, tx := if blanks then [.blank] else [] }
  else if (s2.reader c).mark = .discard then set .pending
  else if ch.lineLive s.cal.uptime then set .idle
  else (s2.mapReader c fun ch => { ch with state := .offline, tx := [] }).raiseOffline c ch.state

end Sys2Proof.Machine
end

