-- ==== Sys2Proof/Machine/Plan.lean ====
section
/-! DEFINITION. Plans of new page copies: the commit plan of R87 with the counts of R88 and R90, and the
layout a COMPACT fixes (R75). -/

namespace Sys2Proof.Machine

/-- A page of the Page Index as the plan sees it: its new record list, whether an edit that is not
void touches it, and what its edits do. -/
structure PlanRow where
  entry : IndexEntry
  records : List PlanRecord
  edited : Bool
  added : Nat
  removed : Nat
  replaced : Nat
deriving DecidableEq, Repr

/-- A range of the plan that one page of the index, widened or not, comes to cover. -/
structure PlanCover where
  low : Badge
  high : Badge
  records : List PlanRecord
  rewritten : Bool
  page : Page
deriving DecidableEq, Repr

/-- The plan: the new copies in ascending order of low bound, the pages they replace, and the counts. -/
structure Plan where
  copies : List Copy
  released : List Page
  added : Nat
  removed : Nat
  replaced : Nat
deriving DecidableEq, Repr

/-- A record carried unchanged from its old page. -/
def PlanRecord.carried (r : Record) : PlanRecord := { badge := r.badge, fresh := none }

/-- A record put in badge order. -/
def insertRecord (r : PlanRecord) : List PlanRecord → List PlanRecord
  | [] => [r]
  | a :: rest => if r.badge < a.badge then r :: a :: rest else a :: insertRecord r rest

/-- R87, step 4: one edit taken into a page's new record list. A PUT's record has every slot unmarked
(R46). -/
def applyEdit (rs : List PlanRecord) (e : Edit) : List PlanRecord :=
  let others := rs.filter fun r => r.badge != e.badge
  match e.kind with
  | .put r => insertRecord { badge := e.badge, fresh := some { r with slots := 0 } } others
  | .drop => others

def Edit.isPut (e : Edit) : Bool :=
  match e.kind with
  | .put _ => true
  | .drop => false

/-- R87, steps 3 and 4, for one page read. -/
def planRow (edits : List Edit) (e : IndexEntry) (rs : List Record) : PlanRow :=
  let mine := edits.filter fun x => e.low ≤ x.badge && x.badge ≤ e.high
  let held (b : Badge) : Bool := rs.any fun r => r.badge == b
  let added := mine.countP fun x => x.isPut && !held x.badge
  let removed := mine.countP fun x => !x.isPut && held x.badge
  let replaced := mine.countP fun x => x.isPut && held x.badge
  { entry := e, records := mine.foldl applyEdit (rs.map PlanRecord.carried)
    edited := 0 < added + removed + replaced, added, removed, replaced }

def PlanRow.emptied (r : PlanRow) : Bool := r.edited && r.records.isEmpty

def PlanRow.cover (r : PlanRow) : PlanCover :=
  { low := r.entry.low, high := r.entry.high, records := r.records, rewritten := r.edited
    page := r.entry.page }

/-- R87, step 5, taken from the lowest page upward. `acc` holds the covers so far, highest first;
`floor` is the low bound of emptied pages below which none is left unemptied. -/
def coverRows : List PlanRow → List PlanCover → Option Badge → List PlanCover × Option Badge
  | [], acc, floor => (acc.reverse, floor)
  | r :: rest, acc, floor =>
    if r.emptied then
      match acc with
      | c :: below => coverRows rest ({ c with high := r.entry.high, rewritten := true } :: below) floor
      | [] => coverRows rest [] (floor <|> some r.entry.low)
    else
      match floor with
      | some low => coverRows rest [{ r.cover with low := low, rewritten := true }] none
      | none => coverRows rest (r.cover :: acc) none

/-- R87, step 6: the new copies of one range. -/
def PlanCover.copies (c : PlanCover) : List Copy :=
  let k := c.records.length
  if !c.rewritten then []
  else if k ≤ 64 then
    [{ low := c.low, high := c.high, records := c.records, page := none, failures := 0 }]
  else
    let lower := c.records.take (k - k / 2)
    let upper := c.records.drop (k - k / 2)
    let cut := (upper.head?.map PlanRecord.badge).getD c.high
    [{ low := c.low, high := cut - 1, records := lower, page := none, failures := 0 },
     { low := cut, high := c.high, records := upper, page := none, failures := 0 }]

/-- One copy over the whole range with no records. -/
def emptyCopy : Copy := { low := 1, high := topBadge, records := [], page := none, failures := 0 }

/-- R87: the plan from the rows of the whole index. -/
def planOf (rows : List PlanRow) : Plan :=
  let (covers, floor) := coverRows rows [] none
  { copies := match floor with
      | some _ => [emptyCopy]
      | none => covers.flatMap PlanCover.copies
    released := (rows.filter PlanRow.emptied).map (fun r => r.entry.page)
      ++ (covers.filter PlanCover.rewritten).map PlanCover.page
    added := (rows.map PlanRow.added).sum
    removed := (rows.map PlanRow.removed).sum
    replaced := (rows.map PlanRow.replaced).sum }

/-- The records cut into runs of 64, the last holding the rest. `fuel` bounds the number of runs. -/
def runsOf64 {α : Type} : Nat → List α → List (List α)
  | 0, _ => []
  | fuel + 1, rs => if rs.length ≤ 64 then [rs] else rs.take 64 :: runsOf64 fuel (rs.drop 64)

/-- R75: the ranges of a COMPACT's pages: `low` is the low bound of the first run. -/
def compactCopies : Badge → List (List Record) → List Copy
  | _, [] => []
  | low, [rs] =>
    [{ low := low, high := topBadge, records := rs.map PlanRecord.carried, page := none, failures := 0 }]
  | low, rs :: next :: rest =>
    let cut := (next.head?.map Record.badge).getD topBadge
    { low := low, high := cut - 1, records := rs.map PlanRecord.carried, page := none, failures := 0 }
      :: compactCopies cut (next :: rest)

/-- R75: the layout of the records gathered, one empty page when there are none. -/
def compactLayout (rs : List Record) : List Copy := compactCopies 1 (runsOf64 (rs.length + 1) rs)

/-- R74: the pages a COMPACT needs. -/
def compactNeeds (records : Nat) : Nat := max 1 ((records + 63) / 64)

end Sys2Proof.Machine
end

