-- ==== Sys2Proof/Machine/Store.lean ====
section
/-! DEFINITION. The Directory Store (04) and the directory in it (03): pages, reads and lookups, trip
marks, the arbiter, the Commit Log, and the running work up to its end by COMMIT_FAIL or by its
commit-complete event. -/

namespace Sys2Proof.Machine

/-! ### Pages (R56 to R59) -/

def Store.countPages (st : Store) (p : PageState → Bool) : Nat := st.pageState.toList.countP p

def PageState.isFree : PageState → Bool
  | .free => true
  | _ => false

def PageState.isStale : PageState → Bool
  | .stale _ => true
  | _ => false

def PageState.isErasing : PageState → Bool
  | .erasing _ => true
  | _ => false

/-- An abandoned page that is STALE or ERASING (R66). -/
def PageState.isAbandoned : PageState → Bool
  | .stale .abandoned => true
  | .erasing .abandoned => true
  | _ => false

def Store.freePages (st : Store) : Nat := st.countPages PageState.isFree

/-- The pages available to a plan: FREE, STALE and ERASING (R74, R88). -/
def Store.available (st : Store) : Nat :=
  st.countPages fun x => x.isFree || x.isStale || x.isErasing

/-- R62: the pages that can still be had: FREE, STALE and ERASING outside the work's held pages. -/
def Store.obtainable (st : Store) : Nat :=
  st.countPages fun x => x.isFree || (x.isStale && x != .stale .held) || x.isErasing

/-- The spare sum of R59: FREE, STALE, WRITING and ERASING (log 19). -/
def Store.spareSum (st : Store) : Nat :=
  st.countPages fun x => x.isFree || x.isStale || x.isErasing || x == .writing

/-- R58: the page a PROGRAM takes. -/
def Store.lowestFree (st : Store) : Option Page := (finList 544).find? fun p => (st.stateOf p).isFree

/-- R59: SPARE_LOW is raised where an event has brought the sum from 8 or more to below 8 (log 20). -/
def State.checkSpare (s : State) (before : Nat) : State :=
  if s.store.spareSum < 8 ∧ 8 ≤ before then s.raiseFault .spareLow s.store.spareSum else s

/-- The pages of a set, ascending. -/
def ascending (ps : List Page) : List Page := (finList 544).filter fun p => ps.contains p

/-- R58: pages become STALE in one condition and join the erase queue in ascending order. -/
def Store.toStale (st : Store) (ps : List Page) (k : Stale) : Store :=
  let st1 := (ascending ps).foldl (fun st p => st.setState p (.stale k)) st
  { st1 with eraseQ := st1.eraseQ ++ ascending ps }

/-! ### Reading a page (R43, R44) -/

/-- Strictly ascending badge order, within bounds. -/
def orderedWithin (low high : Badge) : List Record → Bool
  | [] => true
  | r :: rest => low ≤ r.badge && r.badge ≤ high && orderedWithin (r.badge + 1) high rest

/-- R44: the records of the page an entry names, when they pass the read check. -/
def Store.readPage (st : Store) (e : IndexEntry) : Option (List Record) :=
  match (st.page e.page).contents with
  | .erased => none
  | .programmed p =>
    if p.complete && p.low == e.low && p.high == e.high && p.count == e.count && p.commit == e.commit
        && p.count == p.records.length && orderedWithin e.low e.high p.records
    then some p.records else none

/-- R43: the entry whose range holds a badge. -/
def Directory.entryFor (d : Directory) (b : Badge) : Option IndexEntry :=
  d.index.find? fun e => e.low ≤ b && b ≤ e.high

def recordOf (b : Badge) (rs : List Record) : Option Record := rs.find? fun r => r.badge == b

/-- A page is read for a block: its records, or a failed check, which raises STORE_FAULT (R44). -/
def State.readFor (s : State) (e : IndexEntry) : State × Option (List Record) :=
  match s.store.readPage e with
  | some rs => (s, some rs)
  | none => (s.raiseFault .storeFault e.page.val, none)

/-- R46: the trip marks on the page. -/
def Record.marks (r : Record) : Nat :=
  if r.budget.isSome then (List.range 32).countP fun i => r.slots.getLsbD i else 0

/-- The mark requests queued for a badge (R47). -/
def Store.queuedMarks (st : Store) (b : Badge) : Nat :=
  st.prio.countP fun x => x == .mark b

/-- R47: the marks a lookup reports. -/
def reportedMarks (r : Record) (queued : Nat) : Nat :=
  match r.budget with
  | some n => min n (r.marks + queued)
  | none => 0

/-- R43: a lookup as its READ is served. Where no entry holds the badge the result is STORE_FAULT
(log 37). -/
def State.lookup (s : State) (b : Badge) : State × LookupResult :=
  if s.dir.condition = .unusable then (s, .storeFault)
  else match s.dir.entryFor b with
    | none => (s, .storeFault)
    | some e =>
      match s.readFor e with
      | (s1, none) => (s1, .storeFault)
      | (s1, some rs) =>
        match recordOf b rs with
        | some r => (s1, .found r (reportedMarks r (s.store.queuedMarks b)) (s.store.queuedMarks b) e.commit)
        | none => (s1, .absent e.commit)

/-! ### Trip marks (R48, R49) -/

/-- A record with its next slot marked, its marks never above its budget (R46). -/
def Record.mark (r : Record) : Record :=
  match r.budget with
  | some n => if r.marks < n then { r with slots := r.slots ||| (1#32 <<< r.marks) } else r
  | none => r

/-- The next slot of badge `b` marked in what a page holds. -/
def PageContents.mark (b : Badge) : PageContents → PageContents
  | .erased => .erased
  | .programmed p =>
    .programmed { p with records := p.records.map fun r => if r.badge == b then r.mark else r }

def Store.markPage (st : Store) (b : Badge) (p : Page) : Store :=
  let d := st.page p
  st.setPage p { d with contents := d.contents.mark b }

/-- R49: the new copies already programmed that hold the record of `b` carried unchanged. -/
def Store.markedCopies (st : Store) (b : Badge) : List Page :=
  match st.work with
  | none => []
  | some w => w.copies.filterMap fun c =>
    if c.records.any fun r => r.badge == b && r.fresh.isNone then c.page else none

/-- A mark request as it would be served (R48): the page of the record and its copies, or none where
it is not taken. A failed read check raises STORE_FAULT. -/
def State.markTargets (s : State) (b : Badge) : State × Option (List Page) :=
  if s.dir.condition = .unusable then (s, none)
  else match s.dir.entryFor b with
    | none => (s, none)
    | some e =>
      match s.readFor e with
      | (s1, none) => (s1, none)
      | (s1, some rs) =>
        match recordOf b rs with
        | none => (s1, none)
        | some r =>
          match r.budget with
          | none => (s1, none)
          | some n => if r.marks < n then (s1, some (e.page :: s.store.markedCopies b)) else (s1, none)

/-- R48: a mark request is served. -/
def State.serveMark (s : State) (b : Badge) : State :=
  match s.markTargets b with
  | (s1, none) => s1.mapDir fun d => { d with marksNotTaken := hold16 (d.marksNotTaken + 1) }
  | (s1, some ps) =>
    (s1.mapStore fun st => ps.foldl (fun st p => st.markPage b p) st).mapDir fun d =>
      { d with marksTaken := hold16 (d.marksTaken + 1) }

/-! ### The arbiter (R60, R61) -/

/-- Whether the array can serve the priority queue: it does nothing, or holds a suspended erase. -/
def Store.arrayFree (st : Store) : Bool :=
  match st.op with
  | none => true
  | some op => op.suspended

def OpKind.isErase : OpKind → Bool
  | .eraseDir _ => true
  | .eraseLog _ => true
  | .saveErase _ => true
  | _ => false

/-- R60, R61: a READ or trip mark request arrives: it joins the priority queue, and suspends a running
erase that has been suspended fewer than 16 times. One placed in the event that serves the last entry of
the queue finds the erase still suspended and is served in that suspension (DESIGN CHOICE, log 49). -/
def State.placePrio (s : State) (e : PrioEntry) : State :=
  s.mapStore fun st =>
    let st1 := { st with prio := st.prio ++ [e] }
    match st.op with
    | some op =>
      if op.kind.isErase && !op.suspended && op.suspensions < 16 then
        { st1 with
          op := some { op with suspensions := op.suspensions + 1, suspended := true }
          capped := if op.suspensions + 1 = 16 then hold16 (st.capped + 1) else st.capped }
      else st1
    | none => st1

def ArrayOp.begin_ (k : OpKind) : ArrayOp := { kind := k, suspensions := 0, suspended := false }

/-- R63: an ERASE of the head of the erase queue begins. The complete mark goes first (R56), and an ERASE
that fails does not bring it back (DESIGN CHOICE, log 47). -/
def Store.beginErase (st : Store) : Store :=
  match st.eraseQ with
  | [] => st
  | p :: rest =>
    let d := st.page p
    let k := match st.stateOf p with
      | .stale k => k
      | _ => .superseded
    let contents := match d.contents with
      | .programmed i => .programmed { i with complete := false }
      | .erased => .erased
    { ((st.setPage p { d with contents := contents }).setState p (.erasing k)) with
      eraseQ := rest, op := some (ArrayOp.begin_ (.eraseDir p)) }

/-- R89: the records of a copy as its PROGRAM begins: those of edits, and the others from the old pages
as they then stand, with their slots. -/
def State.copyRecords (s : State) (c : Copy) : List Record :=
  c.records.filterMap fun pr =>
    match pr.fresh with
    | some r => some r
    | none => (s.dir.entryFor pr.badge).bind fun e =>
        match (s.store.page e.page).contents with
        | .programmed i => recordOf pr.badge i.records
        | .erased => none

/-- R58, R89: the PROGRAM of copy `i` begins on page `p`. Its complete mark is its last act (R56). -/
def State.beginProgram (s : State) (i : Nat) (p : Page) : State :=
  match s.store.work with
  | none => s
  | some w =>
    match w.copies[i]? with
    | none => s
    | some c =>
      let rs := s.copyRecords c
      s.mapStore fun st =>
        { ((st.setPage p
              { contents := .programmed
                  { low := c.low, high := c.high, count := rs.length, commit := w.number
                    complete := false, records := rs }
                retired := false }).setState p .writing) with
          op := some (ArrayOp.begin_ (.program i p)) }

/-- R60, R61: the array takes the next operation, when it may. A lookup, a mark and the first entry of a
settings save wait for their own commands. No operation begins before admission opens (R71; log 17). -/
def State.arbitrate (s : State) : State :=
  if s.site.phase ≠ .open_ then s
  else match s.store.op with
    | some op =>
      if op.suspended && s.store.prio.isEmpty then
        s.mapStore fun st => { st with op := some { op with suspended := false } }
      else s
    | none =>
      if !s.store.prio.isEmpty then s
      else match s.store.workQ with
        | [] => s.mapStore Store.beginErase
        | .program i :: _ =>
          match s.store.lowestFree with
          | some p => s.beginProgram i p
          | none => s.mapStore Store.beginErase
        | .logErase p :: _ => s.mapStore fun st => { st with op := some (ArrayOp.begin_ (.eraseLog p)) }
        | .logMark :: _ => s.mapStore fun st => { st with op := some (ArrayOp.begin_ .logMark) }
        | .save 0 :: _ => s
        | .save (k + 1) :: _ =>
          s.mapStore fun st =>
            { st with
              op := some (ArrayOp.begin_
                (if k + 1 < 64 then .saveErase (k + 1)
                 else if k + 1 < 64 + imagePageCount then .saveProgram (k + 1 - 64)
                 else .saveMark)) }

/-- The operation of the array has ended. -/
def State.endOp (s : State) : State := s.mapStore fun st => { st with op := none }

/-- The work entry whose operation has ended is removed (R60). -/
def State.dropWork (s : State) : State := s.mapStore fun st => { st with workQ := st.workQ.tail }

/-- The operation that runs, none while it is suspended. -/
def Store.running (st : Store) : Option OpKind :=
  match st.op with
  | some op => if op.suspended then none else some op.kind
  | none => none

/-! ### The Commit Log (R64, R66) -/

/-- The numbers in the log. -/
def Store.logNumbers (st : Store) : List Nat := st.log.toList.flatMap fun p => p.toList.filterMap id

/-- The last complete commit: the highest number in the log, 0 when it holds none (R71). -/
def Store.lastLogged (st : Store) : Nat := st.logNumbers.foldl max 0

def Store.logPageErased (st : Store) (p : Fin 8) : Bool := st.log[p].toList.all Option.isNone

/-- The page that holds the highest number, when the log holds one. -/
def Store.highestLogPage (st : Store) : Option (Fin 8) :=
  if st.logNumbers.isEmpty then none
  else (finList 8).find? fun p => st.log[p].toList.contains (some st.lastLogged)

def nextLogPage (p : Fin 8) : Fin 8 := p + 1

/-- R66: the Commit Log MARK is queued, its page's erase ahead of it where R64 requires one, unless an
abandoned page still stands. -/
def State.queueLogMark (s : State) : State :=
  match s.store.work with
  | some w =>
    if w.phase = .logging ∧ !s.store.workQ.contains .logMark
        ∧ s.store.countPages PageState.isAbandoned = 0 then
      s.mapStore fun st =>
        { st with workQ := st.workQ ++
            (if st.logSlot = 0 ∧ !st.logPageErased st.logPage then [.logErase st.logPage, .logMark]
             else [.logMark]) }
    else s
  | none => s

/-! ### The running work (R62, R66, R75, R88, R91) -/

def State.mapWork (s : State) (f : Work → Work) : State :=
  s.mapStore fun st => { st with work := st.work.map f }

def Work.unprogrammed (w : Work) : Nat := w.copies.countP fun c => c.page.isNone

def Work.heldPages (w : Work) : List Page := w.copies.filterMap Copy.page

/-- A work entry of the running work, which COMMIT_FAIL removes. -/
def WorkEntry.ofWork : WorkEntry → Bool
  | .save _ => false
  | _ => true

/-- R62, R76, R91: the running work ends with COMMIT_FAIL. -/
def State.failWork (s : State) (cause : FailCause) : State :=
  match s.store.work with
  | none => s
  | some w =>
    let s1 := s.mapStore fun st =>
      { (st.toStale w.heldPages .abandoned) with
        workQ := st.workQ.filter fun x => !x.ofWork
        work := none }
    let s2 := s1.raiseFault .commitFail (w.number % 65536)
    match w.kind with
    | .compact => s2.raiseNotice .compactFailed
    | .commit =>
      (s2.raiseNotice (.commitFailed w.number s.batch.edits.length w.heldPages.length cause)).mapBatch
        fun _ => Batch.startUp

/-- R62, R88: the work ends where the pages that can still be had are fewer than its copies left to
program, in PROGRAMMING too where a failed ERASE leaves too few (R62 against R63's words; DEDUCED, log 62). -/
def State.checkLack (s : State) : State :=
  match s.store.work with
  | some w =>
    if w.phase ≠ .reading ∧ s.store.obtainable < w.unprogrammed then s.failWork .noPages else s
  | none => s

/-- R88: the PROGRAM entries of a work that waits are queued when enough pages are FREE. -/
def State.checkWait (s : State) : State :=
  match s.store.work with
  | some w =>
    if w.phase = .commitWait ∧ w.copies.length ≤ s.store.freePages then
      (s.mapStore fun st =>
        { st with workQ := st.workQ ++ (List.range w.copies.length).map WorkEntry.program }).mapWork
          fun w => { w with phase := .programming }
    else s
  | none => s

/-- R66: a work all of whose copies are programmed enters LOGGING; one with no copy to program does so
at once (log 21). -/
def State.checkProgrammed (s : State) : State :=
  match s.store.work with
  | some w =>
    if w.phase = .programming ∧ w.unprogrammed = 0 then
      (s.mapWork fun w => { w with phase := .logging }).queueLogMark
    else s
  | none => s

/-- The copies of the work are fixed: it waits for pages, programs, or logs (R75, R88). -/
def State.startCopies (s : State) : State :=
  (((s.mapWork fun w => { w with phase := .commitWait }).checkLack).checkWait).checkProgrammed

/-- R65: a work is given its number and becomes the running work. -/
def State.takeNumber (s : State) (w : Work) : State :=
  s.mapStore fun st => { st with counter := st.counter + 1, work := some { w with number := st.counter } }

/-- R65: the counter has given its last number. -/
def Store.counterSpent (st : Store) : Bool := 4294967295 < st.counter

/-! ### Ends of operations -/

/-- A page is retired (R58). -/
def Store.retire (st : Store) (p : Page) : Store :=
  let d := st.page p
  (st.setPage p { d with retired := true }).setState p .retired

/-- R58: the PROGRAM of copy `i` on page `p` has completed. -/
def State.programDone (s : State) (i : Nat) (p : Page) : State :=
  let d := s.store.page p
  let contents := match d.contents with
    | .programmed x => .programmed { x with complete := true }
    | .erased => .erased
  let s1 := ((s.mapStore fun st =>
      (st.setPage p { d with contents := contents }).setState p (.stale .held)).endOp).dropWork
  (s1.mapWork fun w => { w with copies := w.copies.modify i fun c => { c with page := some p } }).checkProgrammed

/-- R62: the PROGRAM of copy `i` on page `p` has failed. The entry stays at the head for the second
attempt. The page is retired without the complete mark, which is never marked (DESIGN CHOICE, log 56). A
second failure of the copy ends the work with PROGRAM_FAIL whether or not the pages have also run out
(DESIGN CHOICE, log 57). -/
def State.programFailed (s : State) (i : Nat) (p : Page) : State :=
  let before := s.store.spareSum
  let s1 := (((s.mapStore fun st => st.retire p).endOp).raiseFault .storeProgramFail p.val).checkSpare before
  let s2 := s1.mapWork fun w =>
    { w with copies := w.copies.modify i fun c => { c with failures := c.failures + 1 } }
  match s2.store.work with
  | some w =>
    if 2 ≤ ((w.copies[i]?).map Copy.failures).getD 0 then s2.failWork .programFail else s2.checkLack
  | none => s2

/-- R63: the ERASE of directory page `p` has completed. -/
def State.eraseDone (s : State) (p : Page) : State :=
  let s1 := (s.mapStore fun st =>
      (st.setPage p { contents := .erased, retired := false }).setState p .free).endOp
  s1.checkWait.queueLogMark

/-- R63: the ERASE of directory page `p` has failed. The page is retired with the contents it holds, its
complete mark gone since the ERASE began (R56; DESIGN CHOICE, log 47). -/
def State.eraseFailed (s : State) (p : Page) : State :=
  let before := s.store.spareSum
  let s1 := (((s.mapStore fun st => st.retire p).endOp).raiseFault .storeEraseFail p.val).checkSpare before
  s1.checkLack.queueLogMark

/-- R64: the ERASE of log page `p` has completed. -/
def State.logEraseDone (s : State) (p : Fin 8) : State :=
  ((s.mapStore fun st => { st with log := st.log.set p.val (Vector.replicate 64 none) p.isLt }).endOp).dropWork

/-- What a log page reads after an ERASE that failed or was cut short (R64; logs 27 and 28). -/
def cutLogPage (free : Nat) (page : Vector (Option Nat) 64) : Vector (Option Nat) 64 :=
  vmake fun i => if Config.logSlotKept free i then page.toList.getD i none else none

/-- R64: the log position moves to the first slot of `next`; its erase goes ahead of the MARK. -/
def State.moveLog (s : State) (next : Fin 8) : State :=
  s.mapStore fun st =>
    { st with
      logPage := next, logSlot := 0
      workQ := if st.logPageErased next then st.workQ else .logErase next :: st.workQ }

/-- R64: the ERASE of log page `p` has failed: the position moves to the next page, which is erased in
its turn; at the page of the highest number the work ends instead. -/
def State.logEraseFailed (s : State) (p : Fin 8) : State :=
  let next := nextLogPage p
  let s1 := ((((s.mapStore fun st =>
      { st with log := st.log.set p.val (cutLogPage s.free st.log[p]) p.isLt }).endOp).dropWork).raiseFault
        .storeEraseFail (1024 + p.val))
  let s2 := { s1 with free := s1.free + 1 }
  match s2.store.highestLogPage with
  | some top =>
    if next = top then
      (s2.mapStore fun st => { st with logPage := nextLogPage top, logSlot := 0 }).failWork .logFail
    else s2.moveLog next
  | none => s2.moveLog next

/-- The Commit Log MARK has put the work's number in the next slot, and the position moves on (R64). -/
def Store.logNumber (st : Store) (n : Nat) : Store :=
  let page := st.log[st.logPage].set st.logSlot.val (some n) st.logSlot.isLt
  { st with
    log := st.log.set st.logPage.val page st.logPage.isLt
    logPage := if st.logSlot.val = 63 then nextLogPage st.logPage else st.logPage
    logSlot := st.logSlot + 1 }

/-- An entry put in the order of low bounds. -/
def insertEntry (e : IndexEntry) : List IndexEntry → List IndexEntry
  | [] => [e]
  | a :: rest => if e.low < a.low then e :: a :: rest else a :: insertEntry e rest

/-- The index entry of a programmed copy, its header as the page holds it. -/
def Store.entryOf (st : Store) (p : Page) : Option IndexEntry :=
  match (st.page p).contents with
  | .programmed i => some { low := i.low, high := i.high, page := p, count := i.count, commit := i.commit }
  | .erased => none

/-- R45: the index with the pages `old` removed and the pages `new` inserted. -/
def switchIndex (st : Store) (index : List IndexEntry) (old new_ : List Page) : List IndexEntry :=
  (new_.filterMap st.entryOf).foldl (fun ix e => insertEntry e ix)
    (index.filter fun e => !old.contains e.page)

/-- R45, R66: the switch of the Page Index and of the page states at the commit-complete event. -/
def State.switchPages (s : State) (w : Work) : State :=
  let index := switchIndex s.store s.dir.index w.released w.heldPages
  let s1 := s.mapStore fun st =>
    let st1 := w.heldPages.foldl (fun st p => st.setState p .data) st
    { (st1.toStale w.released .superseded) with work := none }
  s1.mapDir fun d =>
    { d with index := index, recordCount := (index.map IndexEntry.count).sum, cursor := none }

/-! ### The settings save (R68, R69) -/

def State.mapSave (s : State) (f : Save → Save) : State :=
  s.mapStore fun st => { st with save := f st.save }

/-- R68, R69: the first erase of a queued save begins and the image is fixed. -/
def State.beginSave (s : State) : State :=
  s.mapStore fun st =>
    { st with
      op := some (ArrayOp.begin_ (.saveErase 0))
      area := { st.area with complete := false }
      save := { st.save with
        state := .running, image := some s.settings
        pending := if st.save.retry then false else st.save.pending } }

/-- R68: the complete mark has been marked. -/
def State.saveDone (s : State) : State :=
  let s1 := ((s.mapStore fun st =>
      { st with area := { complete := true, checkMatches := true, image := st.save.image.getD st.area.image }
                save := { st.save with state := .idle, last := .ok, retry := false, image := none } }).endOp).dropWork
  if s1.store.save.pending then (s1.mapSave fun v => { v with pending := false }).queueSave else s1

/-- R69: an ERASE (`erase`) or PROGRAM on area page `p` of the running save has failed. -/
def State.saveFailed (s : State) (erase : Bool) (p : Nat) : State :=
  let s1 := ((s.endOp).dropWork).raiseFault (if erase then .storeEraseFail else .storeProgramFail) (2048 + p)
  if s1.store.save.retry then
    s1.mapSave fun v =>
      { v with state := .idle, pending := false, last := .failed, retry := false, image := none }
  else
    s1.mapStore fun st =>
      { st with workQ := st.workQ ++ [.save 0]
                save := { st.save with state := .queued, retry := true, image := none } }

end Sys2Proof.Machine
end

