-- ==== Sys2Proof/Machine/GroupLinks.lean ====
section
/-! DEFINITION. The Group Link Managers (08) and the recall state (09): availability, the effects of
leaving service, placing and settling orders, the Car Table and the Car Enable Table, the Transfer
Table's journeys. -/

namespace Sys2Proof.Machine

/-! ### Orders -/

def OrderState.isSent : OrderState → Bool
  | .sent => true
  | .cancelling _ => false

/-- The landing a refused order's answer carries: the destination of a CALL (R135, R137, R140). -/
def Order.dest (o : Order) : Option Landing :=
  match o.kind with
  | .call _ final _ _ _ _ => some final
  | .enable _ _ _ => none

/-- An ENABLE for a car. -/
def Order.enablesCar (o : Order) (car : Car) : Bool :=
  match o.kind with
  | .enable c _ _ => c == car
  | .call _ _ _ _ _ _ => false

def GroupMgr.find (m : GroupMgr) (tag : Byte) : Option Order := m.orders.find? fun o => o.tag == tag

def State.removeOrder (s : State) (g : Group) (tag : Byte) : State :=
  s.mapGroup g fun m => { m with orders := m.orders.filter fun o => o.tag != tag }

/-- An answer without a car letter or a transfer landing. -/
def Answer.refusal (code : AnswerCode) (dest : Option Landing) : Answer :=
  { code := code, car := none, dest := dest, transfer := none }

/-- R136: the tag an order is given: the next after the counter that no order holds. -/
def GroupMgr.nextTag (m : GroupMgr) : Byte :=
  (((List.range 256).map fun k => m.tagCounter + 1 + BitVec.ofNat 8 k).find? fun t =>
    !(m.orders.any fun o => o.tag == t)).getD (m.tagCounter + 1)

/-- R145: the union of the proposed sets of the SENT ENABLE orders for a car. -/
def GroupMgr.proposedFor (m : GroupMgr) (car : Car) : LandingSet :=
  m.orders.foldl (fun u o =>
    match o.kind, o.state with
    | .enable c set _, .sent => if c = car then u ||| set else u
    | _, _ => u) 0

/-- R145: an order's kind as it is placed, its addition replaced by the proposed set. -/
def GroupMgr.fixKind (m : GroupMgr) (k : OrderKind) : OrderKind :=
  match k with
  | .enable car addition hold =>
    .enable car (m.enables[car].confirmed ||| m.proposedFor car ||| addition) hold
  | k => k

/-- R136: the frame of an order. -/
def OrderKind.message (k : OrderKind) (tag : Byte) : GroupMsg :=
  match k with
  | .call legs final accessible priority _ _ => .call tag legs final accessible priority
  | .enable car set hold => .enable tag car hold set

/-- R136: a new order is placed and sent. The tag given is `(s.group g).nextTag`. -/
def State.placeOrder (s : State) (g : Group) (k : OrderKind) (c : Chan) (badge reservation : Option Badge) :
    State :=
  let m := s.group g
  let tag := m.nextTag
  let kind := m.fixKind k
  (s.mapGroup g fun m =>
    { m with
      tagCounter := tag
      orders := m.orders ++ [{ tag, kind, channel := c, badge, reservation, state := .sent, sentAt := s.now }] }
    ).sendGroup g (kind.message tag)

/-- A SENT order becomes CANCELLING, its CANCEL is sent and its answer delivered (R137, R146, R147). -/
def State.cancelOrder (s : State) (g : Group) (o : Order) (code : AnswerCode) : State :=
  ((s.mapGroup g fun m =>
    { m with orders := m.orders.map fun x =>
        if x.tag = o.tag then { x with state := .cancelling (s.cal.uptime + 5) } else x }).sendGroup g
      (.cancel o.tag)).deliver o.channel (Answer.refusal code o.dest)

/-! ### The Car Enable Table -/

def State.clearEnable (s : State) (g : Group) (car : Car) : State :=
  s.mapGroup g fun m => { m with enables := m.enables.set car.val CarEnable.empty car.isLt }

/-- A car whose confirmed set is not empty is withdrawn (R145, R146, R147). -/
def State.withdraw (s : State) (g : Group) (car : Car) : State :=
  if (s.group g).enables[car].confirmed = 0 then s
  else (s.sendGroup g (.withdraw car)).clearEnable g car

/-- The SENT ENABLE orders for a car, in tag order (R146). -/
def GroupMgr.enablesSent (m : GroupMgr) (car : Car) : List Order :=
  (List.range 256).flatMap fun t => m.orders.filter fun o =>
    o.tag.toNat == t && o.enablesCar car && o.state.isSent

/-- R146, R147: a departure, or a car leaving service, ends the car's enables. -/
def State.endEnables (s : State) (g : Group) (car : Car) (code : AnswerCode) : State :=
  let s1 := (s.withdraw g car).clearEnable g car
  ((s1.group g).enablesSent car).foldl (fun s o => s.cancelOrder g o code) s1

/-! ### Availability (R134, R135) -/

/-- The table of R134. -/
def availabilityOf (recallState : RecallState) (link : LinkCond) (accepting : Bool) : Avail :=
  match recallState with
  | .inRecall => .inRecall
  | .held => .inRecall
  | .clear =>
    match link with
    | .waiting => .offline
    | .silent => .offline
    | .live => if accepting then .inService else .notAccepting

def State.availability (s : State) (g : Group) : Avail :=
  availabilityOf (s.recallOf g).state (s.group g).link (s.group g).accepting

/-- The cars whose confirmed set is not empty, A..H. -/
def GroupMgr.opened (m : GroupMgr) : List Car :=
  (finList 8).filter fun car => m.enables[car].confirmed != 0

/-- R135, step 2: the WITHDRAW messages. -/
def GroupMgr.withdrawals (m : GroupMgr) (after : Avail) : List Car :=
  match after with
  | .offline => []
  | _ => m.opened

/-- R135, steps 1 to 3: the availability leaves IN_SERVICE for `after`. -/
def State.leaveService (s : State) (g : Group) (after : Avail) : State :=
  let m := s.group g
  let s1 := s.mapGroup g fun m => { m with orders := [] }
  let s2 := (m.orders.filter fun o => o.state.isSent).foldl
    (fun s o => s.deliver o.channel (Answer.refusal .outOfService o.dest)) s1
  let s3 := (m.withdrawals after).foldl (fun s car => s.sendGroup g (.withdraw car)) s2
  s3.mapGroup g fun m => { m with enables := Vector.replicate 8 CarEnable.empty }

/-- R134: the availability is reworked after an event of the cause given. `always` is set where the
event raises a GROUP notice of its own though the availability stays (R134, R152). -/
def State.regroup (s : State) (g : Group) (cause : GroupCause) (always : Bool)
    (change : Option RecallChange) : State :=
  let m := s.group g
  let after := s.availability g
  if m.avail = after ∧ !always then s
  else
    let leaving : Bool := m.avail == .inService && after != .inService
    let s1 := if leaving then s.leaveService g after else s
    (s1.mapGroup g fun m => { m with avail := after }).raiseNotice
      (.availability
        { group := g, before := m.avail, after := after, link := m.link, accepting := m.accepting
          cause := cause
          removed := if leaving then m.orders.length else 0
          withdrawn := if leaving then (m.withdrawals after).length else 0
          recallChange := change })

/-! ### Recall states (R150 to R154) -/

/-- Whether a level makes a line active under a polarity (R149). -/
def Polarity.active (p : Polarity) (l : Level) : Bool :=
  match p, l with
  | .activeHigh, .high => true
  | .activeLow, .low => true
  | _, _ => false

/-- Whether a group's line is active: false while its stable level is not yet known. -/
def RecallIn.active (r : RecallIn) : Bool :=
  match r.line.stable with
  | some l => r.cfg.polarity.active l
  | none => false

/-- R152: a group's recall state becomes `after`; a change is handed to its manager. -/
def State.setRecall (s : State) (g : Group) (after : RecallState) : State :=
  let r := s.recallOf g
  if r.state = after then s
  else (s.mapRecall g fun r => { r with state := after }).regroup g .recallChange true
    (some { before := r.state, after := after, active := r.active })

/-- R154: what the first fixing makes of the state. -/
def RecallIn.fixedState (r : RecallIn) : RecallState :=
  if r.active then .inRecall
  else match r.cfg.mode with
    | .level => .clear
    | .latched => .held

/-- R154: the recall state is first fixed, once admission is open and the stable level is known. -/
def State.fixRecall (s : State) (g : Group) : State :=
  let r := s.recallOf g
  if s.site.phase = .open_ ∧ r.line.stable.isSome ∧ !r.fixed then
    (s.mapRecall g fun r => { r with fixed := true }).setRecall g r.fixedState
  else s

/-- R151: the state after a line event. -/
def recallAfter (active : Bool) (mode : RecallMode) (x : RecallState) : RecallState :=
  if active then
    match x with
    | .clear => .inRecall
    | .held => if mode = .latched then .inRecall else .held
    | .inRecall => .inRecall
  else
    match x with
    | .inRecall => if mode = .latched then .held else .clear
    | y => y

/-- R150: the state a GROUP SET re-derives. -/
def rederived (active : Bool) (mode : RecallMode) (x : RecallState) : RecallState :=
  if active then .inRecall
  else match x with
    | .clear => .clear
    | _ => if mode = .latched then .held else .clear

/-! ### Link condition (R133) -/

/-- R133: a link becomes SILENT. -/
def State.linkGoesSilent (s : State) (g : Group) : State :=
  let s1 := (s.mapGroup g fun m =>
    { m with link := .silent, cars := Vector.replicate 8 CarRow.unknown }).regroup g .linkSilent true none
  if (s.zoneGroup g).present then s1.raiseFault .groupOffline g.val else s1

/-- R133, at a second event. -/
def State.checkLink (s : State) (g : Group) : State :=
  let m := s.group g
  if m.link ≠ .silent ∧ m.silenceDeadline ≤ s.cal.uptime then s.linkGoesSilent g else s

/-- R133: a replacement of the map raises GROUP_OFFLINE for each group it makes present whose link is
SILENT. `before` is the map replaced. -/
def State.mapReplaced (s : State) (before : ZoneMap) : State :=
  (finList 6).foldl (fun s g =>
    if !(before.group g).present && (s.zoneGroup g).present && (s.group g).link == .silent then
      s.raiseFault .groupOffline g.val else s) s

/-! ### Deadlines of orders and cars (R137, R145) -/

/-- R137: the reply deadline of a SENT order, at a second event. -/
def State.replyPassed (s : State) (g : Group) (o : Order) : State := s.cancelOrder g o .noCar

/-- R137: whether the reply deadline of an order has passed. -/
def Order.replyDue (o : Order) (now : Nat) : Bool := o.state.isSent && o.sentAt + 1500 ≤ now

/-- R137: whether the cancel deadline of an order has been reached. -/
def Order.cancelDue (o : Order) (uptime : Nat) : Bool :=
  match o.state with
  | .cancelling d => d ≤ uptime
  | .sent => false

/-- R145: whether the hold of a car has run out. -/
def CarEnable.due (e : CarEnable) (uptime : Nat) : Bool :=
  e.confirmed != 0 && match e.expiry with
    | some d => d ≤ uptime
    | none => false

def State.checkReply (s : State) (g : Group) (tag : Byte) : State :=
  match (s.group g).find tag with
  | some o => if o.replyDue s.now then s.replyPassed g o else s
  | none => s

def State.checkCancel (s : State) (g : Group) (tag : Byte) : State :=
  match (s.group g).find tag with
  | some o => if o.cancelDue s.cal.uptime then s.removeOrder g tag else s
  | none => s

def State.checkHold (s : State) (g : Group) (car : Car) : State :=
  if (s.group g).enables[car].due s.cal.uptime then s.withdraw g car else s

/-! ### The Transfer Table (R127 to R129) -/

def TransferTable.find (t : TransferTable) (b : Badge) : Option TransferEntry :=
  t.entries.find? fun e => e.badge == b

def TransferTable.remove (t : TransferTable) (b : Badge) : TransferTable :=
  { t with entries := t.entries.filter fun e => e.badge != b }

/-- R128: the entry that makes room: the earliest expiry, the lower badge among equals. -/
def evictionOf : List TransferEntry → Option TransferEntry
  | [] => none
  | e :: rest =>
    match evictionOf rest with
    | none => some e
    | some x => if e.expiry < x.expiry ∨ (e.expiry = x.expiry ∧ e.badge < x.badge) then some e else some x

/-- R128: an entry is placed. -/
def TransferTable.place (t : TransferTable) (e : TransferEntry) : TransferTable :=
  if (t.find e.badge).isSome then
    { t with entries := t.entries.map fun x => if x.badge = e.badge then e else x }
  else if t.entries.length < 128 then { t with entries := t.entries ++ [e] }
  else match evictionOf t.entries with
    | some x =>
      let t1 := t.remove x.badge
      { entries := t1.entries ++ [e], evictions := hold16 (t.evictions + 1) }
    | none => { t with entries := t.entries ++ [e] }

/-- R128: a CALL has been answered with a car. -/
def State.journey (s : State) (badge : Option Badge) (path : Path) (legs : List Leg) (final : Landing) :
    State :=
  match badge with
  | none => s
  | some b =>
    match routeTransfer legs with
    | some t =>
      let e : TransferEntry :=
        { badge := b, landing := t, final := final, legs := legs.length - 1, setAt := s.cal.uptime
          expiry := s.cal.uptime + s.timing.validity }
      { s with transfer := s.transfer.place e }
    | none =>
      match path with
      | .transfer => { s with transfer := s.transfer.remove b }
      | .normal => s

/-- R129: the expired entries leave the table. -/
def TransferTable.expire (t : TransferTable) (uptime : Nat) : TransferTable :=
  { t with entries := t.entries.filter fun e => uptime < e.expiry }

/-! ### Replies (R138 to R141) -/

/-- R141: a reply that names no order it can answer. -/
def State.unmatched (s : State) (g : Group) (tag : Byte) : State :=
  if (s.group g).avail = .inService then
    s.raiseFault .groupProtocol (protocolDetail g tag.toNat) else s

/-- R47, R143: the mark request of a positive answer. -/
def State.requestMark (s : State) (reservation : Option Badge) : State :=
  match reservation with
  | some b => s.placePrio (.mark b)
  | none => s

/-- R138: an ASSIGN. -/
def State.takeAssign (s : State) (g : Group) (tag : Byte) (car : Byte) : State :=
  match (s.group g).find tag with
  | none => s.unmatched g tag
  | some o =>
    match o.kind with
    | .enable _ _ _ => s.unmatched g tag
    | .call legs final _ _ _ path =>
      if h : car.toNat < 8 then
        match o.state with
        | .cancelling _ => s
        | .sent =>
          (((s.removeOrder g tag).requestMark o.reservation).deliver o.channel
            { code := .go, car := some ⟨car.toNat, h⟩, dest := some final, transfer := routeTransfer legs }).journey
              o.badge path legs final
      else s.unmatched g tag

/-- R139: a proposed set is united into a car's confirmed set and its hold expiry is set afresh. -/
def State.unite (s : State) (g : Group) (car : Car) (set : LandingSet) (hold : Nat) : State :=
  s.mapGroup g fun m =>
    let row : CarEnable :=
      { confirmed := m.enables[car].confirmed ||| set, expiry := some (s.cal.uptime + hold) }
    { m with enables := m.enables.set car.val row car.isLt }

/-- R139: an ENABLED. -/
def State.takeEnabled (s : State) (g : Group) (tag : Byte) : State :=
  match (s.group g).find tag with
  | none => s.unmatched g tag
  | some o =>
    match o.kind with
    | .call _ _ _ _ _ _ => s.unmatched g tag
    | .enable car set hold =>
      match o.state with
      | .cancelling _ => s
      | .sent =>
        (((s.removeOrder g tag).unite g car set hold).requestMark o.reservation).deliver o.channel
          { code := .go, car := some car, dest := none, transfer := none }

/-- R140: a REFUSE or a CANCELLED. -/
def State.takeRefusal (s : State) (g : Group) (tag : Byte) : State :=
  match (s.group g).find tag with
  | none => s.unmatched g tag
  | some o =>
    match o.state with
    | .cancelling _ => s.removeOrder g tag
    | .sent => (s.removeOrder g tag).deliver o.channel (Answer.refusal .noCar o.dest)

/-! ### GROUP STATE and CAR STATE (R133, R144) -/

/-- R133: a GROUP STATE. -/
def State.takeGroupState (s : State) (g : Group) (accepting : Byte) : State :=
  if accepting.toNat ≤ 1 then
    let changed : Bool := (s.group g).link != .live
    (s.mapGroup g fun m =>
      { m with silenceDeadline := s.cal.uptime + 5, accepting := accepting == 1, link := .live }).regroup g
        (if changed then .linkLive else .acceptingChange) changed none
  else s.raiseFault .groupProtocol (protocolDetail g 0xFF)

/-- R144: the row a CAR STATE carries, none where a value is outside its range. -/
def carRowOf (landing motion door inService : Byte) : Option CarRow :=
  let motion? := if motion = 0 then some Motion.stopped else if motion = 1 then some Motion.up
    else if motion = 2 then some Motion.down else none
  let door? := if door = 0 then some Door.opened else if door = 1 then some Door.closed else none
  if 1 < inService.toNat ∨ motion?.isNone ∨ door?.isNone then none
  else if h : landing.toNat < 128 then
    some { landing := some ⟨landing.toNat, h⟩, motion := motion?, door := door?
           inService := some (inService == 1) }
  else if landing = 0xFF then
    some { landing := none, motion := motion?, door := door?, inService := some (inService == 1) }
  else none

/-- R144: a departure, by the row before and the row after. -/
def departs (old new_ : CarRow) : Bool :=
  old.motion == some .stopped && (new_.motion == some .up || new_.motion == some .down)

/-- R144: a car leaving service. -/
def leavesService (old new_ : CarRow) : Bool :=
  old.inService == some true && new_.inService == some false

/-- R144: a CAR STATE. -/
def State.takeCarState (s : State) (g : Group) (car landing motion door inService : Byte) : State :=
  if h : car.toNat < 8 then
    match carRowOf landing motion door inService with
    | none => s.raiseFault .groupProtocol (protocolDetail g 0xFF)
    | some row =>
      let old := (s.group g).cars[car.toNat]
      let s1 := if departs old row then s.endEnables g ⟨car.toNat, h⟩ .departed
        else if leavesService old row then s.endEnables g ⟨car.toNat, h⟩ .outOfService
        else s
      s1.mapGroup g fun m => { m with cars := m.cars.set car.toNat row h }
  else s.raiseFault .groupProtocol (protocolDetail g 0xFF)

end Sys2Proof.Machine
end

