-- ==== Sys2Proof/Machine/Profiles.lean ====
section
/-! DEFINITION. Access profiles and the clause test (02): layouts, checks, day types, what a profile
grants at a moment, and the bank switch. -/

namespace Sys2Proof.Machine

/-! ### Layout (10.4) -/

def Clause.bytes (c : Clause) : List Byte :=
  setBytes c.landings ++ [c.days] ++ u16 c.start ++ u16 c.stop

/-- The PROFILE WRITE layout without its profile byte. -/
def Profile.bytes (p : Profile) : List Byte :=
  bool8 p.serviceCar ++ u8 p.clauses.length ++ p.clauses.flatMap Clause.bytes

/-- Clause `k` of a PROFILE WRITE payload. -/
def clauseOf (p : List Byte) (k : Nat) : Clause :=
  let b := p.drop (3 + 21 * k)
  { landings := setOf (b.take 16), days := b.getD 16 0, start := field b 17 2, stop := field b 19 2 }

/-- The profile of a PROFILE WRITE payload. -/
def profileOf (p : List Byte) : Profile :=
  { serviceCar := byteAt p 1 == 1, clauses := (List.range (byteAt p 2)).map (clauseOf p) }

/-- R18, check 4: the index a PROFILE WRITE is refused RANGE with. -/
def profileFailure (p : List Byte) : Option Nat :=
  if 1 < byteAt p 1 then some 255
  else if 8 < byteAt p 2 then some 8
  else (List.range (byteAt p 2)).find? fun k =>
    1439 < (clauseOf p k).start || 1439 < (clauseOf p k).stop

/-- The day numbers of a HOLIDAY WRITE payload. -/
def holidaysOf (p : List Byte) : List Nat := (List.range (byteAt p 0)).map fun k => field p (1 + 2 * k) 2

/-- R26: the first entry not greater than the one before it, counting from `k`. -/
def firstUnsorted : Nat → List Nat → Option Nat
  | k, a :: b :: rest => if b ≤ a then some (k + 1) else firstUnsorted (k + 1) (b :: rest)
  | _, _ => none

/-- R26: the index a HOLIDAY WRITE is refused RANGE with. -/
def holidayFailure (p : List Byte) : Option Nat :=
  if 64 < byteAt p 0 then some 64 else firstUnsorted 0 (holidaysOf p)

/-! ### The clause test (R35, R36, R37) -/

/-- R35: today's type as its bit in a day-type set. -/
def todayType (holidays : List Nat) (n w : Nat) : Nat :=
  if holidays.contains n then 7 else w / 1440

/-- R35: yesterday's type. -/
def yesterdayType (holidays : List Nat) (n w : Nat) : Nat :=
  if 1 ≤ n ∧ holidays.contains (n - 1) then 7 else (w / 1440 + 6) % 7

/-- R36: the clause test at day number `n` and week-minute `w`. -/
def Clause.opens (c : Clause) (holidays : List Nat) (n w : Nat) : Bool :=
  let m := w % 1440
  let today := c.days.getLsbD (todayType holidays n w)
  let yesterday := c.days.getLsbD (yesterdayType holidays n w)
  if c.start < c.stop then today && c.start ≤ m && m < c.stop
  else (today && c.start ≤ m) || (yesterday && m < c.stop)

/-- R37: a full-week clause. -/
def Clause.fullWeek (c : Clause) : Bool := c.days == 0xFF#8 && c.start == c.stop

/-- R37: whether a clause grants its landings now. -/
def State.clauseHolds (s : State) (c : Clause) : Bool :=
  match s.cal.state with
  | .set => c.opens s.banks.holidays s.cal.day s.cal.weekMinute
  | .unset => c.fullWeek

/-- R37: the landings a profile of the active bank grants now. -/
def State.profileSet (s : State) (p : Fin 256) : LandingSet :=
  (s.banks.active[p].clauses.filter s.clauseHolds).foldl (fun u c => u ||| c.landings) 0

/-! ### The switch (R22, R23) -/

/-- R22: whether the arm is met by the minute boundary that has brought the week-minute now showing. -/
def State.armMet (s : State) : Bool :=
  match s.banks.arm with
  | .none => false
  | .nextMinute => true
  | .at w => w == s.cal.weekMinute

/-- R23: the switch. -/
def State.takeSwitch (s : State) : State :=
  let after := (s.banks.number + 1) % 65536
  let s1 := { s with banks := { s.banks with active := s.banks.shadow, arm := .none, number := after } }
  (s1.queueSave).raiseNotice
    (.switch s.banks.number after s.banks.arm s.cal.day s.cal.weekMinute)

end Sys2Proof.Machine
end

