-- ==== Sys2Proof/Machine/Admission.lean ====
section
/-! DEFINITION. The Admission Queue and the Admission Engine (07): the take, the seven stages as one
judgement on the state at the decision event, and the decision. -/

namespace Sys2Proof.Machine

/-! ### Standing and the permitted set (R117 to R119) -/

def CredStatus.standing : CredStatus → Standing
  | .active => .good
  | .suspended => .suspended
  | .lost => .lost

/-- R117: the standing on the transfer path. -/
def transferStanding (res : Option LookupResult) : Standing :=
  match res with
  | none => .none
  | some .storeFault => .storeFault
  | some (.absent _) => .unknown
  | some (.found r _ _ _) => r.status.standing

/-- R118: the standing on the normal path. -/
def State.standing (s : State) (res : Option LookupResult) : Standing :=
  match res with
  | some (.found r _ _ _) =>
    match r.status, r.expiry, s.cal.state with
    | .suspended, _, _ => .suspended
    | .lost, _, _ => .lost
    | .active, none, _ => .good
    | .active, some _, .unset => .clockUnset
    | .active, some day, .set => if day < s.cal.day then .expired else .good
  | x => transferStanding x

/-- The reason a standing gives a refusal (R120, R121); none for GOOD and NONE. -/
def Standing.reason : Standing → Option Reason
  | .none => Option.none
  | .good => Option.none
  | .unknown => some .unknown
  | .suspended => some .suspended
  | .lost => some .lost
  | .expired => some .expired
  | .clockUnset => some .clockUnset
  | .storeFault => some .storeFault

def LookupResult.record : LookupResult → Option Record
  | .found r _ _ _ => some r
  | _ => none

/-- The record a lookup found. -/
def recordFound (res : Option LookupResult) : Option Record := res.bind LookupResult.record

/-- R117, R119: whether a request may use service cars. -/
def State.mayUseServiceCars (s : State) (st : Standing) (res : Option LookupResult) : Bool :=
  match st, recordFound res with
  | .good, some r => s.banks.active[r.profile].serviceCar
  | _, _ => false

/-- R119: the permitted set. -/
def State.permitted (s : State) (st : Standing) (res : Option LookupResult) : LandingSet :=
  s.zone.publicSet ||| match st, recordFound res with
    | .good, some r => s.profileSet r.profile
    | _, _ => 0

/-! ### Trips (R123) -/

/-- R123: the SENT orders of all lists whose reservation names a badge. -/
def State.reserved (s : State) (b : Badge) : Nat :=
  (s.groups.toList.map fun m =>
    m.orders.countP fun o => o.state.isSent && o.reservation == some b).sum

/-- R123: whether the trip stage passes; it passes where it does not apply. -/
def State.tripsLeft (s : State) (b : Badge) (res : Option LookupResult) : Bool :=
  match res with
  | some (.found r marks _ _) =>
    match r.budget with
    | some n => marks + s.reserved b + 1 ≤ n
    | none => true
  | _ => true

/-- The reservation of an order: the badge, where the trip stage applied. -/
def reservationFor (counts : Bool) (b : Option Badge) (res : Option LookupResult) : Option Badge :=
  if counts ∧ ((recordFound res).bind Record.budget).isSome then b else none

/-! ### The judgement -/

/-- What a decision comes to: an answer, or an order for a group. -/
inductive Ruling
  | answer (code : AnswerCode) (dest : Option Landing)
  | order (g : Group) (k : OrderKind) (reservation : Option Badge)
deriving DecidableEq, Repr

/-- A decision: what R126 reports of it, its ruling, and whether it removes the transfer entry of its
badge (R117). -/
structure Judgement where
  path : Path
  standing : Standing
  dest : Option Landing
  ruling : Ruling
  dropEntry : Bool
deriving DecidableEq, Repr

/-- R124: the order of a granted request, or LINK_BUSY where the list is full. -/
def State.orderOr (s : State) (g : Group) (k : OrderKind) (reservation : Option Badge)
    (dest : Option Landing) : Ruling :=
  if 32 ≤ (s.group g).orders.length then .answer .linkBusy dest else .order g k reservation

/-- R117: the transfer path for the entry met. -/
def State.judgeTransfer (s : State) (r : Request) (origin : Landing) (e : TransferEntry)
    (res : Option LookupResult) : Judgement :=
  let st := transferStanding res
  let dest := some e.final
  let done (ruling : Ruling) (drop : Bool) : Judgement :=
    { path := .transfer, standing := st, dest, ruling, dropEntry := drop }
  let go : Judgement :=
    match s.route (s.mayUseServiceCars st res) origin e.final with
    | .sameLanding => done (.answer (.denied .sameLanding) dest) false
    | .noRoute => done (.answer (.denied .noRoute) dest) false
    | .outOfService => done (.answer .outOfService dest) false
    | .route [] => done (.answer (.denied .noRoute) dest) false
    | .route (l :: ls) =>
      let rec_ := recordFound res
      let k := OrderKind.call (l :: ls) e.final ((rec_.map Record.accessible).getD false)
        ((rec_.map Record.priority).getD false) r.badge .transfer
      done (s.orderOr l.group k none dest) false
  match st with
  | .suspended => done (.answer (.denied .suspended) dest) true
  | .lost => done (.answer (.denied .lost) dest) true
  | .unknown => done (.answer (.denied .unknown) dest) true
  | _ => go

/-- R120: the destination of a LOBBY request: keyed, or the home landing of the record. -/
def destinationOf (asked : Option Landing) (res : Option LookupResult) : Option Landing :=
  asked <|> (recordFound res).bind Record.home

/-- R120: the reason of a destination outside the permitted set. -/
def notPermittedReason (st : Standing) : Reason :=
  match st with
  | .none => .badgeRequired
  | st => st.reason.getD .notPermitted

/-- R120, R122 to R124: a LOBBY request on the normal path. -/
def State.judgeLobby (s : State) (r : Request) (asked : Option Landing) (origin : Landing)
    (res : Option LookupResult) : Judgement :=
  let st := s.standing res
  match destinationOf asked res with
  | none => { path := .normal, standing := st, dest := none, dropEntry := false
              ruling := .answer (.denied .noDestination) none }
  | some d =>
    let done (ruling : Ruling) : Judgement :=
      { path := .normal, standing := st, dest := some d, ruling, dropEntry := false }
    let deny (why : Reason) : Judgement := done (.answer (.denied why) (some d))
    if !LandingSet.has (s.permitted st res) d then deny (notPermittedReason st)
    else match s.route (s.mayUseServiceCars st res) origin d with
      | .sameLanding => deny .sameLanding
      | .noRoute => deny .noRoute
      | .outOfService => done (.answer .outOfService (some d))
      | .route [] => deny .noRoute
      | .route (l :: ls) =>
        let counts := s.zone.isSecure d
        if counts && !(s.tripsLeft (r.badge.getD 0) res) then deny .noTrips
        else
          let rec_ := recordFound res
          let k := OrderKind.call (l :: ls) d ((rec_.map Record.accessible).getD false)
            ((rec_.map Record.priority).getD false) none .normal
          done (s.orderOr l.group k (reservationFor counts r.badge res) (some d))

/-- R121: the addition of a CAR request. -/
def State.addition (s : State) (g : Group) (origin : Option Landing) (st : Standing)
    (res : Option LookupResult) : LandingSet :=
  if s.zone.open_ (s.mayUseServiceCars st res) g then
    let set := (LandingSet.less (s.permitted st res) s.zone.publicSet) &&& (s.zoneGroup g).served
    match origin with
    | some l => LandingSet.less set (LandingSet.one l)
    | none => set
  else 0

/-- R121 to R124: a CAR request. -/
def State.judgeCar (s : State) (r : Request) (g : Group) (car : Car) (origin : Option Landing)
    (res : Option LookupResult) : Judgement :=
  let st := s.standing res
  let done (ruling : Ruling) : Judgement :=
    { path := .normal, standing := st, dest := none, ruling, dropEntry := false }
  let deny (why : Reason) : Judgement := done (.answer (.denied why) none)
  let add := s.addition g origin st res
  if add = 0 then deny (st.reason.getD .notPermitted)
  else if (s.group g).avail ≠ .inService then done (.answer .outOfService none)
  else if !(s.tripsLeft (r.badge.getD 0) res) then deny .noTrips
  else done (s.orderOr g (.enable car add s.timing.carHold) (reservationFor true r.badge res) none)

/-- R116: an expired entry met by the decision is removed. -/
def State.dropExpired (s : State) (b : Badge) : State :=
  match s.transfer.find b with
  | some e => if e.expiry ≤ s.cal.uptime then { s with transfer := s.transfer.remove b } else s
  | none => s

/-- R116: whether a request matches an entry. -/
def TransferEntry.meets (e : TransferEntry) (asked : Option Landing) (origin : Landing) : Bool :=
  e.landing == origin && (asked == none || asked == some e.final)

/-- R115: the stages. An expired entry has already been removed (R116). -/
def State.judge (s : State) (r : Request) (res : Option LookupResult) : Judgement :=
  match r.ask with
  | .car g car origin => s.judgeCar r g car origin res
  | .lobby asked origin =>
    match r.badge.bind s.transfer.find with
    | some e =>
      if e.meets asked origin then s.judgeTransfer r origin e res else s.judgeLobby r asked origin res
    | none => s.judgeLobby r asked origin res

/-! ### The decision (R115, R118, R125, R126) -/

def Request.isCar (r : Request) : Bool :=
  match r.ask with
  | .car _ _ _ => true
  | .lobby _ _ => false

def Request.origin (r : Request) : Option Landing :=
  match r.ask with
  | .car _ _ origin => origin
  | .lobby _ origin => some origin

def Ruling.outcome : Ruling → Option AnswerCode
  | .answer code _ => some code
  | .order _ _ _ => none

def Ruling.reserves : Ruling → Bool
  | .answer _ _ => false
  | .order _ _ reservation => reservation.isSome

def Ruling.route : Ruling → List Leg
  | .order _ (.call legs _ _ _ _ _) _ => legs
  | _ => []

def OrderKind.isEnable : OrderKind → Bool
  | .enable _ _ _ => true
  | .call _ _ _ _ _ _ => false

/-- R126: the order of an ORDERED decision, with the tag it is given. -/
def State.orderRef (s : State) (x : Ruling) : Option OrderRef :=
  match x with
  | .order g k _ => some { group := g, enable := k.isEnable, tag := (s.group g).nextTag }
  | .answer _ _ => none

/-- R126: the ADMISSION notice of a decision. -/
def State.decisionNotice (s : State) (r : Request) (j : Judgement) : Decision :=
  { channel := r.channel, car := r.isCar, badge := r.badge, path := j.path, standing := j.standing
    outcome := j.ruling.outcome, dest := j.dest, route := j.ruling.route, order := s.orderRef j.ruling
    reservation := j.ruling.reserves, bank := s.banks.number, wait := s.cal.uptime - r.arrival }

/-- R118: the SECURITY notice of a decision. -/
def State.presentation (s : State) (r : Request) (j : Judgement) : Presentation :=
  { channel := r.channel, car := r.isCar, badge := r.badge, standing := j.standing, origin := r.origin
    dest := j.dest, path := j.path, uptime := s.cal.uptime, date := s.date }

/-- R118. -/
def State.raiseSecurity (s : State) (r : Request) (j : Judgement) : State :=
  if j.standing = .suspended ∨ j.standing = .lost then s.raiseNotice (.presentation (s.presentation r j))
  else s

/-- R115: the ruling is carried out. -/
def State.carryOut (s : State) (r : Request) (x : Ruling) : State :=
  match x with
  | .answer code dest => s.deliver r.channel (Answer.refusal code dest)
  | .order g k reservation => s.placeOrder g k r.channel r.badge reservation

def State.dropEntry (s : State) (r : Request) (j : Judgement) : State :=
  match j.dropEntry, r.badge with
  | true, some b => { s with transfer := s.transfer.remove b }
  | _, _ => s

/-- The expired entry of a badged LOBBY request is removed before the stages (R116). -/
def State.meetExpired (s : State) (r : Request) : State :=
  match r.ask, r.badge with
  | .lobby _ _, some b => s.dropExpired b
  | _, _ => s

/-- R115: the decision on the request under evaluation; the engine becomes IDLE. -/
def State.takeDecision (s : State) (r : Request) (res : Option LookupResult) : State :=
  let s1 := s.meetExpired r
  let j := s1.judge r res
  let s2 := ((s1.raiseSecurity r j).raiseNotice (.decision (s1.decisionNotice r j))).dropEntry r j
  { s2.carryOut r j.ruling with engine := .idle }

/-! ### The queue (R111, R112, R114) -/

/-- R112: the oldest CAR request, otherwise the oldest LOBBY request. -/
def pick (q : List Request) : Option Request := (q.find? Request.isCar) <|> q.head?

/-- R112, R114: an IDLE engine takes requests until one waits on its lookup or the queue is empty. The
decisions this makes at once are of one event, their notices sorted together (DESIGN CHOICE, log 55). -/
def State.engineTake : Nat → State → State
  | 0, s => s
  | n + 1, s =>
    match s.engine with
    | .evaluating _ _ => s
    | .idle =>
      match pick s.queue with
      | none => s
      | some r =>
        let s1 := { s with queue := s.queue.filter fun x => x.channel != r.channel }
        match r.badge with
        | none => engineTake n (s1.takeDecision r none)
        | some b =>
          if s.dir.condition = .unusable then engineTake n (s1.takeDecision r (some .storeFault))
          else { s1 with engine := .evaluating r none }.placePrio (.engineRead b)

/-- The engine, now IDLE, takes what the queue holds. -/
def State.engineNext (s : State) : State := s.engineTake (s.queue.length + 1)

/-- R114: a lookup's result reaches the engine. -/
def State.engineResult (s : State) (res : LookupResult) : State :=
  match s.engine with
  | .evaluating r _ => (s.takeDecision r (some res)).engineNext
  | .idle => s

/-- R104, R105, R111: a request is offered for a channel. -/
def State.offer (s : State) (c : Chan) (badge : Option Badge) (ask : Ask) : State :=
  if s.queue.length < 64 then
    let r : Request := { channel := c, badge, ask, arrival := s.cal.uptime }
    ({ s with queue := s.queue ++ [r] }.mapReader c
      fun ch => { ch with state := .pending, mark := .owned, entry := none }).engineNext
  else (s.mapReader c fun ch => { ch with entry := none }).showAnswer c (Answer.plain .busy)

end Sys2Proof.Machine
end

