-- ==== Sys2Proof/Machine/Entries.lean ====
section
/-! DEFINITION. What a reader sends and the entry timers (06): BADGE, KEY, ALIVE, unknown frames, the
end of an entry. -/

namespace Sys2Proof.Machine

/-- A KEY's value (10.4). -/
inductive KeyKind
  | char (b : Byte)
  | enter
  | clear
  | unknown
deriving DecidableEq, Repr

def keyKind (b : Byte) : KeyKind :=
  if isLabelChar b then .char b
  else if b = 0x0D then .enter
  else if b = 0x18 then .clear
  else .unknown

def State.setEntry (s : State) (c : Chan) (e : Entry) : State :=
  s.mapReader c fun ch => { ch with state := .entry, entry := some e }

/-- An entry of a badge and no characters (R101, R102). -/
def State.badgeEntry (s : State) (b : Badge) : Entry :=
  { badge := some b, chars := [], timer := .badgeWait, deadline := s.now + s.timing.badgeWait * 100 }

/-- An entry after a character (R101, R102). -/
def State.keyedEntry (s : State) (badge : Option Badge) (chars : List Byte) : Entry :=
  { badge, chars, timer := .interKey, deadline := s.now + s.timing.interKey * 100 }

/-- R104: the entry `e` of a channel ends. -/
def State.endEntry (s : State) (c : Chan) (e : Entry) : State :=
  let origin : Option Landing := match (s.reader c).cfg.place with
    | .lobby l => some l
    | _ => none
  match origin with
  | none => s
  | some o =>
    if e.chars.isEmpty then s.offer c e.badge (.lobby none o)
    else match s.zone.resolve e.chars with
      | some d => s.offer c e.badge (.lobby (some d) o)
      | none => (s.mapReader c fun ch => { ch with entry := none }).showAnswer c (Answer.plain .invalidLanding)

/-- R105: a badge at a car reader. -/
def State.carBadge (s : State) (c : Chan) (g : Group) (car : Car) (b : Badge) : State :=
  (s.sendTone c .key).offer c (some b) (.car g car (s.group g).cars[car].landing)

/-- R101, R105: a badge from 1 upward on an IDLE channel. -/
def State.idleBadge (s : State) (c : Chan) (b : Badge) : State :=
  match (s.reader c).cfg.place with
  | .lobby _ => (s.setEntry c (s.badgeEntry b)).sendTone c .key
  | .car g car => s.carBadge c g car b
  | .unused => s

/-- R101: a character key on an IDLE lobby channel. -/
def State.idleChar (s : State) (c : Chan) (ch : Byte) : State :=
  (s.setEntry c (s.keyedEntry none [ch])).sendTone c .key

/-- R100: any badge or key on a STARTING channel. -/
def State.showStarting (s : State) (c : Chan) : State :=
  (s.mapReader c fun ch =>
    { ch with displayDeadline := some (s.cal.uptime + ch.cfg.hold) }).sendAnswer c (Answer.plain .starting)

/-- R102: a badge from 1 upward in ENTRY. -/
def State.entryBadge (s : State) (c : Chan) (e : Entry) (b : Badge) : State :=
  match e.badge with
  | none => (s.setEntry c { e with badge := some b }).sendTone c .key
  | some _ => (s.setEntry c (s.badgeEntry b)).sendTone c .key

/-- R102: a character in ENTRY. -/
def State.entryChar (s : State) (c : Chan) (e : Entry) (ch : Byte) : State :=
  if e.chars.length < 3 then (s.setEntry c (s.keyedEntry e.badge (e.chars ++ [ch]))).sendTone c .key
  else s.sendTone c .refuse

/-- R99 to R107: a BADGE, the line already noted live. -/
def State.takeBadge (s : State) (c : Chan) (b : Badge) : State :=
  let ch := s.reader c
  match ch.state with
  | .unused => s
  | .offline => s
  | .starting => s.showStarting c
  | .pending => s.sendTone c .busy
  | .idle => if b = 0 then s.sendTone c .refuse else s.idleBadge c b
  | .showing => if b = 0 then s.sendTone c .refuse else (s.endDisplay c).idleBadge c b
  | .entry =>
    match ch.entry with
    | some e => if b = 0 then s.sendTone c .refuse else s.entryBadge c e b
    | none => s

/-- R101, R102, R107: a KEY on a lobby channel in IDLE, ENTRY or SHOWING. The TONE KEY of an ENTER goes
before what the end of the entry shows (DESIGN CHOICE, log 52). -/
def State.lobbyKey (s : State) (c : Chan) (k : KeyKind) : State :=
  let ch := s.reader c
  match ch.state, k with
  | .idle, .char b => s.idleChar c b
  | .idle, _ => s.sendTone c .refuse
  | .showing, .char b => (s.endDisplay c).idleChar c b
  | .showing, .unknown => s.sendTone c .refuse
  | .showing, _ => (s.endDisplay c).sendTone c .key
  | .entry, k =>
    match ch.entry with
    | none => s
    | some e =>
      match k with
      | .char b => s.entryChar c e b
      | .enter => (s.sendTone c .key).endEntry c e
      | .clear => (s.mapReader c fun ch => { ch with state := .idle, entry := none }).sendTone c .key
      | .unknown => s.sendTone c .refuse
  | _, _ => s

/-- R99 to R107: a KEY, the line already noted live. -/
def State.takeKey (s : State) (c : Chan) (key : Byte) : State :=
  let ch := s.reader c
  match ch.state with
  | .unused => s
  | .offline => s
  | .starting => s.showStarting c
  | .pending => s.sendTone c .busy
  | _ =>
    match ch.cfg.place with
    | .lobby _ => s.lobbyKey c (keyKind key)
    | _ => s.sendTone c .refuse

/-- R103: an entry timer of one kind, when the time base can reach its deadline. -/
def State.entryTimeout (s : State) (c : Chan) (t : EntryTimer) : State :=
  match (s.reader c).state, (s.reader c).entry with
  | .entry, some e =>
    if e.timer = t then
      match s.reach e.deadline with
      | some s1 => s1.endEntry c e
      | none => s
    else s
  | _, _ => s

/-! ### The commands -/

/-- BADGE (R101, R102, R105 to R107). -/
def execBadge (c : Chan) (badge : BitVec 40) (s : State) : Host.Outcome State Fault Refusal :=
  whileRunning (fun s => (s.lineFrame c).takeBadge c badge.toNat) s

/-- KEY (R101, R102, R105 to R107). -/
def execKey (c : Chan) (key : Byte) (s : State) : Host.Outcome State Fault Refusal :=
  whileRunning (fun s => (s.lineFrame c).takeKey c key) s

/-- ALIVE (R98, R99). -/
def execAlive (c : Chan) (s : State) : Host.Outcome State Fault Refusal :=
  whileRunning (fun s => s.lineFrame c) s

/-- UNKNOWN_READER_FRAME (R160): a frame of no known type or of the wrong length sets liveness and is
ignored; one of the tables is taken as what it is. -/
def execUnknownReaderFrame (c : Chan) (type : Byte) (payload : List Byte) (s : State) :
    Host.Outcome State Fault Refusal :=
  whileRunning (fun s =>
    let s1 := s.lineFrame c
    if readerLength type = some payload.length then
      if type = 0x60 then s1.takeBadge c (beNat payload)
      else if type = 0x61 then s1.takeKey c (payload.getD 0 0)
      else s1
    else s1) s

/-- INTER_KEY_TIMEOUT (R103). -/
def execInterKeyTimeout (c : Chan) (s : State) : Host.Outcome State Fault Refusal :=
  whileRunning (fun s => s.entryTimeout c .interKey) s

/-- BADGE_WAIT_TIMEOUT (R103). -/
def execBadgeWaitTimeout (c : Chan) (s : State) : Host.Outcome State Fault Refusal :=
  whileRunning (fun s => s.entryTimeout c .badgeWait) s

end Sys2Proof.Machine
end

