-- ==== Sys2Proof/Machine/Port.lean ====
section
/-! DEFINITION. The Site Link Port (10.2): taking a request, the general checks, replies, the receive
queue and the transmitter. -/

namespace Sys2Proof.Machine

/-- The result codes of 10.2. -/
inductive Result
  | ok | accepted | busy | range | guarded | notOpen | full | noPages | notFound | notArmed
  | lineActive | unknownType | length | starting | storeFault
deriving DecidableEq, Repr

def Result.code : Result → Nat
  | .ok => 0x00
  | .accepted => 0x01
  | .busy => 0x02
  | .range => 0x03
  | .guarded => 0x04
  | .notOpen => 0x05
  | .full => 0x06
  | .noPages => 0x07
  | .notFound => 0x08
  | .notArmed => 0x09
  | .lineActive => 0x0A
  | .unknownType => 0x0B
  | .length => 0x0C
  | .starting => 0x0D
  | .storeFault => 0x0E

/-- R163: the reply frame to a request. -/
def replyFrame (f : SiteFrame) (x : Result) (detail : List Byte) (restart : Bool) : SiteTx :=
  { type := f.type + 0x80, tag := f.req.tag, payload := u8 x.code ++ detail, restart := restart }

/-- R161, R162: a reply is handed to the transmitter and the request in hand becomes none. -/
def State.handOver (s : State) (t : SiteTx) : State :=
  s.mapSite fun p =>
    match p.sending with
    | none => { p with inHand := none, sending := some t }
    | some _ => { p with inHand := none, waiting := some t }

def State.reply (s : State) (f : SiteFrame) (x : Result) (detail : List Byte) : State :=
  s.handOver (replyFrame f x detail false)

/-- An OK reply with its items. -/
def State.replyOk (s : State) (f : SiteFrame) (items : List Byte) : State := s.reply f .ok items

/-- A refusal with no detail. -/
def State.refuse (s : State) (f : SiteFrame) (x : Result) : State := s.reply f x []

/-- R162, R168: whether the port can take a request: none in hand, no reply waiting, and no OK to an
armed RESTART on its way out (log 13). -/
def Port.canTake (p : Port) : Bool :=
  p.inHand.isNone && p.waiting.isNone && !(match p.sending with
    | some t => t.restart
    | none => false)

/-- R162: a valid frame joins the receive queue, or is discarded with SITE_OVERRUN. -/
def State.receiveFrame (s : State) (f : SiteFrame) : State :=
  let s1 := s.mapSite fun p => { p with rx := .hunting }
  if s.site.queue.length < 4 then s1.mapSite fun p => { p with queue := p.queue ++ [f] }
  else s1.raiseFault .siteOverrun f.type.toNat

/-- R162: the port takes `f`: the oldest frame of the queue, or a frame that arrives while the queue
is empty (log 12). None where it cannot. -/
def State.takeFrame (s : State) (f : SiteFrame) : Option State :=
  if s.site.canTake then
    match s.site.queue with
    | [] => some (s.mapSite fun p => { p with rx := .hunting })
    | q :: rest => if q = f then some (s.mapSite fun p => { p with queue := rest }) else none
  else none

/-- R163, R168: a request of the table is taken: the RESTART arm is cleared, the general checks are
made, and its owner carries it out. A request that cannot be taken now joins the queue. -/
def siteRequest (type : Byte) (r : Req) (early fits : Bool) (owner : SiteFrame → State → State)
    (s : State) : Host.Outcome State Fault Refusal :=
  whileRunning (fun s =>
    let f : SiteFrame := { type := type, req := r }
    match s.takeFrame f with
    | none => s.receiveFrame f
    | some s1 =>
      let s2 := s1.mapSite fun p => { p with restartArm := false }
      if s.site.phase ≠ .open_ ∧ !early then s2.refuse f .starting
      else if !fits then s2.refuse f .length
      else owner f s2) s

/-- A payload of one fixed length. -/
def hasLength (r : Req) (n : Nat) : Bool := r.payload.length == n

/-! ### The transmitter (R161, R172) -/

/-- R172: after a notice has left the queue, one SUMMARY for the lowest pending ENABLED class. -/
def NoticeUnit.afterSend (u : NoticeUnit) : NoticeUnit :=
  match NoticeClass.all.find? fun c => u.enabled c && u.isPending c with
  | some c => u.queueSummary c
  | none => u

/-- R161: an idle transmitter sends the waiting reply, or else the notice at the head of the queue. -/
def State.transmitNext (s : State) : State :=
  match s.site.sending with
  | some _ => s
  | none =>
    match s.site.waiting with
    | some t => s.mapSite fun p => { p with sending := some t, waiting := none }
    | none =>
      match s.notices.queue with
      | [] => s
      | n :: rest =>
        (s.mapSite fun p => { p with sending := some (n.frame p.seq), seq := p.seq + 1 }).mapNotices
          fun u => { u with queue := rest }.afterSend

/-! ### The commands -/

/-- SITE_FRAME_RECEIVE (R162). -/
def execSiteFrameReceive (type : Byte) (r : Req) (s : State) : Host.Outcome State Fault Refusal :=
  whileRunning (fun s => s.receiveFrame { type := type, req := r }) s

/-- UNKNOWN_TYPE (R163): answered in any phase. A TYPE of the table is only received. -/
def execUnknownType (type : Byte) (r : Req) (s : State) : Host.Outcome State Fault Refusal :=
  if siteRequestTypes.contains type then
    whileRunning (fun s => s.receiveFrame { type := type, req := r }) s
  else siteRequest type r true true (fun f s => s.refuse f .unknownType) s

end Sys2Proof.Machine
end

