-- ==== Sys2Proof/Machine/SiteStore.lean ====
section
/-! DEFINITION. The requests of Batch Control (05), of the Credential Directory (03) and of the
Directory Store (04), and the reads they wait for. -/

namespace Sys2Proof.Machine

/-! ### Records (10.4) -/

/-- A credential record as the replies carry it: bytes 0..13. -/
def Record.bytes (r : Record) : List Byte :=
  u40 r.badge ++ u8 r.status.code ++ u8 r.profile.val
    ++ u8 ((if r.home.isSome then 1 else 0) + (if r.expiry.isSome then 2 else 0)
        + (if r.budget.isSome then 4 else 0))
    ++ u8 ((r.home.map Fin.val).getD 0)
    ++ u8 ((if r.accessible then 1 else 0) + (if r.priority then 2 else 0))
    ++ u16 (r.expiry.getD 0) ++ u8 (r.budget.getD 0) ++ u8 r.marks

/-- R81, check 4: the first failing field of a STAGE PUT, in the order of the field numbers of 10.4
(DESIGN CHOICE, log 51). -/
def recordFailure (p : List Byte) : Option Nat :=
  let presence := p.getD 7 0
  if field p 0 5 = 0 then some 1
  else if 2 < byteAt p 5 then some 2
  else if presence >>> 3 != 0 || (presence.getLsbD 0 && 127 < byteAt p 8) then some 3
  else if 3 < byteAt p 9 then some 4
  else if presence.getLsbD 2 && (byteAt p 12 < 1 || 32 < byteAt p 12) then some 5
  else none

/-- The record of a STAGE PUT payload, every slot unmarked (R46). -/
def recordIn (p : List Byte) : Record :=
  let presence := p.getD 7 0
  { badge := field p 0 5
    status := match byteAt p 5 with
      | 0 => .active
      | 1 => .suspended
      | _ => .lost
    profile := Fin.ofNat 256 (byteAt p 6)
    home := if presence.getLsbD 0 then some (Fin.ofNat 128 (byteAt p 8)) else none
    accessible := (p.getD 9 0).getLsbD 0
    priority := (p.getD 9 0).getLsbD 1
    expiry := if presence.getLsbD 1 then some (field p 10 2) else none
    budget := if presence.getLsbD 2 then some (byteAt p 12) else none
    slots := 0 }

/-! ### Opening, staging, abandoning (R79 to R85) -/

/-- R84: the idle deadline set afresh. -/
def State.restartIdle (s : State) : State :=
  s.mapBatch fun b => { b with deadline := some (s.cal.uptime + s.timing.batchIdle) }

/-- BATCH OPEN (R80). -/
def execBatchOpen (r : Req) (s : State) : Host.Outcome State Fault Refusal :=
  siteRequest 0x08 r false (hasLength r 0) (fun f s =>
    if s.batch.state ≠ .closed ∨ s.store.work.isSome then s.refuse f .busy
    else if s.dir.condition = .unusable then s.refuse f .storeFault
    else ((s.mapBatch fun _ => { Batch.startUp with state := .open_ }).restartIdle).replyOk f []) s

/-- BATCH ABANDON (R85). -/
def execBatchAbandon (r : Req) (s : State) : Host.Outcome State Fault Refusal :=
  siteRequest 0x0C r false (hasLength r 0) (fun f s =>
    match s.batch.state with
    | .closed => s.refuse f .notOpen
    | .committing => s.refuse f .busy
    | .open_ => (s.mapBatch fun _ => Batch.startUp).replyOk f (u8 s.batch.edits.length)) s

/-- The buffer's edit for a badge. -/
def Batch.find (b : Batch) (badge : Badge) : Option Edit := b.edits.find? fun e => e.badge == badge

/-- R79: an edit is staged: in the place of the badge's edit, or at the end. -/
def Batch.stage (b : Batch) (e : Edit) : Batch :=
  { b with edits :=
      if (b.find e.badge).isSome then b.edits.map fun x => if x.badge = e.badge then e else x
      else b.edits ++ [e] }

/-- R81: the edit is staged, the deadline set afresh and the request answered OK. -/
def State.stageEdit (s : State) (f : SiteFrame) (e : Edit) : State :=
  let replaced := (s.batch.find e.badge).isSome
  let s1 := (s.mapBatch fun b => b.stage e).restartIdle
  s1.replyOk f (u8 s1.batch.edits.length ++ bool8 replaced)

/-- R83: an edit whose record names a service profile. -/
def Edit.namesService (e : Edit) : Bool :=
  match e.kind with
  | .put r => 240 ≤ r.profile.val
  | .drop => false

def State.setInHand (s : State) (f : SiteFrame) (w : PortWait) : State :=
  s.mapSite fun p => { p with inHand := some { frame := f, wait := w } }

/-- R83: the lookup of a request in hand is placed; with the directory UNUSABLE it ends at once. -/
def State.portLookup (s : State) (f : SiteFrame) (w : PortWait) (b : Badge) : State :=
  if s.dir.condition = .unusable then s.refuse f .storeFault
  else (s.setInHand f w).placePrio (.portRead b)

/-- R81, checks 3, 5 and 6: an edit that has passed its RANGE check. -/
def State.tryStage (s : State) (f : SiteFrame) (e : Edit) : State :=
  let held := s.batch.find e.badge
  if 64 ≤ s.batch.edits.length ∧ held.isNone then s.refuse f .full
  else if s.keyOn then s.stageEdit f e
  else if e.namesService || (held.map Edit.namesService).getD false then s.refuse f .guarded
  else s.portLookup f (.stage e) e.badge

/-- STAGE PUT (R81). -/
def execStagePut (r : Req) (s : State) : Host.Outcome State Fault Refusal :=
  siteRequest 0x09 r false (hasLength r 13) (fun f s =>
    if s.batch.state ≠ .open_ then s.refuse f .notOpen
    else match recordFailure r.payload with
      | some n => s.reply f .range (u8 n)
      | none => s.tryStage f { badge := field r.payload 0 5, kind := .put (recordIn r.payload) }) s

/-- STAGE DROP (R82). Badge number 0 is refused RANGE with field number 1 (DESIGN CHOICE, log 50). -/
def execStageDrop (r : Req) (s : State) : Host.Outcome State Fault Refusal :=
  siteRequest 0x0A r false (hasLength r 5) (fun f s =>
    if s.batch.state ≠ .open_ then s.refuse f .notOpen
    else if beNat r.payload = 0 then s.reply f .range (u8 1)
    else s.tryStage f { badge := beNat r.payload, kind := .drop }) s

/-- R83: the lookup of a protection check has ended. -/
def State.stageResult (s : State) (f : SiteFrame) (e : Edit) (res : LookupResult) : State :=
  if s.batch.state ≠ .open_ then s.refuse f .notOpen
  else match res with
    | .storeFault => s.refuse f .storeFault
    | .absent _ => s.stageEdit f e
    | .found x _ _ _ => if 240 ≤ x.profile.val then s.refuse f .guarded else s.stageEdit f e

/-! ### RECORD READ (R51) -/

/-- RECORD READ (R51). -/
def execRecordRead (r : Req) (s : State) : Host.Outcome State Fault Refusal :=
  siteRequest 0x0D r false (hasLength r 5) (fun f s =>
    let b := beNat r.payload
    if b = 0 then s.refuse f .range else s.portLookup f (.recordRead b) b) s

/-- R51: the lookup of a RECORD READ has ended. -/
def State.recordResult (s : State) (f : SiteFrame) (res : LookupResult) : State :=
  match res with
  | .found x _ queued commit => s.replyOk f (x.bytes ++ u8 queued ++ u32 commit)
  | .absent commit => s.reply f .notFound (u32 commit)
  | .storeFault => s.refuse f .storeFault

/-- A lookup placed for the request in hand has ended. -/
def State.portResult (s : State) (res : LookupResult) : State :=
  match s.site.inHand with
  | some { frame := f, wait := .recordRead _ } => s.recordResult f res
  | some { frame := f, wait := .stage e } => s.stageResult f e res
  | _ => s

/-! ### DIRECTORY SCAN (R52 to R54) -/

/-- A scan from a start badge: its first page read is placed. -/
def State.beginScan (s : State) (f : SiteFrame) (start : Badge) : State :=
  (s.setInHand f (.scan start start [])).placePrio .scanRead

/-- DIRECTORY SCAN (R52, R53). -/
def execDirectoryScan (r : Req) (s : State) : Host.Outcome State Fault Refusal :=
  siteRequest 0x0E r false (hasLength r 5) (fun f s =>
    let b := beNat r.payload
    if s.dir.condition = .unusable then s.refuse f .storeFault
    else if b = 0 then
      match s.dir.cursor with
      | some c => s.beginScan f (c + 1)
      | none => s.refuse f .notFound
    else s.beginScan f b) s

/-- R52, R53: a scan ends OK with the records given. -/
def State.endScan (s : State) (f : SiteFrame) (rs : List Record) (atEnd : Bool) : State :=
  (s.mapDir fun d =>
    { d with cursor := if atEnd then none else (rs.getLast?).map Record.badge }).replyOk f
      (u8 rs.length ++ bool8 atEnd ++ rs.flatMap Record.bytes)

/-- A scan that has read its last page is answered (R52, R54; log 26). -/
def State.answerScan (s : State) : State :=
  match s.site.inHand with
  | some { frame := f, wait := .scanned rs atEnd } => s.endScan f rs atEnd
  | _ => s

/-- R52: the page of a scan has been read through entry `e`. A scan that has read its last page waits to
be answered. -/
def State.scanPage (s : State) (f : SiteFrame) (start next : Badge) (gathered : List Record)
    (e : IndexEntry) (rs : List Record) : State :=
  let all := gathered ++ rs.filter fun r => next ≤ r.badge
  if 16 ≤ all.length then
    s.setInHand f (.scanned (all.take 16) (all.length == 16 && e.high == topBadge))
  else if e.high = topBadge then s.setInHand f (.scanned all true)
  else (s.setInHand f (.scan start (e.high + 1) all)).placePrio .scanRead

/-- R52: the page read of the scan in hand is served. A failed check ends the scan at once. -/
def State.serveScan (s : State) : State :=
  match s.site.inHand with
  | some { frame := f, wait := .scan start next gathered } =>
    match s.dir.entryFor next with
    | none => s.refuse f .storeFault
    | some e =>
      match s.readFor e with
      | (s1, none) => s1.refuse f .storeFault
      | (s1, some rs) => s1.scanPage f start next gathered e rs
  | _ => s

/-- R54: a commit-complete event sends a scan that still reads back to its start. The READ that the scan has
in the priority queue keeps its place there and becomes the first of the restarted scan, since R54 does not say
where that one stands (DESIGN CHOICE, log 60). -/
def State.restartScan (s : State) : State :=
  match s.site.inHand with
  | some { frame := f, wait := .scan start _ _ } => s.setInHand f (.scan start start [])
  | _ => s

/-! ### BATCH COMMIT (R86 to R90) -/

/-- R90: the purge list. -/
def purgeListOf (edits : List Edit) : List Badge :=
  edits.filterMap fun e =>
    match e.kind with
    | .drop => some e.badge
    | .put r => if r.status = .active then none else some e.badge

/-- R86: a refusal that leaves the batch OPEN with its deadline set afresh. -/
def State.refuseCommit (s : State) (f : SiteFrame) (x : Result) (detail : List Byte) : State :=
  (s.restartIdle).reply f x detail

/-- R87: the plan's row of an index entry: the page as the planning read found it, or a page no edit
touches as the store holds it (log 34). -/
def Store.rowOf (st : Store) (edits : List Edit) (done : List (IndexEntry × List Record))
    (e : IndexEntry) : PlanRow :=
  match done.find? fun x => x.1 == e with
  | some (_, rs) => planRow edits e rs
  | none =>
    match (st.page e.page).contents with
    | .programmed p => planRow [] e p.records
    | .erased => planRow [] e []

/-- R86, R88: the commit is accepted. -/
def State.acceptCommit (s : State) (f : SiteFrame) (p : Plan) : State :=
  let c := s.store.counter
  let s1 := s.takeNumber
    { kind := .commit, number := c, phase := .commitWait, copies := p.copies, released := p.released
      added := p.added, removed := p.removed, replaced := p.replaced, todo := [], gathered := [] }
  let s2 := s1.mapBatch fun b =>
    { b with state := .committing, deadline := none, commit := some c, purge := purgeListOf b.edits }
  ((s2.reply f .accepted (u32 c ++ u8 p.copies.length ++ u8 p.released.length)).startCopies).arbitrate

/-- R86, steps 7 and 8: the planning reads have been made. -/
def State.finishPlan (s : State) (f : SiteFrame) (done : List (IndexEntry × List Record)) : State :=
  let p := planOf (s.dir.index.map fun e => s.store.rowOf s.batch.edits done e)
  let count := s.dir.recordCount + p.added - p.removed
  if 32768 < count then s.refuseCommit f .full (u16 count)
  else if s.store.available < p.copies.length then
    s.refuseCommit f .noPages (u16 p.copies.length ++ u16 s.store.available)
  else s.acceptCommit f p

/-- R87: the next planning read is placed, or the plan is made. -/
def State.planNext (s : State) (f : SiteFrame) (todo : List IndexEntry)
    (done : List (IndexEntry × List Record)) : State :=
  match todo with
  | [] => s.finishPlan f done
  | _ :: _ => (s.setInHand f (.planning todo done)).placePrio .planRead

/-- R87, step 2: the pages to read, ascending. -/
def State.editedPages (s : State) : List IndexEntry :=
  s.dir.index.filter fun e => s.batch.edits.any fun x => e.low ≤ x.badge && x.badge ≤ e.high

/-- BATCH COMMIT (R86). -/
def execBatchCommit (r : Req) (s : State) : Host.Outcome State Fault Refusal :=
  siteRequest 0x0B r false (hasLength r 0) (fun f s =>
    match s.batch.state with
    | .closed => s.refuse f .notOpen
    | .committing => s.refuse f .busy
    | .open_ =>
      if s.batch.edits.isEmpty then (s.mapBatch fun _ => Batch.startUp).replyOk f []
      else if s.store.counterSpent then s.refuseCommit f .full []
      else s.planNext f s.editedPages []) s

/-- R87: the planning read of the commit in hand is served. -/
def State.servePlan (s : State) : State :=
  match s.site.inHand with
  | some { frame := f, wait := .planning (e :: rest) done } =>
    match s.readFor e with
    | (s1, none) => s1.refuseCommit f .storeFault []
    | (s1, some rs) => s1.planNext f rest (done ++ [(e, rs)])
  | _ => s

/-! ### COMPACT (R74, R75) -/

/-- R75: the reads of a COMPACT have ended and the new layout is fixed. -/
def State.fixLayout (s : State) : State :=
  (s.mapWork fun w =>
    { w with copies := compactLayout w.gathered, released := s.dir.index.map IndexEntry.page }).startCopies

/-- R75: the next read of a COMPACT is placed, or its layout is fixed. -/
def State.compactNext (s : State) : State :=
  match s.store.work with
  | some w =>
    match w.todo with
    | [] => s.fixLayout
    | _ :: _ => s.placePrio .compactRead
  | none => s

/-- COMPACT (R74). -/
def execCompact (r : Req) (s : State) : Host.Outcome State Fault Refusal :=
  siteRequest 0x0F r false (hasLength r 0) (fun f s =>
    let needed := compactNeeds s.dir.recordCount
    let c := s.store.counter
    if s.batch.state ≠ .closed ∨ s.store.work.isSome then s.refuse f .busy
    else if s.store.counterSpent then s.refuse f .full
    else if s.store.available < needed then s.reply f .noPages (u16 needed ++ u16 s.store.available)
    else
      (((s.takeNumber
        { kind := .compact, number := c, phase := .reading, copies := [], released := [], added := 0
          removed := 0, replaced := 0, todo := s.dir.index, gathered := [] }).reply f .accepted
            (u32 c)).compactNext).arbitrate) s

/-- R75: a page of the COMPACT has been read, or has failed its check. -/
def State.compactPage (s : State) (rest : List IndexEntry) (rs : Option (List Record)) : State :=
  match rs with
  | none =>
    if s.dir.condition = .usable then s.failWork .programFail
    else (s.mapWork fun w => { w with todo := rest }).compactNext
  | some rs => (s.mapWork fun w => { w with todo := rest, gathered := w.gathered ++ rs }).compactNext

/-- R75: the page read of a COMPACT is served. -/
def State.serveCompact (s : State) : State :=
  match s.store.work with
  | some w =>
    match w.todo with
    | [] => s
    | e :: rest =>
      match s.readFor e with
      | (s1, rs) => s1.compactPage rest rs
  | none => s

/-! ### STORE STATUS (R77) -/

def PageState.isData : PageState → Bool
  | .data => true
  | _ => false

def PageState.isWriting : PageState → Bool
  | .writing => true
  | _ => false

def PageState.isRetired : PageState → Bool
  | .retired => true
  | _ => false

/-- R77: kind, commit number, phase, copies programmed and copies to program, these being the copies still
to be programmed (DESIGN CHOICE, log 48). -/
def Store.workBytes (st : Store) : List Byte :=
  u8 ((st.work.map fun w => w.kind.code).getD 0) ++ opt32 (st.work.map Work.number) ++ opt8 (st.work.map fun w => w.phase.code)
    ++ u16 ((st.work.map fun w => w.heldPages.length).getD 0)
    ++ u16 ((st.work.map Work.unprogrammed).getD 0)

/-- R77: the items of STORE STATUS in the order listed. At most one page is ERASING and one WRITING (R57), so
that these two counts are 1 byte and the others 2 (10.4). -/
def State.storeBytes (s : State) : List Byte :=
  let st := s.store
  u8 s.dir.condition.code ++ u16 s.dir.recordCount
    ++ u16 (st.countPages PageState.isFree) ++ u16 (st.countPages PageState.isData)
    ++ u16 (st.countPages PageState.isStale) ++ u8 (st.countPages PageState.isErasing)
    ++ u8 (st.countPages PageState.isWriting) ++ u16 (st.countPages PageState.isRetired)
    ++ u16 (st.countPages (· == .stale .held)) ++ u16 (st.countPages (· == .stale .abandoned))
    ++ u16 st.eraseQ.length ++ st.workBytes ++ u32 st.lastLogged ++ u32 st.counter
    ++ u8 st.logPage.val ++ u8 st.logSlot.val
    ++ u8 st.save.state.code ++ bool8 st.save.pending ++ u8 st.save.last.code
    ++ u16 s.dir.marksTaken ++ u16 s.dir.marksNotTaken ++ u16 st.capped

/-- STORE STATUS (R77). -/
def execStoreStatus (r : Req) (s : State) : Host.Outcome State Fault Refusal :=
  siteRequest 0x10 r false (hasLength r 0) (fun f s => s.replyOk f s.storeBytes) s

end Sys2Proof.Machine
end

