-- ==== Sys2Proof/Machine/StartUp.lean ====
section
/-! DEFINITION. Start-up (R28, R169, R70 to R73, R93, R100, R154, R173): operations cut short, the values
after start-up, the scan's end and the opening. -/

namespace Sys2Proof.Machine

/-! ### Operations cut short (R3, R48, R64, R68, R71; log 27) -/

/-- A trip mark in service at the cut: some of its copies read as marked. -/
def State.cutMark (s : State) : State :=
  match s.store.prio with
  | .mark b :: _ =>
    if s.store.arrayFree then
      match (s.markTargets b).2 with
      | some ps =>
        s.mapStore fun st =>
          (ps.take (Config.cutTripCopies s.free % (ps.length + 1))).foldl (fun st p => st.markPage b p) st
      | none => s
    else s
  | _ => s

/-- What the operation of the array leaves on the pages when it is abandoned where it stood. A settings
save cut short, its MARK included, leaves no complete image (R3, R68). -/
def State.cutOp (s : State) : State :=
  match s.store.op with
  | none => s
  | some op =>
    match op.kind with
    | .eraseDir p =>
      if Config.cutEraseCleared s.free then
        s.mapStore fun st => st.setPage p { contents := .erased, retired := (st.page p).retired }
      else s
    | .eraseLog p =>
      s.mapStore fun st => { st with log := st.log.set p.val (cutLogPage s.free st.log[p]) p.isLt }
    | .logMark =>
      match s.store.work with
      | some w => if Config.cutLogMarkWhole s.free then s.mapStore fun st => st.logNumber w.number else s
      | none => s
    | .program _ _ => s
    | .saveErase _ => s
    | .saveProgram _ => s
    | .saveMark => s

/-- Every operation in progress is abandoned where it stood (R71, R169). -/
def State.cut (s : State) : State := { s.cutMark.cutOp with free := s.free + 1 }

/-! ### Values after start-up -/

/-- What the store keeps: its pages, the Commit Log and the Settings Area, and the commit counter, for no
number is ever given twice (R65, R92; log 46). -/
def Store.afterCut (st : Store) : Store :=
  { Store.factory with pages := st.pages, log := st.log, area := st.area, counter := st.counter }

/-- The card with every volatile state at its value after start-up (log 32 for a card unpowered or
held). The raw levels, the command queue and the model's draw counter stay. -/
def State.volatileReset (s : State) : State :=
  { power := s.power
    time := s.time
    cal := Calendar.startUp
    banks := { active := Vector.replicate 256 Profile.default
               shadow := Vector.replicate 256 Profile.default
               number := 0, arm := .none, holidays := [] }
    zone := ZoneMap.default
    readers := Vector.replicate 32 Channel.startUp
    queue := []
    engine := .idle
    transfer := TransferTable.startUp
    dir := Directory.startUp
    store := s.store.afterCut
    batch := Batch.startUp
    groups := Vector.replicate 6 GroupMgr.startUp
    recallIn := vmap (fun r =>
      { cfg := { polarity := .activeHigh, mode := .level }, line := Debounce.startUp r.line.raw
        state := .inRecall, fixed := false }) s.recallIn
    key := Debounce.startUp s.key.raw
    resetIn := s.resetIn
    site := Port.startUp
    notices := NoticeUnit.startUp
    faults := FaultUnit.startUp
    timing := Timings.default
    free := s.free
    pending := s.pending }

/-- R169: at a start-up the reset input is taken as released, its count beginning where the raw level
shows it asserted. -/
def resetReleasedAt (raw : Level) : Debounce :=
  { raw := raw, stable := some .low, since := if raw = .high then some 0 else none }

/-- R28, R173: start-up begins: every volatile state at its start-up value, the time base and uptime at
0, CLOCK_UNSET raised. -/
def State.startUp (s : State) : State :=
  ({ s.volatileReset with
      power := .running
      time := { seconds := 0, ms := 0 }
      resetIn := resetReleasedAt s.resetIn.raw }).raiseFault .clockUnset 0

/-! ### The scan (R71, R72, R65) -/

/-- A page as its header is first found (R71). -/
inductive PageFound
  | retired
  | free
  | stale
  | abandoned
  | candidate (p : PageImage)
deriving DecidableEq, Repr

/-- R71: the first classification, `l` being the last complete commit. -/
def classify (l : Nat) (d : DirPage) : PageFound :=
  if d.retired then .retired
  else match d.contents with
    | .erased => .free
    | .programmed p =>
      if !p.complete || p.high < p.low || 64 < p.count then .stale
      else if l < p.commit then .abandoned
      else .candidate p

/-- A candidate as the index would hold it. -/
def PageImage.entry (p : PageImage) (page : Page) : IndexEntry :=
  { low := p.low, high := p.high, page := page, count := p.count, commit := p.commit }

/-- R72: candidates in descending order of commit number, equal ones in the order they come. -/
def insertCandidate (e : IndexEntry) : List IndexEntry → List IndexEntry
  | [] => [e]
  | a :: rest => if a.commit < e.commit then e :: a :: rest else a :: insertCandidate e rest

def IndexEntry.overlaps (a b : IndexEntry) : Bool := a.low ≤ b.high && b.low ≤ a.high

/-- R72: the candidates kept. -/
def keptOf (cs : List IndexEntry) : List IndexEntry :=
  cs.foldl (fun kept e => if kept.any e.overlaps then kept else kept ++ [e]) []

/-- R72: the lowest badge number from `low` on that ascending entries do not cover. -/
def uncovered : Badge → List IndexEntry → Option Badge
  | low, [] => if low ≤ topBadge then some low else none
  | low, e :: rest => if e.low ≤ low then uncovered (e.high + 1) rest else some low

def Store.candidates (st : Store) : List IndexEntry :=
  ((finList 544).filterMap fun p =>
    match classify st.lastLogged (st.page p) with
    | .candidate i => some (i.entry p)
    | _ => none).foldl (fun cs e => insertCandidate e cs) []

/-- R71, R72: the state the scan gives a page. Of a page with its complete mark, an inconsistent header and
a commit number above L, R71's third case says STALE alone and R57's words would make it abandoned: it is
superseded here, so that the MARK of R66 does not wait for its erase (DESIGN CHOICE, log 59). -/
def scannedState (l : Nat) (kept : List IndexEntry) (p : Page) (d : DirPage) : PageState :=
  match classify l d with
  | .retired => .retired
  | .free => .free
  | .stale => .stale .superseded
  | .abandoned => .stale .abandoned
  | .candidate _ => if kept.any fun e => e.page == p then .data else .stale .superseded

/-- R71: the slot after the highest number of the log. -/
def Store.scannedPosition (st : Store) : Fin 8 × Fin 64 :=
  match st.highestLogPage with
  | none => (0, 0)
  | some p =>
    let slot := ((finList 64).find? fun i => st.log[p].toList.getD i.val none == some st.lastLogged).getD 0
    if slot.val = 63 then (nextLogPage p, 0) else (p, slot + 1)

/-- The commit numbers of the pages that carry a complete mark (R65). -/
def Store.headerNumbers (st : Store) : List Nat :=
  st.pages.toList.filterMap fun d =>
    match d.contents with
    | .programmed p => if p.complete then some p.commit else none
    | .erased => none

/-- R71, R72, R65: the store after the scan, `kept` being the pages kept. The counter is one more than the
highest number found, and never lower than it stood: a number that left no complete page, of a work that
failed or was cut, is spent all the same (R65, R91, R92; DESIGN CHOICE, log 46). -/
def Store.scanned (st : Store) (kept : List IndexEntry) : Store :=
  let l := st.lastLogged
  let states : Vector PageState 544 := vmake fun n =>
    if h : n < 544 then scannedState l kept ⟨n, h⟩ (st.page ⟨n, h⟩) else .free
  let (logPage, logSlot) := st.scannedPosition
  { st with
    pageState := states
    logPage, logSlot
    counter := max st.counter (st.headerNumbers.foldl max l + 1)
    eraseQ := (finList 544).filter fun p => (states.get p).isStale }

/-- R72: STORE_FAULT for the lowest badge number not covered. -/
def State.raiseGap (s : State) (gap : Option Badge) : State :=
  match gap with
  | some b => s.raiseFault .storeFault (b % 65536)
  | none => s

/-- R59, at the end of the scan. -/
def State.raiseScanSpare (s : State) : State :=
  if s.store.spareSum < 8 then s.raiseFault .spareLow s.store.spareSum else s

/-- R72: the directory the kept pages form. -/
def Directory.scanned (d : Directory) (kept : List IndexEntry) : Directory :=
  let index := kept.foldl (fun ix e => insertEntry e ix) []
  { d with
    condition := if (uncovered 1 index).isSome then .unusable else .usable
    index := index
    recordCount := (index.map IndexEntry.count).sum }

/-- SCAN_END (R72). -/
def State.scanEnds (s : State) : State :=
  let kept := keptOf s.store.candidates
  let s1 := (s.mapStore fun st => st.scanned kept).mapDir fun d => d.scanned kept
  ((s1.raiseGap (uncovered 1 s1.dir.index)).raiseScanSpare).mapSite fun p => { p with phase := .loading }

/-! ### The opening (R70, R93, R100, R154, R170, R173) -/

/-- R100: a channel takes its loaded configuration at uptime `uptime`. One that becomes UNUSED keeps of
the records not yet sent the blank form alone (R98, R109; log 35). -/
def Channel.opened (ch : Channel) (cfg : ChanConfig) (uptime : Nat) : Channel :=
  { ch with
    cfg := cfg
    state := if cfg.place = .unused then .unused else .idle
    displayDeadline := none
    silenceDeadline := some (max (ch.silenceDeadline.getD 0) (uptime + 3))
    tx := (if cfg.place = .unused then [] else ch.tx)
      ++ if ch.displayDeadline.isSome then [.blank] else [] }

/-- The image the load accepts, none where it rejects it (R70). -/
def SettingsArea.accepted (a : SettingsArea) : Option Settings :=
  if a.complete && a.checkMatches then some a.image else none

/-- Every block takes its part of the settings loaded; the fault masks and severities, the enables and
the recall states are taken by `opens`. -/
def State.applySettings (s : State) (x : Settings) : State :=
  { s with
    banks := { s.banks with
      active := x.bank, shadow := x.bank, number := x.bankNumber, holidays := x.holidays, arm := .none }
    zone := x.zone
    readers := vmake fun n =>
      (s.readers.toList.getD n Channel.startUp).opened
        (x.channels.toList.getD n { place := .unused, hold := 5 }) s.cal.uptime
    recallIn := vmake fun n =>
      let r := s.recallIn.toList.getD n
        { cfg := { polarity := .activeHigh, mode := .level }, line := Debounce.startUp .low
          state := .inRecall, fixed := false }
      { r with cfg := x.groups.toList.getD n { polarity := .activeHigh, mode := .level } }
    timing := x.timing }

/-- ADMISSION_OPENS (R70, R163): the load ends and admission opens (log 30). -/
def State.opens (s : State) : State :=
  let s1 := match s.store.area.accepted with
    | some x => (s.applySettings x, x)
    | none => ((s.raiseFault .settingsLost 0).applySettings Settings.default, Settings.default)
  let s2 := s1.1.mapReplaced s.zone
  let s3 := (((s2.mapFaults fun f => { f with masks := s1.2.masks, majors := s1.2.majors }).mapNotices
    fun u => u.setEnables s1.2.enables).mapSite fun p => { p with phase := .open_ }).reworkLine
  (finList 6).foldl State.fixRecall s3

/-! ### The commands -/

/-- POWER_ON (R28). -/
def execPowerOn (s : State) : Host.Outcome State Fault Refusal :=
  .next (if s.power = .off then s.startUp.settle else s)

/-- LOSS_OF_POWER (R28). -/
def execLossOfPower (s : State) : Host.Outcome State Fault Refusal :=
  .next (if s.power = .off then s
    else { s.cut.volatileReset with power := .off, time := { seconds := 0, ms := 0 } })

/-- SCAN_END (R72). -/
def execScanEnd (s : State) : Host.Outcome State Fault Refusal :=
  whileRunning (fun s => if s.site.phase = .scanning then s.scanEnds else s) s

/-- ADMISSION_OPENS (R177). -/
def execAdmissionOpens (s : State) : Host.Outcome State Fault Refusal :=
  whileRunning (fun s => if s.site.phase = .loading then s.opens else s) s

/-- TRANSMIT_COMPLETE (R161, R168): a frame has been sent; after the OK to an armed RESTART the card
starts up. -/
def execTransmitComplete (s : State) : Host.Outcome State Fault Refusal :=
  whileRunning (fun s =>
    match s.site.sending with
    | some t =>
      if t.restart then s.cut.startUp
      else (s.mapSite fun p => { p with sending := none }).transmitNext
    | none => s.transmitNext) s

end Sys2Proof.Machine
end

