-- ==== Sys2Proof/Machine/Lines.lean ====
section
/-! DEFINITION. The discrete inputs (09, R169), the receivers of the links (R159, R160), the frames of
the group controllers (08), and the tick. -/

namespace Sys2Proof.Machine

/-! ### Debouncing (R149, R155, R169) -/

/-- The raw level of an input is `l` from the time `t` on. The 100 ms count begins afresh while the
stable level is not yet known, and where the raw level leaves the stable one; it is abandoned where
the raw level returns, even where its 100 ms have run and no command has ended it (DESIGN CHOICE, log
58). -/
def Debounce.raise (d : Debounce) (l : Level) (t : Nat) : Debounce :=
  if d.raw = l then d
  else
    { d with
      raw := l
      since := match d.stable with
        | none => some t
        | some x => if x = l then none else some t }

/-- The raw level of an input the card does not watch now. -/
def Debounce.note (d : Debounce) (l : Level) : Debounce := { d with raw := l }

/-- The end of a count: the stable level takes the raw level. -/
def Debounce.settle (d : Debounce) : Debounce := { d with stable := some d.raw, since := none }

/-- The time at which a count that runs towards `first` (a first taking) or towards a change ends. -/
def Debounce.countEnds (d : Debounce) (first : Bool) : Option Nat :=
  match d.stable, d.since with
  | none, some t => if first then some (t + 100) else none
  | some x, some t => if first || x == d.raw then none else some (t + 100)
  | _, none => none

def State.input (s : State) (i : Input) : Debounce :=
  match i with
  | .recallLine g => (s.recallOf g).line
  | .key => s.key
  | .reset => s.resetIn

def State.mapInput (s : State) (i : Input) (f : Debounce → Debounce) : State :=
  match i with
  | .recallLine g => s.mapRecall g fun r => { r with line := f r.line }
  | .key => { s with key := f s.key }
  | .reset => { s with resetIn := f s.resetIn }

/-- Whether the card watches an input: every input while it runs, the reset input while held by it. -/
def State.watches (s : State) (i : Input) : Bool :=
  match s.power with
  | .running => true
  | .held => i == .reset
  | .off => false

/-- The state at the end of an input's count, the stable level taken; none where no such count ends. -/
def State.countDone (s : State) (i : Input) (first : Bool) : Option State :=
  ((s.input i).countEnds first).bind fun t => (s.reach t).map fun s1 => s1.mapInput i Debounce.settle

/-- RAW_LEVEL_CHANGE (R149). -/
def execRawLevelChange (input : Input) (level : Level) (s : State) : Host.Outcome State Fault Refusal :=
  .next (s.mapInput input fun d => if s.watches input then d.raise level s.now else d.note level)

/-- FIRST_STABLE_LEVEL (R149, R154, R155). -/
def execFirstStableLevel (input : Input) (s : State) : Host.Outcome State Fault Refusal :=
  whileRunning (fun s =>
    match s.countDone input true with
    | none => s
    | some s1 =>
      match input with
      | .recallLine g => s1.fixRecall g
      | _ => s1) s

/-- R151: a line event is taken, once the recall state has been fixed (R154). -/
def State.lineEvent (s : State) (g : Group) : State :=
  let r := s.recallOf g
  if r.fixed then s.setRecall g (recallAfter r.active r.cfg.mode r.state) else s

/-- A recall line's count ends with the line in the activity given. -/
def State.lineChange (s : State) (g : Group) (active : Bool) : State :=
  let r := s.recallOf g
  if r.cfg.polarity.active r.line.raw = active then
    match s.countDone (.recallLine g) false with
    | some s1 => s1.lineEvent g
    | none => s
  else s

/-- LINE_BECOMES_ACTIVE (R151). -/
def execLineBecomesActive (g : Group) (s : State) : Host.Outcome State Fault Refusal :=
  whileRunning (fun s => s.lineChange g true) s

/-- LINE_BECOMES_INACTIVE (R151). -/
def execLineBecomesInactive (g : Group) (s : State) : Host.Outcome State Fault Refusal :=
  whileRunning (fun s => s.lineChange g false) s

/-- SERVICE_KEY_CHANGE (R155). -/
def execServiceKeyChange (s : State) : Host.Outcome State Fault Refusal :=
  whileRunning (fun s => (s.countDone .key false).getD s) s

/-- RESET_ASSERTED (R169): the card is held, its fault output deasserted. -/
def execResetAsserted (s : State) : Host.Outcome State Fault Refusal :=
  .next (if s.power = .running ∧ s.resetIn.raw = .high then
      match s.countDone .reset false with
      | some s1 => { s1.cut.volatileReset with power := .held }
      | none => s
    else s)

/-- RESET_RELEASED (R169): start-up begins. -/
def execResetReleased (s : State) : Host.Outcome State Fault Refusal :=
  .next (if s.power = .held ∧ s.resetIn.raw = .low then
      match s.countDone .reset false with
      | some s1 => s1.startUp.settle
      | none => s
    else s)

/-! ### Receivers (R159) -/

def State.rxOf (s : State) (l : Link) : Receiver :=
  match l with
  | .site => s.site.rx
  | .group g => (s.group g).rx
  | .reader c => (s.reader c).rx

def State.setRx (s : State) (l : Link) (x : Receiver) : State :=
  match l with
  | .site => s.mapSite fun p => { p with rx := x }
  | .group g => s.mapGroup g fun m => { m with rx := x }
  | .reader c => s.mapReader c fun ch => { ch with rx := x }

/-- R159: what a discard raises on a link. -/
def State.raiseDiscard (s : State) (l : Link) (cause : DiscardCause) : State :=
  match l with
  | .site => s.raiseFault .siteFrame cause.code
  | .group g => s.raiseFault .groupProtocol (protocolDetail g 0xFF)
  | .reader _ => s

/-- R159: a byte arrives at a receiver. HUNTING, it takes 0xC3 as SYNC and ignores any other byte;
IN_FRAME, it collects a byte that comes within the limit. The byte that ends a frame and the byte that
comes late have rows of their own and change nothing here (log 31). -/
def Receiver.take (x : Receiver) (link : Link) (byte : Byte) (now : Nat) : Receiver :=
  match x with
  | .hunting => if byte = 0xC3 then .inFrame now [] else .hunting
  | .inFrame last got =>
    if now ≤ last + Link.gapLimit link ∧ frameEnds link (got ++ [byte]) = false then
      .inFrame now (got ++ [byte])
    else .inFrame last got

/-- IN_FRAME (R159). -/
def execInFrame (link : Link) (s : State) (byte : Byte := 0xC3) : Host.Outcome State Fault Refusal :=
  whileRunning (fun s => s.setRx link ((s.rxOf link).take link byte s.now)) s

/-- R159: the late byte is examined as a possible SYNC. -/
def State.huntFrom (s : State) (l : Link) (late : Option Byte) : State :=
  s.setRx l (if late = some 0xC3 then .inFrame s.now [] else .hunting)

/-- BYTE_GAP_TIMEOUT (R159): the limit runs out after the last byte collected. -/
def execByteGapTimeout (link : Link) (late : Option Byte) (s : State) : Host.Outcome State Fault Refusal :=
  whileRunning (fun s =>
    match s.rxOf link with
    | .hunting => s
    | .inFrame last _ =>
      match s.reach (last + Link.gapLimit link) with
      | some s1 => (s1.huntFrom link late).raiseDiscard link .byteGap
      | none => s) s

/-- FRAME_DISCARD (R159). -/
def execFrameDiscard (link : Link) (bytes : List Byte) (s : State) : Host.Outcome State Fault Refusal :=
  whileRunning (fun s =>
    match discardCause link bytes with
    | some cause => (s.setRx link .hunting).raiseDiscard link cause
    | none => s) s

/-! ### Frames of the group controllers (R133, R138 to R141, R144, R160) -/

/-- GROUP_STATE (R133). -/
def execGroupState (g : Group) (accepting : Byte) (s : State) : Host.Outcome State Fault Refusal :=
  whileRunning (fun s => (s.setRx (.group g) .hunting).takeGroupState g accepting) s

/-- CAR_STATE (R144). -/
def execCarState (g : Group) (car landing motion door inService : Byte) (s : State) :
    Host.Outcome State Fault Refusal :=
  whileRunning (fun s =>
    (s.setRx (.group g) .hunting).takeCarState g car landing motion door inService) s

/-- ASSIGN (R138). -/
def execAssign (g : Group) (tag car : Byte) (s : State) : Host.Outcome State Fault Refusal :=
  whileRunning (fun s => (s.setRx (.group g) .hunting).takeAssign g tag car) s

/-- ENABLED (R139). -/
def execEnabled (g : Group) (tag : Byte) (s : State) : Host.Outcome State Fault Refusal :=
  whileRunning (fun s => (s.setRx (.group g) .hunting).takeEnabled g tag) s

/-- REFUSE (R140). -/
def execRefuse (g : Group) (tag : Byte) (s : State) : Host.Outcome State Fault Refusal :=
  whileRunning (fun s => (s.setRx (.group g) .hunting).takeRefusal g tag) s

/-- CANCELLED (R140). -/
def execCancelled (g : Group) (tag : Byte) (s : State) : Host.Outcome State Fault Refusal :=
  whileRunning (fun s => (s.setRx (.group g) .hunting).takeRefusal g tag) s

/-- UNKNOWN_GROUP_FRAME (R160). A frame of the tables is no event of this row (log 24). -/
def execUnknownGroupFrame (g : Group) (type : Byte) (payload : List Byte) (s : State) :
    Host.Outcome State Fault Refusal :=
  whileRunning (fun s =>
    if groupLength type = some payload.length then s
    else (s.setRx (.group g) .hunting).raiseFault .groupProtocol (protocolDetail g 0xFF)) s

/-! ### The tick (log 8) -/

/-- A lookup's result that waits reaches the engine (log 26). -/
def State.handResult (s : State) : State :=
  match s.engine with
  | .evaluating _ (some res) => s.engineResult res
  | _ => s

/-- The record at the head of a Reader Line's queue is sent, its labels taken from the map `z` as it
stands (R10, R109). -/
def Channel.transmit (z : ZoneMap) (ch : Channel) : Channel :=
  { ch with tx := ch.tx.tail, sending := ch.tx.head?.map (ReaderRecord.frame z.labelFor) }

/-- The frame at the head of a Group Link's queue is sent (R136). -/
def GroupMgr.transmit (m : GroupMgr) : GroupMgr :=
  { m with tx := m.tx.tail, sending := m.tx.head?.map GroupMsg.frame }

/-- The records and frames at the heads of the line queues are sent (R109, R136). -/
def State.drainLines (s : State) : State :=
  { s with
    readers := vmap (Channel.transmit s.zone) s.readers
    groups := vmap GroupMgr.transmit s.groups }

/-- What the card does of itself when no command waits: a millisecond passes, the line queues move, an
idle transmitter takes its next frame, a waiting result reaches the engine, a scan that has read its
pages is answered and an idle array takes its next operation. -/
def State.tick (s : State) : State :=
  if s.power = .running then
    ({ s.drainLines with time := { s.time with ms := min (s.time.ms + 1) 1000 } } : State)
      |>.transmitNext |>.handResult |>.answerScan |>.arbitrate |>.settle
  else s

end Sys2Proof.Machine
end

