-- ==== Sys2Proof/Machine/Seconds.lean ====
section
/-! DEFINITION. The second event (R29), the minute boundary in it (R30, R31) and the deadlines it brings:
the row of each deadline is the second event that takes that deadline first (logs 9 and 10). -/

namespace Sys2Proof.Machine

/-! ### The calendar (R29 to R31) -/

/-- R31: the day number after a midnight crossing to week-minute `w`. -/
def State.crossMidnight (s : State) (w : Nat) : State :=
  if s.cal.day < 65535 then { s with cal := { s.cal with day := s.cal.day + 1 } }
  else if s.cal.dayLimitReported then s
  else { s with cal := { s.cal with dayLimitReported := true } }.raiseNotice (.dayLimit w)

/-- R30: the week-minute advances, and the day with it at a midnight crossing. -/
def State.advanceMinute (s : State) : State :=
  let w := (s.cal.weekMinute + 1) % 10080
  let s1 := { s with cal := { s.cal with weekMinute := w, second := 0 } }
  if w % 1440 = 0 then s1.crossMidnight w else s1

/-- R22, R129, R30: what the minute boundary is delivered to: the Profile Banks and the Transfer Table. -/
def State.minuteBoundary (s : State) : State :=
  let s1 := s.advanceMinute
  let s2 := if s1.armMet then s1.takeSwitch else s1
  { s2 with transfer := s2.transfer.expire s2.cal.uptime }

/-- R29: the second event at the Calendar Clock. Uptime holds at its top. -/
def State.advance (s : State) : State :=
  let s1 := { s with
    time := { seconds := s.time.seconds + 1, ms := 0 }
    cal := { s.cal with uptime := min (s.cal.uptime + 1) 4294967295 } }
  match s.cal.state with
  | .unset => s1
  | .set =>
    if s.cal.second < 59 then { s1 with cal := { s1.cal with second := s.cal.second + 1 } }
    else s1.minuteBoundary

/-! ### The deadlines -/

def Port.isPlanning (p : Port) : Bool :=
  match p.inHand with
  | some { frame := _, wait := .planning _ _ } => true
  | _ => false

/-- R84: whether the batch expires now. The deadline is held while a BATCH COMMIT is planned. -/
def State.batchDue (s : State) : Bool :=
  s.batch.state == .open_ && !s.site.isPlanning && match s.batch.deadline with
    | some d => d ≤ s.cal.uptime
    | none => false

/-- R84. -/
def State.checkBatch (s : State) : State :=
  if s.batchDue then
    (s.mapBatch fun _ => Batch.startUp).raiseNotice (.batchExpired s.batch.edits.length)
  else s

/-- R98, R107, at one channel: its silence, then its display. -/
def State.checkChannel (s : State) (c : Chan) : State := (s.checkSilence c).checkDisplay c

def State.orderTags (s : State) (g : Group) : List Byte := (s.group g).orders.map Order.tag

/-- R133, R137, R145, at one manager: its link, its orders, its cars. -/
def State.checkGroup (s : State) (g : Group) : State :=
  let s1 := s.checkLink g
  let s2 := (s1.orderTags g).foldl (fun s t => s.checkReply g t) s1
  let s3 := (s2.orderTags g).foldl (fun s t => s.checkCancel g t) s2
  (finList 8).foldl (fun s c => s.checkHold g c) s3

/-- Every deadline reached, block by block (log 9). -/
def State.checkAll (s : State) : State :=
  (finList 6).foldl State.checkGroup ((finList 32).foldl State.checkChannel s.checkBatch)

/-- R29: a second event, `first` being taken ahead of the other blocks. The Calendar Clock takes it before any
block that keeps a deadline, and with it the minute boundary, so that what a deadline raises carries the new day
and week-minute (DESIGN CHOICE, log 9). -/
def State.secondEvent (s : State) (first : State → State) : State := (first s.advance).checkAll

/-- A deadline's event: the second event that finds it due, and nothing where the next second event does
not (log 10). Deadlines are taken at second events alone (R84, R98, R107, R133, R137, R145). -/
def State.deadlineEvent (s : State) (due : State → Bool) (deliver : State → State) : State :=
  if due s.advance then s.secondEvent deliver else s

/-! ### What is due -/

/-- R107, R100: the display deadline of a channel in state `x` is reached. -/
def State.displayDue (s : State) (c : Chan) (x : ChanState) : Bool :=
  (s.reader c).state == x && match (s.reader c).displayDeadline with
    | some d => d ≤ s.cal.uptime
    | none => false

def State.linkDue (s : State) (g : Group) : Bool :=
  (s.group g).link != .silent && (s.group g).silenceDeadline ≤ s.cal.uptime

def State.replyDue (s : State) (g : Group) (tag : Byte) : Bool :=
  match (s.group g).find tag with
  | some o => o.replyDue s.now
  | none => false

def State.cancelDue (s : State) (g : Group) (tag : Byte) : Bool :=
  match (s.group g).find tag with
  | some o => o.cancelDue s.cal.uptime
  | none => false

/-! ### The commands -/

/-- SECOND_EVENT (R29). -/
def execSecondEvent (s : State) : Host.Outcome State Fault Refusal :=
  whileRunning (fun s => s.secondEvent id) s

/-- MINUTE_BOUNDARY (R30): the second event in which the second reaches 60. -/
def execMinuteBoundary (s : State) : Host.Outcome State Fault Refusal :=
  whileRunning (fun s =>
    if s.cal.state = .set ∧ 59 ≤ s.cal.second then s.secondEvent id else s) s

/-- BATCH_EXPIRED (R84). -/
def execBatchExpired (s : State) : Host.Outcome State Fault Refusal :=
  whileRunning (fun s => s.deadlineEvent State.batchDue State.checkBatch) s

/-- READER_OFFLINE (R98). -/
def execReaderOffline (c : Chan) (s : State) : Host.Outcome State Fault Refusal :=
  whileRunning (fun s =>
    s.deadlineEvent (fun s => (s.reader c).silent s.cal.uptime) (fun s => s.checkSilence c)) s

/-- DISPLAY_DEADLINE (R107). -/
def execDisplayDeadline (c : Chan) (s : State) : Host.Outcome State Fault Refusal :=
  whileRunning (fun s =>
    s.deadlineEvent (fun s => s.displayDue c .showing) (fun s => s.checkDisplay c)) s

/-- STARTING_DISPLAY_END (R100). -/
def execStartingDisplayEnd (c : Chan) (s : State) : Host.Outcome State Fault Refusal :=
  whileRunning (fun s =>
    s.deadlineEvent (fun s => s.displayDue c .starting) (fun s => s.checkDisplay c)) s

/-- REPLY_DEADLINE (R137). -/
def execReplyDeadline (g : Group) (tag : Byte) (s : State) : Host.Outcome State Fault Refusal :=
  whileRunning (fun s => s.deadlineEvent (fun s => s.replyDue g tag) (fun s => s.checkReply g tag)) s

/-- CANCEL_DEADLINE (R137). -/
def execCancelDeadline (g : Group) (tag : Byte) (s : State) : Host.Outcome State Fault Refusal :=
  whileRunning (fun s => s.deadlineEvent (fun s => s.cancelDue g tag) (fun s => s.checkCancel g tag)) s

/-- HOLD_EXPIRY (R145). -/
def execHoldExpiry (g : Group) (car : Car) (s : State) : Host.Outcome State Fault Refusal :=
  whileRunning (fun s =>
    s.deadlineEvent (fun s => (s.group g).enables[car].due s.cal.uptime) (fun s => s.checkHold g car)) s

/-- LINK_SILENT (R133). -/
def execLinkSilent (g : Group) (s : State) : Host.Outcome State Fault Refusal :=
  whileRunning (fun s => s.deadlineEvent (fun s => s.linkDue g) (fun s => s.checkLink g)) s

end Sys2Proof.Machine
end

