-- ==== Sys2Proof/Machine/SiteCard.lean ====
section
/-! DEFINITION. The requests that belong to the card as a whole (10.3), to the Calendar Clock and the
Profile Banks (02), and to the Notice and Fault Units (11). -/

namespace Sys2Proof.Machine

/-! ### IDENTIFY and STATUS (R165, R166) -/

/-- R165: family, revision, serial number and capacities. -/
def identityBytes : List Byte :=
  u16 0x4D44 ++ u8 3 ++ u32 (Config.serial.toNat / 4294967296) ++ u32 Config.serial.toNat
    ++ u8 32 ++ u8 6 ++ u8 128 ++ u16 32768 ++ u16 544

def faultSet16 (x : BitVec 12) : List Byte := u16 x.toNat

/-- The channels of a set as its 4 bytes (10.4). -/
def channelSetBytes (p : Chan → Bool) : List Byte :=
  (List.range 4).map fun k =>
    (finList 32).foldl (fun b c => if c.val / 8 = k ∧ p c then b ||| (1#8 <<< (c.val % 8)) else b) 0

/-- R78: the uptime left to the idle deadline, none unless one runs. -/
def State.idleLeft (s : State) : Option Nat := s.batch.deadline.map fun d => d - s.cal.uptime

def Engine.code : Engine → Nat
  | .idle => 0
  | .evaluating _ _ => 1

/-- R166: the condition as STATUS reports it: USABLE until admission opens (log 39). -/
def State.reportedCondition (s : State) : Condition :=
  if s.site.phase = .open_ then s.dir.condition else .usable

def workKindByte (st : Store) : List Byte := u8 ((st.work.map fun w => w.kind.code).getD 0)

def workPhaseByte (st : Store) : List Byte := opt8 (st.work.map fun w => w.phase.code)

/-- R166: the items of STATUS in the order listed. -/
def State.statusBytes (s : State) : List Byte :=
  u8 s.site.phase.code ++ u32 s.cal.uptime ++ u8 s.cal.state.code ++ bool8 s.keyOn ++ bool8 s.faults.line
    ++ faultSet16 s.faults.status ++ u8 s.batch.state.code ++ u8 s.batch.edits.length ++ opt16 s.idleLeft
    ++ workKindByte s.store ++ workPhaseByte s.store ++ u8 s.reportedCondition.code
    ++ u8 s.queue.length ++ u8 s.engine.code ++ s.groups.toList.flatMap (fun m => u8 m.avail.code)
    ++ channelSetBytes (fun c => (s.reader c).configured && (s.reader c).state == .offline)
    ++ u8 s.notices.queue.length

/-- IDENTIFY (R165). -/
def execIdentify (r : Req) (s : State) : Host.Outcome State Fault Refusal :=
  siteRequest 0x01 r true (hasLength r 0) (fun f s => s.replyOk f identityBytes) s

/-- STATUS (R166). -/
def execStatus (r : Req) (s : State) : Host.Outcome State Fault Refusal :=
  siteRequest 0x02 r true (hasLength r 0) (fun f s => s.replyOk f s.statusBytes) s

/-! ### RESTART (R168) -/

/-- RESTART ARM (R168). -/
def execRestartArm (r : Req) (s : State) : Host.Outcome State Fault Refusal :=
  siteRequest 0x30 r false (hasLength r 0)
    (fun f s => (s.mapSite fun p => { p with restartArm := true }).replyOk f []) s

/-- RESTART (R168): judged by the arm as the request found it. -/
def execRestart (r : Req) (s : State) : Host.Outcome State Fault Refusal :=
  siteRequest 0x31 r false (hasLength r 0)
    (fun f s1 => if s.site.restartArm then s1.handOver (replyFrame f .ok [] true) else s1.refuse f .notArmed) s

/-! ### Timings (R167) -/

def clampTo (lo hi n : Nat) : Nat := max lo (min hi n)

/-- R167: the five parameters of a TIMING SET payload, clamped. -/
def timingsOf (p : List Byte) : Timings :=
  { badgeWait := clampTo 20 100 (field p 0 1), interKey := clampTo 5 50 (field p 1 1)
    carHold := clampTo 3 60 (field p 2 1), validity := clampTo 120 1800 (field p 3 2)
    batchIdle := clampTo 10 300 (field p 5 2) }

def Timings.bytes (t : Timings) : List Byte :=
  u8 t.badgeWait ++ u8 t.interKey ++ u8 t.carHold ++ u16 t.validity ++ u16 t.batchIdle

/-- R127: a lowered validity brings expiries down. -/
def TransferTable.lower (t : TransferTable) (before after : Nat) : TransferTable :=
  if after < before then
    { t with entries := t.entries.map fun e => { e with expiry := min e.expiry (e.setAt + after) } }
  else t

/-- TIMING SET (R167). -/
def execTimingSet (r : Req) (s : State) : Host.Outcome State Fault Refusal :=
  siteRequest 0x32 r false (hasLength r 7) (fun f s =>
    if !s.keyOn then s.refuse f .guarded
    else
      let t := timingsOf r.payload
      ({ s with timing := t, transfer := s.transfer.lower s.timing.validity t.validity }.queueSave).replyOk f
        t.bytes) s

/-- TIMING READ (R167). -/
def execTimingRead (r : Req) (s : State) : Host.Outcome State Fault Refusal :=
  siteRequest 0x33 r false (hasLength r 0) (fun f s => s.replyOk f s.timing.bytes) s

/-! ### The calendar (R32, R33) -/

/-- CLOCK SET (R32). -/
def execClockSet (r : Req) (s : State) : Host.Outcome State Fault Refusal :=
  siteRequest 0x03 r false (hasLength r 5) (fun f s =>
    let day := field r.payload 0 2
    let minute := field r.payload 2 2
    let second := field r.payload 4 1
    if 10079 < minute ∨ 59 < second then s.refuse f .range
    else
      let cal := { s.cal with state := .set, day := day, weekMinute := minute, second := second
                              dayLimitReported := false }
      ({ s with cal := cal }.raiseNotice
        (.clockSet s.cal.state s.cal.day s.cal.weekMinute day minute)).replyOk f []) s

/-- CLOCK READ (R33). -/
def execClockRead (r : Req) (s : State) : Host.Outcome State Fault Refusal :=
  siteRequest 0x04 r false (hasLength r 0) (fun f s =>
    s.replyOk f (u8 s.cal.state.code ++ u16 s.cal.day ++ u16 s.cal.weekMinute ++ u8 s.cal.second
      ++ u32 s.cal.uptime ++ u16 s.banks.number)) s

/-! ### The Profile Banks (R18 to R21, R26, R27) -/

/-- R163: the length of a PROFILE WRITE against the count it declares. -/
def profileFits (p : List Byte) : Bool := 3 ≤ p.length && p.length == 3 + 21 * byteAt p 2

def Banks.writeShadow (b : Banks) (n : Nat) (x : Profile) : Banks :=
  { b with shadow := b.shadow.setIfInBounds n x }

/-- PROFILE WRITE (R18). -/
def execProfileWrite (r : Req) (s : State) : Host.Outcome State Fault Refusal :=
  siteRequest 0x14 r false (profileFits r.payload) (fun f s =>
    let n := byteAt r.payload 0
    if 240 ≤ n ∧ !s.keyOn then s.refuse f .guarded
    else match profileFailure r.payload with
      | some i => s.reply f .range (u8 i)
      | none => { s with banks := s.banks.writeShadow n (profileOf r.payload) }.replyOk f []) s

/-- R19: profile `n` of a bank. -/
def Banks.read (b : Banks) (bank n : Nat) : Profile :=
  (if bank = 0 then b.active else b.shadow).toList.getD n Profile.default

/-- PROFILE READ (R19). -/
def execProfileRead (r : Req) (s : State) : Host.Outcome State Fault Refusal :=
  siteRequest 0x15 r false (hasLength r 2) (fun f s =>
    if 1 < byteAt r.payload 0 then s.refuse f .range
    else s.replyOk f (u16 s.banks.number
      ++ (s.banks.read (byteAt r.payload 0) (byteAt r.payload 1)).bytes)) s

/-- SWITCH ARM (R20). -/
def execSwitchArm (r : Req) (s : State) : Host.Outcome State Fault Refusal :=
  siteRequest 0x16 r false (hasLength r 3) (fun f s =>
    let form := byteAt r.payload 0
    let w := field r.payload 1 2
    if 1 < form ∨ 10079 < w then s.refuse f .range
    else { s with banks := { s.banks with
        arm := if form = 0 then .nextMinute else .at w } }.replyOk f []) s

/-- SWITCH DISARM (R21). -/
def execSwitchDisarm (r : Req) (s : State) : Host.Outcome State Fault Refusal :=
  siteRequest 0x17 r false (hasLength r 0) (fun f s =>
    if s.banks.arm = .none then s.refuse f .notArmed
    else { s with banks := { s.banks with arm := .none } }.replyOk f []) s

/-- R163: the length of a HOLIDAY WRITE against the count it declares. -/
def holidayFits (p : List Byte) : Bool := 1 ≤ p.length && p.length == 1 + 2 * byteAt p 0

/-- HOLIDAY WRITE (R26). -/
def execHolidayWrite (r : Req) (s : State) : Host.Outcome State Fault Refusal :=
  siteRequest 0x18 r false (holidayFits r.payload) (fun f s =>
    if !s.keyOn then s.refuse f .guarded
    else match holidayFailure r.payload with
      | some i => s.reply f .range (u8 i)
      | none =>
        ({ s with banks := { s.banks with holidays := holidaysOf r.payload } }.queueSave).replyOk f []) s

/-- HOLIDAY READ (R27). -/
def execHolidayRead (r : Req) (s : State) : Host.Outcome State Fault Refusal :=
  siteRequest 0x19 r false (hasLength r 0) (fun f s =>
    s.replyOk f (u8 s.banks.holidays.length ++ s.banks.holidays.flatMap u16)) s

/-! ### Notices and faults (R170, R174 to R176) -/

/-- NOTICE SET (R170, R171). -/
def execNoticeSet (r : Req) (s : State) : Host.Outcome State Fault Refusal :=
  siteRequest 0x2C r false (hasLength r 1) (fun f s =>
    let e := r.payload.getD 0 0
    ((s.mapNotices fun u => u.setEnables e).queueSave).replyOk f [e]) s

/-- R176: the First-Fault Record of FAULT READ. -/
def firstFaultBytes (x : Option FirstFault) : List Byte :=
  match x with
  | none => List.replicate 13 0
  | some r =>
    u8 1 ++ u8 r.kind.code ++ u32 r.uptime ++ bool8 r.date.isSome ++ dateBytes r.date ++ u16 r.detail

/-- FAULT READ (R176). -/
def execFaultRead (r : Req) (s : State) : Host.Outcome State Fault Refusal :=
  siteRequest 0x2D r false (hasLength r 0) (fun f s =>
    s.replyOk f (faultSet16 s.faults.status ++ faultSet16 s.faults.masks ++ faultSet16 s.faults.majors
      ++ bool8 s.faults.line ++ firstFaultBytes s.faults.first)) s

/-- R174: the persisting condition of a kind, with the detail of its re-raising while it holds. -/
def State.persisting (s : State) (k : FaultKind) : Option Nat :=
  match k with
  | .groupOffline =>
    ((finList 6).find? fun g => (s.zoneGroup g).present && (s.group g).link != .live).map Fin.val
  | .readerOffline =>
    ((finList 32).find? fun c => (s.reader c).configured && (s.reader c).state == .offline).map Fin.val
  | .spareLow => if s.store.spareSum < 8 then some s.store.spareSum else none
  | .storeFault => if s.dir.condition = .unusable then some s.faults.storeDetail else none
  | .clockUnset => if s.cal.state = .unset then some 0 else none
  | _ => none

/-- R174: the statuses named are cleared, and the record where it holds a kind named. -/
def FaultUnit.clear (f : FaultUnit) (named : BitVec 12) : FaultUnit :=
  { f with
    status := f.status &&& ~~~named
    first := f.first.filter fun x => !named.getLsbD x.kind.code }

/-- R174: the kinds named whose condition persists are raised again, ascending, and the line reworked. -/
def State.clearFaults (s : State) (named : BitVec 12) : State :=
  ((FaultKind.all.filter fun k => named.getLsbD k.code).foldl
    (fun s k => match s.persisting k with
      | some d => s.raiseFault k d
      | none => s) (s.mapFaults fun f => f.clear named)).reworkLine

/-- FAULT CLEAR (R174). -/
def execFaultClear (r : Req) (s : State) : Host.Outcome State Fault Refusal :=
  siteRequest 0x2E r false (hasLength r 2) (fun f s =>
    let set := field r.payload 0 2
    if 4096 ≤ set then s.refuse f .range
    else
      let s1 := s.clearFaults (BitVec.ofNat 12 set)
      s1.replyOk f (faultSet16 s1.faults.status ++ bool8 s1.faults.first.isNone)) s

/-- FAULT SET (R175). -/
def execFaultSet (r : Req) (s : State) : Host.Outcome State Fault Refusal :=
  siteRequest 0x2F r false (hasLength r 4) (fun f s =>
    let masks := field r.payload 0 2
    let majors := field r.payload 2 2
    if !s.keyOn then s.refuse f .guarded
    else if 4096 ≤ masks ∨ 4096 ≤ majors then s.refuse f .range
    else
      let s1 := (s.mapFaults fun u =>
        { u with masks := BitVec.ofNat 12 masks, majors := BitVec.ofNat 12 majors }).reworkLine
      (s1.queueSave).replyOk f (u16 masks ++ u16 majors)) s

end Sys2Proof.Machine
end

