-- ==== Sys2Proof/Machine/SiteTower.lean ====
section
/-! DEFINITION. The requests to the Zone Map (01), the reader channels (06), the Group Link Managers
(08), the Recall Inputs (09) and the Transfer Table (07). -/

namespace Sys2Proof.Machine

/-! ### Zone Map (R4 to R8) -/

/-- R6: the map is replaced. -/
def State.replaceMap (s : State) (z : ZoneMap) : State :=
  ({ s with zone := z }.mapReplaced s.zone).queueSave

/-- ZONE WRITE (R4). -/
def execZoneWrite (r : Req) (s : State) : Host.Outcome State Fault Refusal :=
  siteRequest 0x1C r false (hasLength r 614) (fun f s =>
    if !s.keyOn then s.refuse f .guarded
    else match zoneFailure r.payload (zoneOf r.payload) with
      | some (check, item) => s.reply f .range (u8 check ++ u8 item)
      | none => (s.replaceMap (zoneOf r.payload)).replyOk f []) s

/-- ZONE READ (R8). -/
def execZoneRead (r : Req) (s : State) : Host.Outcome State Fault Refusal :=
  siteRequest 0x1D r false (hasLength r 0) (fun f s => s.replyOk f s.zone.bytes) s

/-! ### Channels (R94 to R96) -/

/-- R163: the length of a CHANNEL SET against the kind it declares; an unknown kind fits (log 36). -/
def channelFits (p : List Byte) : Bool :=
  2 ≤ p.length && match byteAt p 1 with
    | 0 => p.length == 3
    | 1 => p.length == 4
    | 2 => p.length == 5
    | _ => true

/-- R94: the channel and place a payload carries, or the number of the first failing field. -/
def channelOf (p : List Byte) : Nat ⊕ (Chan × Place) :=
  if h : byteAt p 0 < 32 then
    let c : Chan := ⟨byteAt p 0, h⟩
    match byteAt p 1 with
    | 0 => .inr (c, .unused)
    | 1 => if h1 : byteAt p 2 < 128 then .inr (c, .lobby ⟨byteAt p 2, h1⟩) else .inl 3
    | 2 =>
      if h1 : byteAt p 2 < 6 then
        if h2 : byteAt p 3 < 8 then .inr (c, .car ⟨byteAt p 2, h1⟩ ⟨byteAt p 3, h2⟩) else .inl 4
      else .inl 3
    | _ => .inl 2
  else .inl 1

/-- R94: the display hold, the last byte of the payload, within 2..15. -/
def holdOf (p : List Byte) : Nat := max 2 (min 15 (p.getLastD 0).toNat)

/-- R94, R95: the configuration is stored; a change of kind or place reconfigures the channel. -/
def State.setChannel (s : State) (c : Chan) (cfg : ChanConfig) : State :=
  (if (s.reader c).cfg.place = cfg.place then s.mapReader c fun ch => { ch with cfg := cfg }
   else s.reconfigure c cfg).queueSave

/-- CHANNEL SET (R94). -/
def execChannelSet (r : Req) (s : State) : Host.Outcome State Fault Refusal :=
  siteRequest 0x20 r false (channelFits r.payload) (fun f s =>
    match channelOf r.payload with
    | .inl n => s.reply f .range (u8 n)
    | .inr (c, place) =>
      let hold := holdOf r.payload
      (s.setChannel c { place := place, hold := hold }).replyOk f (u8 hold)) s

/-- The kind and place of a channel (10.4). -/
def Place.bytes : Place → List Byte
  | .unused => u8 0 ++ [0xFF, 0xFF, 0xFF]
  | .lobby l => u8 1 ++ landing8 l ++ [0xFF, 0xFF]
  | .car g c => u8 2 ++ [0xFF] ++ u8 g.val ++ u8 c.val

/-- R96: an entry as CHANNEL READ reports it. Where none is in progress the badge flag is 0 and the
characters are three zero bytes (DESIGN CHOICE, log 53). -/
def entryBytes (e : Option Entry) : List Byte :=
  match e with
  | none => u8 0 ++ u8 0 ++ [0, 0, 0] ++ [0xFF]
  | some e => u8 1 ++ bool8 e.badge.isSome ++ labelBytes e.chars ++ u8 e.timer.code

/-- R96. A deadline already past has 0 seconds left (DESIGN CHOICE, log 54). -/
def Channel.bytes (ch : Channel) (uptime : Nat) : List Byte :=
  ch.cfg.place.bytes ++ u8 ch.cfg.hold ++ u8 ch.state.code ++ u8 ch.mark.code ++ entryBytes ch.entry
    ++ opt8 (ch.displayDeadline.map fun d => d - uptime)
    ++ opt8 (ch.silenceDeadline.map fun d => d - uptime)

/-- CHANNEL READ (R96). -/
def execChannelRead (r : Req) (s : State) : Host.Outcome State Fault Refusal :=
  siteRequest 0x21 r false (hasLength r 1) (fun f s =>
    if h : byteAt r.payload 0 < 32 then
      s.replyOk f ((s.reader ⟨byteAt r.payload 0, h⟩).bytes s.cal.uptime)
    else s.refuse f .range) s

/-! ### Groups (R148, R150, R153) -/

/-- R150: the group and configuration a payload carries, or the number of the first failing field. -/
def groupSetOf (p : List Byte) : Nat ⊕ (Group × GroupConfig) :=
  if h : byteAt p 0 < 6 then
    if 1 < byteAt p 1 then .inl 2
    else if 1 < byteAt p 2 then .inl 3
    else .inr (⟨byteAt p 0, h⟩,
      { polarity := if byteAt p 1 = 0 then .activeHigh else .activeLow
        mode := if byteAt p 2 = 0 then .level else .latched })
  else .inl 1

/-- R150: the configuration is replaced and the recall state re-derived, once it has been fixed. -/
def State.setGroup (s : State) (g : Group) (cfg : GroupConfig) : State :=
  let s1 := s.mapRecall g fun r => { r with cfg := cfg }
  let r := s1.recallOf g
  (if r.line.stable.isSome then s1.setRecall g (rederived r.active cfg.mode r.state) else s1).queueSave

def GroupConfig.bytes (c : GroupConfig) : List Byte := u8 c.polarity.code ++ u8 c.mode.code

/-- GROUP SET (R150). -/
def execGroupSet (r : Req) (s : State) : Host.Outcome State Fault Refusal :=
  siteRequest 0x24 r false (hasLength r 3) (fun f s =>
    if !s.keyOn then s.refuse f .guarded
    else match groupSetOf r.payload with
      | .inl n => s.reply f .range (u8 n)
      | .inr (g, cfg) =>
        let s1 := s.setGroup g cfg
        s1.replyOk f ((s1.recallOf g).cfg.bytes ++ u8 (s1.recallOf g).state.code)) s

/-- R148: an order as GROUP READ reports it. -/
def Order.bytes (o : Order) (now uptime : Nat) : List Byte :=
  [o.tag] ++ bool8 (match o.kind with
      | .enable _ _ _ => true
      | .call _ _ _ _ _ _ => false)
    ++ u8 o.channel.val
    ++ match o.state with
       | .sent => u8 0 ++ bool8 o.reservation.isSome ++ u32 ((now - o.sentAt) / 100)
       | .cancelling d => u8 1 ++ bool8 false ++ u8 (d - uptime)

/-- R148: the orders in tag order. -/
def GroupMgr.ordersByTag (m : GroupMgr) : List Order :=
  (List.range 256).flatMap fun t => m.orders.filter fun o => o.tag.toNat == t

def carBytes (row : CarRow) (e : CarEnable) (uptime : Nat) : List Byte :=
  optLanding row.landing ++ opt8 (row.motion.map Motion.code) ++ opt8 (row.door.map Door.code)
    ++ opt8 (row.inService.map fun b => if b then 1 else 0) ++ setBytes e.confirmed
    ++ opt8 (e.expiry.map fun d => d - uptime)

/-- R148. A silence deadline already past has 0 seconds left (DESIGN CHOICE, log 54). -/
def State.groupBytes (s : State) (g : Group) : List Byte :=
  let m := s.group g
  let r := s.recallOf g
  u8 m.avail.code ++ u8 m.link.code ++ bool8 m.accepting ++ u8 (m.silenceDeadline - s.cal.uptime)
    ++ r.cfg.bytes ++ opt8 (r.line.stable.map Level.code) ++ u8 r.state.code
    ++ [m.tagCounter] ++ u8 m.orders.length
    ++ m.ordersByTag.flatMap (fun o => o.bytes s.now s.cal.uptime)
    ++ (finList 8).flatMap fun c => carBytes m.cars[c] m.enables[c] s.cal.uptime

/-- GROUP READ (R148). -/
def execGroupRead (r : Req) (s : State) : Host.Outcome State Fault Refusal :=
  siteRequest 0x25 r false (hasLength r 1) (fun f s =>
    if h : byteAt r.payload 0 < 6 then s.replyOk f (s.groupBytes ⟨byteAt r.payload 0, h⟩)
    else s.refuse f .range) s

/-- GROUP RESUME (R153). -/
def execGroupResume (r : Req) (s : State) : Host.Outcome State Fault Refusal :=
  siteRequest 0x26 r false (hasLength r 1) (fun f s =>
    if h : byteAt r.payload 0 < 6 then
      match (s.recallOf ⟨byteAt r.payload 0, h⟩).state with
      | .held => (s.setRecall ⟨byteAt r.payload 0, h⟩ .clear).replyOk f []
      | .inRecall => s.refuse f .lineActive
      | .clear => s.refuse f .notArmed
    else s.refuse f .range) s

/-! ### Transfer Table (R130, R131) -/

/-- An entry put in ascending order of badge. -/
def insertTransfer (e : TransferEntry) : List TransferEntry → List TransferEntry
  | [] => [e]
  | a :: rest => if e.badge < a.badge then e :: a :: rest else a :: insertTransfer e rest

/-- R131: the unexpired entries from a start badge on, ascending. -/
def TransferTable.from_ (t : TransferTable) (start uptime : Nat) : List TransferEntry :=
  (t.entries.filter fun e => start ≤ e.badge && uptime < e.expiry).foldl (fun es e => insertTransfer e es) []

def TransferEntry.bytes (e : TransferEntry) (uptime : Nat) : List Byte :=
  u40 e.badge ++ landing8 e.landing ++ landing8 e.final ++ u8 e.legs ++ u16 (e.expiry - uptime)

/-- TRANSFER READ (R131). -/
def execTransferRead (r : Req) (s : State) : Host.Outcome State Fault Refusal :=
  siteRequest 0x28 r false (hasLength r 5) (fun f s =>
    let all := s.transfer.from_ (beNat r.payload) s.cal.uptime
    let given := all.take 64
    s.replyOk f (u8 given.length ++ given.flatMap (fun e => e.bytes s.cal.uptime)
      ++ bool8 (64 < all.length) ++ u8 s.transfer.entries.length ++ u16 s.transfer.evictions)) s

/-- TRANSFER PURGE (R130). -/
def execTransferPurge (r : Req) (s : State) : Host.Outcome State Fault Refusal :=
  siteRequest 0x29 r false (hasLength r 5) (fun f s =>
    let b := beNat r.payload
    if b = 0 then s.refuse f .range
    else if (s.transfer.find b).isSome then { s with transfer := s.transfer.remove b }.replyOk f []
    else s.refuse f .notFound) s

end Sys2Proof.Machine
end

