-- ==== Sys2Proof/Machine/StoreEvents.lean ====
section
/-! DEFINITION. The events at the store (03, 04, 05): the READs and trip marks the arbiter serves, and
the ends of PROGRAMs, ERASEs, MARKs and settings saves. Each starts the array's next operation. -/

namespace Sys2Proof.Machine

/-! ### The priority queue -/

/-- R60: the head of the priority queue, when the array can serve it. -/
def Store.nextPrio (st : Store) : Option PrioEntry := if st.arrayFree then st.prio.head? else none

/-- R60: an entry is removed from the priority queue when served. -/
def State.dropPrio (s : State) : State := s.mapStore fun st => { st with prio := st.prio.tail }

/-- A served READ of the engine's lookup: its result is handed over now or waits (log 26). -/
def State.engineRead (s : State) (b : Badge) (now : Bool) : State :=
  let (s1, res) := s.lookup b
  if now then s1.engineResult res
  else match s1.engine with
    | .evaluating r _ => { s1 with engine := .evaluating r (some res) }
    | .idle => s1

def State.portRead (s : State) (b : Badge) : State :=
  let (s1, res) := s.lookup b
  s1.portResult res

/-- R43: the READ at the head of the priority queue is served for the block that asked. What the block
places in this event belongs to the same suspension of an erase (DESIGN CHOICE, log 49). -/
def State.serveLookup (s : State) (now : Bool) : State :=
  match s.store.nextPrio with
  | some (.engineRead b) => (s.dropPrio.engineRead b now).arbitrate
  | some (.portRead b) => (s.dropPrio.portRead b).arbitrate
  | _ => s

/-- LOOKUP (R43, R114): a result that waits is handed to the engine; otherwise a lookup is served. -/
def execLookup (handOver : Bool) (s : State) : Host.Outcome State Fault Refusal :=
  whileRunning (fun s =>
    match s.engine, handOver with
    | .evaluating _ (some res), true => s.engineResult res
    | _, _ => s.serveLookup handOver) s

/-- The scan in hand has read its last page and waits to be answered. -/
def Port.scanned (p : Port) : Bool :=
  match p.inHand with
  | some { frame := _, wait := .scanned _ _ } => true
  | _ => false

/-- SCAN_PAGE_READ (R52, R54): a scan that waits to be answered is answered; otherwise a page read is
served, and with `reply` a scan it completes is answered in the same event (log 26). -/
def execScanPageRead (s : State) (reply : Bool := true) : Host.Outcome State Fault Refusal :=
  whileRunning (fun s =>
    if s.site.scanned && reply then s.answerScan
    else match s.store.nextPrio with
      | some .scanRead =>
        (if reply then s.dropPrio.serveScan.answerScan else s.dropPrio.serveScan).arbitrate
      | _ => s) s

/-- PLANNING_READ (R87). -/
def execPlanningRead (s : State) : Host.Outcome State Fault Refusal :=
  whileRunning (fun s =>
    match s.store.nextPrio with
    | some .planRead => (s.dropPrio.servePlan).arbitrate
    | _ => s) s

/-- COMPACT_READ (R75). -/
def execCompactRead (s : State) : Host.Outcome State Fault Refusal :=
  whileRunning (fun s =>
    match s.store.nextPrio with
    | some .compactRead => (s.dropPrio.serveCompact).arbitrate
    | _ => s) s

/-- TRIP_MARK (R48). -/
def execTripMark (s : State) : Host.Outcome State Fault Refusal :=
  whileRunning (fun s =>
    match s.store.nextPrio with
    | some (.mark b) => (s.dropPrio.serveMark b).arbitrate
    | _ => s) s

/-! ### Ends of operations -/

/-- PROGRAM_COMPLETE (R58). -/
def execProgramComplete (s : State) : Host.Outcome State Fault Refusal :=
  whileRunning (fun s =>
    match s.store.running with
    | some (.program i p) => (s.programDone i p).arbitrate
    | _ => s) s

/-- PROGRAM_FAILURE (R62). -/
def execProgramFailure (s : State) : Host.Outcome State Fault Refusal :=
  whileRunning (fun s =>
    match s.store.running with
    | some (.program i p) => (s.programFailed i p).arbitrate
    | _ => s) s

/-- ERASE_COMPLETE (R63, R64). -/
def execEraseComplete (s : State) : Host.Outcome State Fault Refusal :=
  whileRunning (fun s =>
    match s.store.running with
    | some (.eraseDir p) => (s.eraseDone p).arbitrate
    | some (.eraseLog p) => (s.logEraseDone p).arbitrate
    | _ => s) s

/-- ERASE_FAILURE (R63). -/
def execEraseFailure (s : State) : Host.Outcome State Fault Refusal :=
  whileRunning (fun s =>
    match s.store.running with
    | some (.eraseDir p) => (s.eraseFailed p).arbitrate
    | _ => s) s

/-- LOG_ERASE_FAILURE (R64). -/
def execLogEraseFailure (s : State) : Host.Outcome State Fault Refusal :=
  whileRunning (fun s =>
    match s.store.running with
    | some (.eraseLog p) => (s.logEraseFailed p).arbitrate
    | _ => s) s

/-! ### The commit-complete event (R45, R66, R76, R90) -/

/-- R90: the purge. -/
def TransferTable.purge (t : TransferTable) (bs : List Badge) : TransferTable :=
  { t with entries := t.entries.filter fun e => !bs.contains e.badge }

/-- R90: the end of a commit at Batch Control. -/
def State.endCommit (s : State) (w : Work) : State :=
  let t := s.transfer.purge s.batch.purge
  ({ s with transfer := t, batch := Batch.startUp }).raiseNotice
    (.committed
      { number := w.number, edits := s.batch.edits.length, added := w.added, removed := w.removed
        replaced := w.replaced, recordCount := s.dir.recordCount, written := w.heldPages.length
        released := w.released.length, purged := s.transfer.entries.length - t.entries.length })

/-- R76: the end of a COMPACT. -/
def State.endCompact (s : State) (w : Work) : State :=
  (s.mapDir fun d => { d with condition := .usable }).raiseNotice
    (.compactDone w.number s.dir.recordCount)

/-- R66: the Commit Log MARK of the running work `w` has completed. -/
def State.commitDone (s : State) (w : Work) : State :=
  let before := s.store.spareSum
  let s1 := (((s.mapStore fun st => st.logNumber w.number).endOp).dropWork).switchPages w
  let s2 := match w.kind with
    | .commit => s1.endCommit w
    | .compact => s1.endCompact w
  (s2.checkSpare before).restartScan

/-- COMMIT_COMPLETE (R66). -/
def execCommitComplete (s : State) : Host.Outcome State Fault Refusal :=
  whileRunning (fun s =>
    match s.store.running, s.store.work with
    | some .logMark, some w => (s.commitDone w).arbitrate
    | _, _ => s) s

/-! ### Settings saves (R68, R69) -/

/-- SETTINGS_SAVE_START (R68): the save at the head of the work queue begins when the array is free. -/
def execSettingsSaveStart (s : State) : Host.Outcome State Fault Refusal :=
  whileRunning (fun s =>
    if s.store.op = none ∧ s.store.prio = [] ∧ s.store.workQ.head? = some (.save 0)
        ∧ s.site.phase = .open_ then s.beginSave
    else s) s

/-- R68: entry `k` of the running save has ended with success and the next follows it. -/
def State.saveEntryDone (s : State) (k : Nat) : State :=
  (s.mapStore fun st => { st with workQ := .save (k + 1) :: st.workQ.tail }).endOp

/-- SETTINGS_SAVE_ENTRY_COMPLETE (R68). -/
def execSettingsSaveEntryComplete (s : State) : Host.Outcome State Fault Refusal :=
  whileRunning (fun s =>
    match s.store.running with
    | some (.saveErase k) => (s.saveEntryDone k).arbitrate
    | some (.saveProgram k) => (s.saveEntryDone (64 + k)).arbitrate
    | _ => s) s

/-- SETTINGS_SAVE_COMPLETE (R68). -/
def execSettingsSaveComplete (s : State) : Host.Outcome State Fault Refusal :=
  whileRunning (fun s =>
    match s.store.running with
    | some .saveMark => (s.saveDone).arbitrate
    | _ => s) s

/-- SETTINGS_SAVE_FAILURE (R69). -/
def execSettingsSaveFailure (s : State) : Host.Outcome State Fault Refusal :=
  whileRunning (fun s =>
    match s.store.running with
    | some (.saveErase k) => (s.saveFailed true k).arbitrate
    | some (.saveProgram k) => (s.saveFailed false k).arbitrate
    | _ => s) s

end Sys2Proof.Machine
end

