-- ==== Sys2Proof/Machine/Dispatch.lean ====
section
/-! DEFINITION. The effect of each command: one arm per constructor, each one call of its meaning. -/

namespace Sys2Proof.Machine

def exec (i : Instr) (s : State) : Host.Outcome State Fault Refusal :=
  match i with
  | .powerOn => Sys2Proof.Machine.execPowerOn s
  | .resetAsserted => Sys2Proof.Machine.execResetAsserted s
  | .resetReleased => Sys2Proof.Machine.execResetReleased s
  | .scanEnd => Sys2Proof.Machine.execScanEnd s
  | .admissionOpens => Sys2Proof.Machine.execAdmissionOpens s
  | .secondEvent => Sys2Proof.Machine.execSecondEvent s
  | .minuteBoundary => Sys2Proof.Machine.execMinuteBoundary s
  | .batchExpired => Sys2Proof.Machine.execBatchExpired s
  | .readerOffline c => Sys2Proof.Machine.execReaderOffline c s
  | .displayDeadline c => Sys2Proof.Machine.execDisplayDeadline c s
  | .startingDisplayEnd c => Sys2Proof.Machine.execStartingDisplayEnd c s
  | .interKeyTimeout c => Sys2Proof.Machine.execInterKeyTimeout c s
  | .badgeWaitTimeout c => Sys2Proof.Machine.execBadgeWaitTimeout c s
  | .replyDeadline g tag => Sys2Proof.Machine.execReplyDeadline g tag s
  | .cancelDeadline g tag => Sys2Proof.Machine.execCancelDeadline g tag s
  | .holdExpiry g car => Sys2Proof.Machine.execHoldExpiry g car s
  | .linkSilent g => Sys2Proof.Machine.execLinkSilent g s
  | .rawLevelChange input level => Sys2Proof.Machine.execRawLevelChange input level s
  | .firstStableLevel input => Sys2Proof.Machine.execFirstStableLevel input s
  | .lineBecomesActive g => Sys2Proof.Machine.execLineBecomesActive g s
  | .lineBecomesInactive g => Sys2Proof.Machine.execLineBecomesInactive g s
  | .serviceKeyChange => Sys2Proof.Machine.execServiceKeyChange s
  | .byteGapTimeout link late => Sys2Proof.Machine.execByteGapTimeout link late s
  | .frameDiscard link bytes => Sys2Proof.Machine.execFrameDiscard link bytes s
  | .siteFrameReceive type r => Sys2Proof.Machine.execSiteFrameReceive type r s
  | .transmitComplete => Sys2Proof.Machine.execTransmitComplete s
  | .unknownType type r => Sys2Proof.Machine.execUnknownType type r s
  | .identify r => Sys2Proof.Machine.execIdentify r s
  | .status r => Sys2Proof.Machine.execStatus r s
  | .clockSet r => Sys2Proof.Machine.execClockSet r s
  | .clockRead r => Sys2Proof.Machine.execClockRead r s
  | .batchOpen r => Sys2Proof.Machine.execBatchOpen r s
  | .stagePut r => Sys2Proof.Machine.execStagePut r s
  | .stageDrop r => Sys2Proof.Machine.execStageDrop r s
  | .batchCommit r => Sys2Proof.Machine.execBatchCommit r s
  | .batchAbandon r => Sys2Proof.Machine.execBatchAbandon r s
  | .compact r => Sys2Proof.Machine.execCompact r s
  | .storeStatus r => Sys2Proof.Machine.execStoreStatus r s
  | .recordRead r => Sys2Proof.Machine.execRecordRead r s
  | .directoryScan r => Sys2Proof.Machine.execDirectoryScan r s
  | .profileWrite r => Sys2Proof.Machine.execProfileWrite r s
  | .profileRead r => Sys2Proof.Machine.execProfileRead r s
  | .switchArm r => Sys2Proof.Machine.execSwitchArm r s
  | .switchDisarm r => Sys2Proof.Machine.execSwitchDisarm r s
  | .holidayWrite r => Sys2Proof.Machine.execHolidayWrite r s
  | .holidayRead r => Sys2Proof.Machine.execHolidayRead r s
  | .zoneWrite r => Sys2Proof.Machine.execZoneWrite r s
  | .zoneRead r => Sys2Proof.Machine.execZoneRead r s
  | .channelSet r => Sys2Proof.Machine.execChannelSet r s
  | .channelRead r => Sys2Proof.Machine.execChannelRead r s
  | .groupSet r => Sys2Proof.Machine.execGroupSet r s
  | .groupRead r => Sys2Proof.Machine.execGroupRead r s
  | .groupResume r => Sys2Proof.Machine.execGroupResume r s
  | .transferRead r => Sys2Proof.Machine.execTransferRead r s
  | .transferPurge r => Sys2Proof.Machine.execTransferPurge r s
  | .noticeSet r => Sys2Proof.Machine.execNoticeSet r s
  | .faultRead r => Sys2Proof.Machine.execFaultRead r s
  | .faultClear r => Sys2Proof.Machine.execFaultClear r s
  | .faultSet r => Sys2Proof.Machine.execFaultSet r s
  | .restartArm r => Sys2Proof.Machine.execRestartArm r s
  | .restart r => Sys2Proof.Machine.execRestart r s
  | .timingSet r => Sys2Proof.Machine.execTimingSet r s
  | .timingRead r => Sys2Proof.Machine.execTimingRead r s
  | .badge c badge => Sys2Proof.Machine.execBadge c badge s
  | .key c key => Sys2Proof.Machine.execKey c key s
  | .alive c => Sys2Proof.Machine.execAlive c s
  | .unknownReaderFrame c type payload => Sys2Proof.Machine.execUnknownReaderFrame c type payload s
  | .lookup handOver => Sys2Proof.Machine.execLookup handOver s
  | .scanPageRead reply => Sys2Proof.Machine.execScanPageRead s reply
  | .planningRead => Sys2Proof.Machine.execPlanningRead s
  | .compactRead => Sys2Proof.Machine.execCompactRead s
  | .tripMark => Sys2Proof.Machine.execTripMark s
  | .programComplete => Sys2Proof.Machine.execProgramComplete s
  | .programFailure => Sys2Proof.Machine.execProgramFailure s
  | .eraseComplete => Sys2Proof.Machine.execEraseComplete s
  | .eraseFailure => Sys2Proof.Machine.execEraseFailure s
  | .logEraseFailure => Sys2Proof.Machine.execLogEraseFailure s
  | .commitComplete => Sys2Proof.Machine.execCommitComplete s
  | .settingsSaveStart => Sys2Proof.Machine.execSettingsSaveStart s
  | .settingsSaveComplete => Sys2Proof.Machine.execSettingsSaveComplete s
  | .settingsSaveFailure => Sys2Proof.Machine.execSettingsSaveFailure s
  | .groupState g accepting => Sys2Proof.Machine.execGroupState g accepting s
  | .carState g car landing motion door inService => Sys2Proof.Machine.execCarState g car landing motion door inService s
  | .assign g tag car => Sys2Proof.Machine.execAssign g tag car s
  | .enabled g tag => Sys2Proof.Machine.execEnabled g tag s
  | .refuse g tag => Sys2Proof.Machine.execRefuse g tag s
  | .cancelled g tag => Sys2Proof.Machine.execCancelled g tag s
  | .unknownGroupFrame g type payload => Sys2Proof.Machine.execUnknownGroupFrame g type payload s
  | .lossOfPower => Sys2Proof.Machine.execLossOfPower s
  | .inFrame link byte => Sys2Proof.Machine.execInFrame link s byte
  | .settingsSaveEntryComplete => Sys2Proof.Machine.execSettingsSaveEntryComplete s

end Sys2Proof.Machine
end

