-- ==== Sys2Proof/Safety.lean ====
section
/-! DEFINITION. What the statements speak with: when a command finds the card able to take it, what a
reply does at the port, what a start-up leaves, which parts of the card a group of commands never
touches, and the invariants that every step keeps. -/

namespace Sys2Proof.Machine

/-! ### The card able to take a command -/

/-- The card runs and no event is half taken. -/
abbrev Runs (s : State) : Prop := s.power = .running ∧ s.notices.raised = []

/-- R162: the port takes `f` at once, `f` being the oldest frame of the queue or arriving while the
queue is empty. -/
abbrev PortReady (s : State) (f : SiteFrame) : Prop :=
  Runs s ∧ s.site.canTake = true ∧ (s.site.queue = [] ∨ s.site.queue.head? = some f)

/-- The same, with admission open. -/
abbrev PortOpen (s : State) (f : SiteFrame) : Prop := PortReady s f ∧ s.site.phase = .open_

/-- The port once it has taken a request: the frame has left the queue, or the receiver that brought it
hunts again, and the RESTART arm is CLEAR (R168). -/
def portTaken (p : Port) : Port :=
  { p with queue := p.queue.tail, rx := if p.queue = [] then .hunting else p.rx, restartArm := false }

/-- The port once the reply `t` has been handed to the transmitter, which sends it at once when idle
(R161, R162). -/
def portReplied (p : Port) (t : SiteTx) : Port :=
  { p with
    inHand := none
    sending := some (p.sending.getD t)
    waiting := if p.sending.isNone then p.waiting else some t }

/-- The card in which nothing has changed but that the request `f` has been taken and answered. -/
def answered (s : State) (f : SiteFrame) (x : Result) (detail : List Byte) : State :=
  { s with site := portReplied (portTaken s.site) (replyFrame f x detail false) }

/-- A request is answered OK with items, and changes nothing else. -/
def ReadsBack (s : State) (c : Instr) (f : SiteFrame) (items : List Byte) : Prop :=
  exec c s = .next (answered s f .ok items)

/-- A request is refused with a result and its detail, and changes nothing else. -/
def Refuses (s : State) (c : Instr) (f : SiteFrame) (x : Result) (detail : List Byte) : Prop :=
  exec c s = .next (answered s f x detail)

/-- A request is answered, and the card beside the port is as `u` has it. -/
def AnswersWith (s : State) (c : Instr) (f : SiteFrame) (x : Result) (detail : List Byte) (u : State) : Prop :=
  exec c s = .next { u with site := portReplied (portTaken s.site) (replyFrame f x detail false) }

/-- The request commands of the site request table with their TYPEs (10.4). -/
def siteCommands (r : Req) : List (Byte × Instr) :=
  [(0x01, .identify r), (0x02, .status r), (0x03, .clockSet r), (0x04, .clockRead r),
   (0x08, .batchOpen r), (0x09, .stagePut r), (0x0A, .stageDrop r), (0x0B, .batchCommit r),
   (0x0C, .batchAbandon r), (0x0D, .recordRead r), (0x0E, .directoryScan r), (0x0F, .compact r),
   (0x10, .storeStatus r), (0x14, .profileWrite r), (0x15, .profileRead r), (0x16, .switchArm r),
   (0x17, .switchDisarm r), (0x18, .holidayWrite r), (0x19, .holidayRead r), (0x1C, .zoneWrite r),
   (0x1D, .zoneRead r), (0x20, .channelSet r), (0x21, .channelRead r), (0x24, .groupSet r),
   (0x25, .groupRead r), (0x26, .groupResume r), (0x28, .transferRead r), (0x29, .transferPurge r),
   (0x2C, .noticeSet r), (0x2D, .faultRead r), (0x2E, .faultClear r), (0x2F, .faultSet r),
   (0x30, .restartArm r), (0x31, .restart r), (0x32, .timingSet r), (0x33, .timingRead r)]

/-! ### Notices and deadlines -/

/-- R171: a notice with the body `b` has been taken in the event that leaves `t`: it stands in the queue with
the present uptime, or it is withheld, its class MASKED or the queue full, and its class's pending flag is set. -/
abbrev Reported (t : State) (b : NoticeBody) : Prop :=
  QueuedNotice.notice { uptime := t.cal.uptime, body := b } ∈ t.notices.queue
    ∨ (t.notices.isPending b.cls = true
      ∧ (t.notices.enabled b.cls = false ∨ 64 ≤ t.notices.queue.length))

/-- R173: the event that leads from `s` to `t` has raised the fault `k` with a detail word: its status is set,
and, unless the kind is masked, a FAULT notice carries the severity, the detail word, whether the status was
set before the event, and the day number and week-minute while the clock is SET. -/
abbrev Raises (s t : State) (k : FaultKind) (detail : Nat) : Prop :=
  t.faults.isSet k = true
  ∧ (s.faults.masked k = false →
      Reported t (.faultRaised k (s.faults.major k) detail (s.faults.isSet k) t.date))

/-- R133: GROUP_OFFLINE has been raised, in the event that leads from `s` to `t`, for each group that the
replacement of the map makes present on a SILENT link, in ascending group number and for no other group: the
notice of each says whether the status was set before it. -/
def OfflineRaised (s t : State) : Prop :=
  let appears (g : Group) : Prop :=
    (s.zoneGroup g).present = false ∧ (t.zoneGroup g).present = true ∧ (s.group g).link = .silent
  (t.faults.isSet .groupOffline = true ↔ s.faults.isSet .groupOffline = true ∨ ∃ g, appears g)
  ∧ ∀ g, appears g → s.faults.masked .groupOffline = false →
    ∃ again, (again = true ↔ s.faults.isSet .groupOffline = true ∨ ∃ h < g, appears h)
      ∧ Reported t (.faultRaised .groupOffline (s.faults.major .groupOffline) g.val again s.date)

/-- A time of the time base that the card reaches before the second event after next. -/
abbrev Within (s : State) (ms : Nat) : Prop := ms ≤ s.time.seconds * 1000 + 1000

/-- An uptime that has come or that the next second event brings. -/
abbrev NextSecond (s : State) (uptime : Nat) : Prop :=
  uptime ≤ s.cal.uptime + 1 ∧ s.cal.uptime < 4294967295

/-! ### A group's availability (R134, R135) -/

/-- The cars of a group whose confirmed set is not empty, A..H. -/
def openedCars (m : GroupMgr) : List Car := (finList 8).filter fun car => m.enables[car].confirmed != 0

/-- R134: the GROUP notice of the group in the event that leads from `s` to `t`. -/
def groupNotice (s t : State) (g : Group) (cause : GroupCause) (change : Option RecallChange) : NoticeBody :=
  let m := s.group g
  let n := t.group g
  let left : Bool := m.avail == .inService && n.avail != .inService
  .availability
    { group := g, before := m.avail, after := n.avail, link := n.link, accepting := n.accepting, cause := cause
      removed := if left then m.orders.length else 0
      withdrawn := if left && n.avail != .offline then (openedCars m).length else 0
      recallChange := change }

/-- R97: an answer that comes to a channel with the mark DISCARD is dropped: the mark becomes NONE, and a PENDING
channel IDLE. -/
def answerDropped (x : Channel) : Channel :=
  { x with mark := .none, state := if x.state = .pending then .idle else x.state }

/-- R135, step 1, at a channel: a SENT order of the group gives it OUT_OF_SERVICE with the final landing of a
CALL and none of an ENABLE, which a mark DISCARD drops; a channel of no SENT order is told nothing. -/
def ToldOutOfService (s t : State) (g : Group) (c : Chan) : Prop :=
  let sent (o : Order) : Prop := o ∈ (s.group g).orders ∧ o.state = .sent ∧ o.channel = c
  let x := s.reader c
  (∀ o, sent o → (∀ y, sent y → y = o) →
    let dest : Option Landing := match o.kind with
      | .call _ final _ _ _ _ => some final
      | .enable _ _ _ => none
    (x.mark = .owned → t.reader c = { x with
      mark := .none, state := .showing, displayDeadline := some (t.cal.uptime + x.cfg.hold)
      tx := x.tx ++ [.show_ .outOfService none dest none, .tone .refuse] })
    ∧ (x.mark = .discard → t.reader c = answerDropped x))
  ∧ ((∀ o, ¬ sent o) → t.reader c = x)

/-- R135, steps 1 to 3, at the manager of a group that has left IN_SERVICE: no order, a WITHDRAW for each
opened car unless it is OFFLINE now, no opened car. -/
def LeftService (s t : State) (g : Group) : Prop :=
  (t.group g).orders = []
  ∧ (t.group g).tx = (s.group g).tx
      ++ (if (t.group g).avail = .offline then [] else (openedCars (s.group g)).map GroupMsg.withdraw)
  ∧ ∀ car : Car, (t.group g).enables[car] = { confirmed := 0, expiry := none }

/-! ### Reader lines -/

/-- The card in which a valid frame on the line of `c` has set its silence deadline (R98) and the channel
has then changed by `f`. -/
def heard (s : State) (c : Chan) (f : Channel → Channel) : State :=
  s.mapReader c fun ch => f { ch with silenceDeadline := some (s.cal.uptime + 3), rx := .hunting }

/-! ### The array -/

/-- The command ends in `u`, after which the array takes its next operation and the notices of the event
are taken (R60, R171). -/
def ThenArray (c : Instr) (s u : State) : Prop := exec c s = .next u.arbitrate.settle

/-- The array can serve the priority queue, whose entries are `e` and then `rest`. -/
abbrev Serves (s : State) (e : PrioEntry) (rest : List PrioEntry) : Prop :=
  Runs s ∧ s.store.arrayFree = true ∧ s.store.prio = e :: rest

/-- The array runs the operation `k`, not suspended. -/
abbrev Works (s : State) (k : OpKind) : Prop :=
  Runs s ∧ ∃ n, s.store.op = some { kind := k, suspensions := n, suspended := false }

/-- R64, R66: the work queue goes from `q` to `q'` where a work stands in LOGGING: its Commit Log MARK joins,
the erase of the log page ahead of it where slot 0 of a page not wholly erased comes next. Nothing joins
while an abandoned page stands or where the MARK is queued already. -/
def MarkQueued (st : Store) (q q' : List WorkEntry) : Prop :=
  let waits : Prop :=
    .logMark ∈ q ∨ ∃ p, st.stateOf p = .stale .abandoned ∨ st.stateOf p = .erasing .abandoned
  let eraseFirst : Prop := st.logSlot = 0 ∧ ∃ i : Fin 64, st.log[st.logPage][i] ≠ none
  (waits → q' = q)
  ∧ (¬ waits → eraseFirst → q' = q ++ [.logErase st.logPage, .logMark])
  ∧ (¬ waits → ¬ eraseFirst → q' = q ++ [.logMark])

/-- R59: the event that leads from `s` to `u` retires a page or switches the index and leaves the spare sum of
`st`: SPARE_LOW is raised with the sum where that falls from 8 or more to below 8, and not otherwise (log 20).
The sum counts the ERASING page (log 19). -/
def SpareChecked (s u : State) (st : Store) : Prop :=
  let sum (x : Store) : Nat :=
    x.pageState.toList.countP fun x => x == .free || x.isStale || x.isErasing || x == .writing
  (8 ≤ sum s.store → sum st < 8 → u.faults.isSet .spareLow = true
    ∧ (s.faults.masked .spareLow = false → Reported u.arbitrate.settle
        (.faultRaised .spareLow (s.faults.major .spareLow) (sum st) (s.faults.isSet .spareLow) s.date)))
  ∧ (sum s.store < 8 ∨ 8 ≤ sum st → u.faults.isSet .spareLow = s.faults.isSet .spareLow)

/-- R62, R91: the running work `w` ends with COMMIT_FAIL in the event that leads from `s` to `u`: its held pages
become abandoned and join the erase queue, its entries leave the work queue, a commit's batch is closed with its
notice, a COMPACT is reported (its contents log 22's), and the directory and the Transfer Table stay. -/
def WorkFails (s u : State) (w : Work) (cause : FailCause) : Prop :=
  u.store.work = none ∧ Raises s u.arbitrate.settle .commitFail (w.number % 65536)
  ∧ (∀ q ∈ w.heldPages, u.store.stateOf q = .stale .abandoned ∧ q ∈ u.store.eraseQ)
  ∧ (∀ x ∈ u.store.workQ, x.ofWork = false) ∧ u.dir = s.dir ∧ u.transfer = s.transfer
  ∧ (w.kind = .commit → u.batch = Batch.startUp ∧ Reported u.arbitrate.settle
      (.commitFailed w.number s.batch.edits.length w.heldPages.length cause))
  ∧ (w.kind = .compact → u.batch = s.batch ∧ Reported u.arbitrate.settle .compactFailed)

/-! ### The engine's next requests (R112, R114) -/

/-- R112: the requests of a queue in the order the engine takes them: the CAR requests, then the LOBBY
requests, each oldest first. -/
def takingOrder (q : List Request) : List Request :=
  q.filter Request.isCar ++ q.filter fun r => !r.isCar

/-- R114: the requests of the queue that an engine becoming IDLE decides at once: those ahead of the first
with a badge, or all of them where the directory is UNUSABLE (log 55). -/
def State.decidedAtOnce (s : State) : List Request :=
  if s.dir.condition = .usable then (takingOrder s.queue).takeWhile fun r => r.badge.isNone
  else takingOrder s.queue

/-- R112, R114: the engine of `s` becomes IDLE in an event that leaves `t`: it decides at once what it can
(log 55), and then takes the next request, whose READ joins the priority queue `prio`, or rests with the
queue empty. The queue holds at most one request of a channel. -/
def EngineGoesOn (s t : State) (prio : List PrioEntry) : Prop :=
  (s.queue.map Request.channel).Nodup →
  (∀ r ∈ s.decidedAtOnce, ∃ d, Reported t (.decision d) ∧ d.channel = r.channel ∧ d.badge = r.badge
    ∧ d.wait = s.cal.uptime - r.arrival)
  ∧ (takingOrder s.queue = s.decidedAtOnce → t.engine = .idle ∧ t.queue = [] ∧ t.store.prio = prio)
  ∧ ∀ next left who, takingOrder s.queue = s.decidedAtOnce ++ next :: left → next.badge = some who →
    t.engine = .evaluating next none ∧ t.store.prio = prio ++ [.engineRead who]
    ∧ t.queue = s.queue.filter fun r => left.contains r

/-- R136: the tag a manager gives a new order: the first after its tag counter that no order on its list
holds. -/
def GivenTag (m : GroupMgr) (tag : Byte) : Prop :=
  let held (t : Byte) : Prop := ∃ o ∈ m.orders, o.tag = t
  ∃ n ≤ 32, tag = m.tagCounter + 1 + BitVec.ofNat 8 n ∧ ¬ held tag
    ∧ ∀ k < n, held (m.tagCounter + 1 + BitVec.ofNat 8 k)

/-! ### Queueing a settings save (R68) -/

/-- The store once a change has queued a settings save. -/
def saveQueued (st : Store) : Store :=
  match st.save.state with
  | .idle => { st with workQ := st.workQ ++ [.save 0], save := { st.save with state := .queued } }
  | .queued => st
  | .running => { st with save := { st.save with pending := true } }

/-! ### Start-up -/

/-- What every start-up leaves, `s` being the card it finds (R28, R71, R93, R132, R154, R162, R170,
R169, R173): every volatile block at its start-up values, the inputs and the faults among them, the store's
pages, log, area and counter as they stood (R92; log 46), and CLOCK_UNSET raised. The directory, the page states
and the log position before the scan, and the detail STORE_FAULT is raised again with, are log 5's. -/
structure StartedUp (s t : State) : Prop where
  power : t.power = .running
  time : t.time = { seconds := 0, ms := 0 }
  cal : t.cal = Calendar.startUp
  banks : t.banks = { active := Vector.replicate 256 Profile.default
                      shadow := Vector.replicate 256 Profile.default
                      number := 0, arm := .none, holidays := [] }
  timing : t.timing = Timings.default
  zone : t.zone = ZoneMap.default
  readers : t.readers = Vector.replicate 32 Channel.startUp
  queue : t.queue = []
  engine : t.engine = .idle
  transfer : t.transfer = TransferTable.startUp
  batch : t.batch = Batch.startUp
  dir : t.dir = Directory.startUp
  groups : t.groups = Vector.replicate 6 GroupMgr.startUp
  recallInputs : ∀ g, t.recallOf g =
    { cfg := { polarity := .activeHigh, mode := .level }
      line := { raw := (s.recallOf g).line.raw, stable := none, since := some 0 }
      state := .inRecall, fixed := false }
  key : t.key = { raw := s.key.raw, stable := none, since := some 0 }
  keyOff : t.keyOn = false
  resetReleased : t.resetIn =
    { raw := s.resetIn.raw, stable := some .low, since := if s.resetIn.raw = .high then some 0 else none }
  site : t.site = Port.startUp
  pages : t.store.pages = s.store.pages
  log : t.store.log = s.store.log
  area : t.store.area = s.store.area
  counter : t.store.counter = s.store.counter
  array : t.store.op = none ∧ t.store.prio = [] ∧ t.store.workQ = [] ∧ t.store.eraseQ = []
    ∧ t.store.work = none ∧ t.store.capped = 0
  unscanned : t.store.pageState = Vector.replicate 544 .free ∧ t.store.logPage = 0 ∧ t.store.logSlot = 0
  save : t.store.save = Save.startUp
  notices : t.notices = { NoticeUnit.startUp with queue := [.notice clockUnsetNotice] }
  status : t.faults.status = FaultKind.clockUnset.bit
  first : t.faults.first = some { kind := .clockUnset, uptime := 0, date := none, detail := 0 }
  line : t.faults.line = false
  masks : t.faults.masks = 0
  severities : ∀ k : FaultKind, t.faults.major k = true ↔ k ∈ [FaultKind.groupOffline, .storeProgramFail,
    .spareLow, .storeFault, .settingsLost, .commitFail]
  storeDetail : t.faults.storeDetail = 0
  draws : t.free = s.free
  commands : t.pending = s.pending

/-! ### Parts of the card that a group of commands leaves alone -/

/-- The tower's settings, the inputs, the calendar and the time base are unchanged. -/
structure SameTower (s t : State) : Prop where
  power : t.power = s.power
  time : t.time = s.time
  cal : t.cal = s.cal
  banks : t.banks = s.banks
  zone : t.zone = s.zone
  timing : t.timing = s.timing
  recallIn : t.recallIn = s.recallIn
  key : t.key = s.key
  resetIn : t.resetIn = s.resetIn
  free : t.free = s.free
  commands : t.pending = s.pending

/-- The nonvolatile store and the work on it are unchanged; requests may join the priority queue and an
erase be suspended for them. -/
structure SameStore (s t : State) : Prop where
  dir : t.dir = s.dir
  pages : t.store.pages = s.store.pages
  pageState : t.store.pageState = s.store.pageState
  log : t.store.log = s.store.log
  workQ : t.store.workQ = s.store.workQ
  eraseQ : t.store.eraseQ = s.store.eraseQ
  work : t.store.work = s.store.work
  area : t.store.area = s.store.area
  save : t.store.save = s.store.save
  counter : t.store.counter = s.store.counter

/-! ### Ranges of badge numbers (R41) -/

/-- The ranges, in their order, partition the badge numbers from `low` to the highest. -/
def tiles : Badge → List (Badge × Badge) → Bool
  | low, [] => low == topBadge + 1
  | low, r :: rest => r.1 == low && r.1 ≤ r.2 && tiles (r.2 + 1) rest

def IndexEntry.range (e : IndexEntry) : Badge × Badge := (e.low, e.high)

def Copy.range (c : Copy) : Badge × Badge := (c.low, c.high)

/-- Ranges that partition the badge numbers once put in order. -/
abbrev Partition (rs : List (Badge × Badge)) : Prop := ∃ l, l.Perm rs ∧ tiles 1 l = true

/-- The programmed pages carry ranges of badge numbers. -/
abbrev HeadersInRange (st : Store) : Prop :=
  ∀ p x, (st.page p).contents = .programmed x → 1 ≤ x.low ∧ x.high ≤ topBadge

/-! ### Invariants -/

/-- R171: the Notice Queue holds at most 64, and no notice is left half raised. -/
abbrev NoticesBounded (s : State) : Prop := s.notices.raised = [] ∧ s.notices.queue.length ≤ 64

/-- R162, R111: the receive queue holds at most 4 frames, the Admission Queue at most 64 requests. -/
abbrev QueuesBounded (s : State) : Prop := s.site.queue.length ≤ 4 ∧ s.queue.length ≤ 64

/-- R157: the fault output line, from the phase and the Fault Unit's sets. -/
abbrev LineRight (s : State) : Prop :=
  s.faults.line = (s.site.phase == .open_ && s.faults.status &&& ~~~s.faults.masks &&& s.faults.majors != 0)

/-- The ranges of the calendar (2.6). -/
abbrev CalendarInRange (s : State) : Prop :=
  s.cal.day ≤ 65535 ∧ s.cal.weekMinute ≤ 10079 ∧ s.cal.second ≤ 59 ∧ s.cal.uptime ≤ 4294967295

/-- R134: every group's availability follows from its recall state, link condition and accepting
flag. -/
abbrev AvailabilityRight (s : State) : Prop := ∀ g, (s.group g).avail = s.availability g

/-- R135: a group out of service has no order and no car opened. -/
abbrev OutOfServiceEmpty (s : State) : Prop :=
  ∀ g, (s.group g).avail ≠ .inService →
    (s.group g).orders = [] ∧ ∀ car : Car, (s.group g).enables[car].confirmed = 0

/-- R136: an Order List holds at most 32 orders, no two of one tag. -/
abbrev OrdersRight (s : State) : Prop :=
  ∀ g, (s.group g).orders.length ≤ 32 ∧ ((s.group g).orders.map Order.tag).Nodup

/-- R127: the Transfer Table holds at most 128 entries, no two of one badge, none that expires later than
the transfer validity after it was set. -/
abbrev TransferRight (s : State) : Prop :=
  s.transfer.entries.length ≤ 128 ∧ (s.transfer.entries.map TransferEntry.badge).Nodup
    ∧ ∀ e ∈ s.transfer.entries, e.expiry ≤ e.setAt + s.timing.validity

/-- R97, R111: the channels with an admission in progress, in the queue, under evaluation or in a SENT
order. -/
def State.admissions (s : State) : List Chan :=
  s.queue.map Request.channel
    ++ (match s.engine with
        | .idle => []
        | .evaluating r _ => [r.channel])
    ++ s.groups.toList.flatMap fun m => (m.orders.filter fun o => o.state.isSent).map Order.channel

/-- R97: no channel has two admissions in progress, and the channel of each waits for it: PENDING and
OWNED, or with the mark DISCARD in a state that asks for none. -/
abbrev OneAdmissionEach (s : State) : Prop :=
  s.admissions.Nodup ∧ ∀ c ∈ s.admissions,
    ((s.reader c).mark = .owned ∧ (s.reader c).state = .pending)
    ∨ ((s.reader c).mark = .discard ∧ (s.reader c).state ∈ [ChanState.pending, .offline, .unused])

/-- R28, R93, R111, R114, R127, R132: until admission opens no admission is in progress, no order and no
journey stands, and every channel is STARTING. -/
abbrev QuietUntilOpen (s : State) : Prop :=
  s.site.phase ≠ .open_ → s.queue = [] ∧ s.engine = .idle ∧ (∀ g, (s.group g).orders = [])
    ∧ s.transfer.entries = [] ∧ ∀ c, (s.reader c).state = .starting ∧ (s.reader c).mark = .none

/-- R79: the Edit Buffer holds at most 64 edits, no two for one badge, none while CLOSED; an edit whose
protection is being looked up has its place. -/
abbrev BatchRight (s : State) : Prop :=
  s.batch.edits.length ≤ 64 ∧ (s.batch.edits.map Edit.badge).Nodup
    ∧ (s.batch.state = .closed → s.batch.edits = [])
    ∧ ∀ f e, s.site.inHand = some { frame := f, wait := .stage e } →
        s.batch.edits.length < 64 ∨ ∃ x ∈ s.batch.edits, x.badge = e.badge

/-- R46: no record on a page has more trip marks than its budget, and a record that an edit brings has
none. -/
abbrev MarksWithinBudget (s : State) : Prop :=
  (∀ p x r n, (s.store.page p).contents = .programmed x → r ∈ x.records → r.budget = some n →
    r.marks ≤ n)
  ∧ ∀ w c pr r, s.store.work = some w → c ∈ w.copies → pr ∈ c.records → pr.fresh = some r → r.slots = 0

/-- R57: a page is ERASING or WRITING only as the array's operation says, so at most one is. -/
abbrev OnePageAtATime (s : State) : Prop :=
  (∀ p, (s.store.stateOf p).isErasing = true → s.store.op.map ArrayOp.kind = some (.eraseDir p))
  ∧ ∀ p, s.store.stateOf p = .writing → ∃ i, s.store.op.map ArrayOp.kind = some (.program i p)

/-- R39: the record count is the sum of the counts of the pages in the Page Index. -/
abbrev CountRight (s : State) : Prop := s.dir.recordCount = (s.dir.index.map IndexEntry.count).sum

/-- R65, R91, R92: the commit counter stands above the number of the running work. -/
abbrev NumberSpent (s : State) : Prop := ∀ w, s.store.work = some w → w.number < s.store.counter

/-- R112: an IDLE engine has left no request in the queue. -/
abbrev EngineAtWork (s : State) : Prop := s.engine = .idle → s.queue = []

/-- R3, R68: from its first erase until its complete mark a save leaves the area without a complete
image. -/
abbrev RunningSaveHasNoImage (s : State) : Prop :=
  s.store.save.state = .running → s.store.area.complete = false

/-- R41: the Page Index is in the order of its low bounds, and after the scan the ranges of a USABLE
directory partition the badge numbers. -/
abbrev IndexRight (s : State) : Prop :=
  s.dir.index.Pairwise (fun a b => a.low ≤ b.low)
  ∧ (s.site.phase ≠ .scanning → s.dir.condition = .usable →
      tiles 1 (s.dir.index.map IndexEntry.range) = true)

/-! ### Invariants of the running work and the pages (R41, R57 to R66, R75, R87 to R90) -/

/-- R40, R41, R57: the entries of the Page Index ascend and lie apart, each within the badge numbers, and
each names a DATA page of its own. -/
abbrev IndexApart (s : State) : Prop :=
  s.dir.index.Pairwise (fun a b => a.high < b.low) ∧ (s.dir.index.map IndexEntry.page).Nodup
  ∧ ∀ e ∈ s.dir.index, 1 ≤ e.low ∧ e.low ≤ e.high ∧ e.high ≤ topBadge ∧ s.store.stateOf e.page = .data

/-- R40: a programmed page carries a range of badge numbers and at most 64 records. -/
abbrev PagesRight (st : Store) : Prop :=
  HeadersInRange st ∧ ∀ p x, (st.page p).contents = .programmed x → x.records.length ≤ 64

/-- R41, R75, R87: once its copies are fixed, the ranges of a running work's copies with those of the index
entries it does not replace partition the badge numbers. -/
abbrev CopiesTile (s : State) : Prop :=
  ∀ w, s.store.work = some w → w.phase ≠ .reading →
    Partition ((s.dir.index.filter fun e => !w.released.contains e.page).map IndexEntry.range
      ++ w.copies.map Copy.range)

/-- The page `p` is programmed with the range of the copy `c`. -/
abbrev CarriesRange (st : Store) (p : Page) (c : Copy) : Prop :=
  ∃ x, (st.page p).contents = .programmed x ∧ x.low = c.low ∧ x.high = c.high

/-- R57, R58: each programmed copy of the running work stands with its range on a held page of its own. -/
abbrev CopiesHeld (s : State) : Prop :=
  ∀ w, s.store.work = some w → w.heldPages.Nodup
    ∧ ∀ c ∈ w.copies, ∀ p, c.page = some p → s.store.stateOf p = .stale .held ∧ CarriesRange s.store p c

/-- R66, R75, R87: the running work in its phase. The pages it replaces are pages of the index, and no copy
has more than 64 records. READING, it has no copy yet: it has read the entries of the index from the first
on, and what it has gathered is in badge order, below the entries still to read. After that nothing is left
to read, and in LOGGING every copy is programmed. -/
abbrev WorkInPhase (s : State) : Prop :=
  ∀ w, s.store.work = some w →
    (∀ c ∈ w.copies, c.records.length ≤ 64) ∧ (∀ p ∈ w.released, ∃ e ∈ s.dir.index, e.page = p)
    ∧ (w.phase = .logging → w.unprogrammed = 0) ∧ (w.phase ≠ .reading → w.todo = [])
    ∧ (w.phase = .reading → w.copies = [] ∧ (∃ read, s.dir.index = read ++ w.todo)
      ∧ orderedWithin 1 topBadge w.gathered = true ∧ ∀ r ∈ w.gathered, ∀ e ∈ w.todo, r.badge < e.low)

/-- R58, R60, R63, R66: what the array does belongs to its page and to the running work: a PROGRAM writes the
range of a copy of it, an ERASE of a directory page has it ERASING, and a Commit Log MARK is the head of the
work queue and stands in it once, of a work in LOGGING. -/
abbrev ArrayOnWork (s : State) : Prop :=
  (∀ i p, s.store.op.map ArrayOp.kind = some (.program i p) → s.store.stateOf p = .writing
    ∧ ∃ w c, s.store.work = some w ∧ w.phase ≠ .reading ∧ w.copies[i]? = some c ∧ CarriesRange s.store p c)
  ∧ (∀ p, s.store.op.map ArrayOp.kind = some (.eraseDir p) → (s.store.stateOf p).isErasing = true)
  ∧ (s.store.op.map ArrayOp.kind = some .logMark → s.store.workQ.head? = some .logMark)
  ∧ s.store.workQ.count .logMark ≤ 1
  ∧ (.logMark ∈ s.store.workQ → ∃ w, s.store.work = some w ∧ w.phase = .logging)

/-- R57, R58: the erase queue holds abandoned and superseded pages, each once, and no held one. -/
abbrev EraseQueueRight (s : State) : Prop :=
  s.store.eraseQ.Nodup
  ∧ ∀ p ∈ s.store.eraseQ, s.store.stateOf p = .stale .abandoned ∨ s.store.stateOf p = .stale .superseded

/-- R80, R84, R86, R87: while a batch is OPEN no work runs and the directory is USABLE; a BATCH COMMIT is
planned for an OPEN batch, from pages that have passed their read check. -/
abbrev PlanRight (s : State) : Prop :=
  (s.batch.state = .open_ → s.dir.condition = .usable ∧ s.store.work = none)
  ∧ ∀ f todo done, s.site.inHand = some { frame := f, wait := .planning todo done } → s.batch.state = .open_
    ∧ ∀ x ∈ done, orderedWithin x.1.low x.1.high x.2 = true ∧ x.2.length ≤ 64

/-- R71, R78, R162, R163: until admission opens there is no batch, no request in hand and no work, and the
array does nothing. -/
abbrev StoreQuietUntilOpen (s : State) : Prop :=
  s.site.phase ≠ .open_ →
    s.batch.state = .closed ∧ s.site.inHand = none ∧ s.store.work = none ∧ s.store.op = none

/-- The invariant of the pages and the running work, under which the commit-complete event leaves the Page
Index a partition. -/
structure WorkRight (s : State) : Prop where
  apart : IndexApart s
  pages : PagesRight s.store
  tile : CopiesTile s
  held : CopiesHeld s
  inPhase : WorkInPhase s
  array : ArrayOnWork s
  eraseQueue : EraseQueueRight s
  plan : PlanRight s
  quiet : StoreQuietUntilOpen s

/-- At the completing MARK of a work the ranges of its new pages, with those of the pages it keeps, form a
partition. -/
abbrev MarkPartitions (s : State) : Prop :=
  ∀ w, s.store.work = some w → s.store.running = some .logMark →
    Partition ((s.dir.index.filter fun e => !w.released.contains e.page).map IndexEntry.range
      ++ (w.heldPages.filterMap s.store.entryOf).map IndexEntry.range)

/-! ### Invariants of the lines -/

/-- R98, R109: no record waits on the line of an OFFLINE channel, and on that of an UNUSED one at most the
blank form of the display that its reconfiguration or the opening ended (R95, R100; log 35). -/
abbrev QuietLines (s : State) : Prop :=
  ∀ c, ((s.reader c).state = .offline → (s.reader c).tx = [])
    ∧ ((s.reader c).state = .unused → (s.reader c).tx = [] ∨ (s.reader c).tx = [.blank])

/-- R169: a card unpowered or held asserts no line and sends nothing. -/
abbrev SilentWhenDown (s : State) : Prop :=
  s.power ≠ .running → s.faults.line = false ∧ s.site.sending = none ∧ s.site.waiting = none
    ∧ (∀ c, (s.reader c).tx = [] ∧ (s.reader c).sending = none)
    ∧ ∀ g, (s.group g).tx = [] ∧ (s.group g).sending = none

end Sys2Proof.Machine
end

