-- ==== Sys2Proof/Certificates/Slice0/Obligations.lean ====
section
/-! DEFINITION. The statements about the card. -/

open Sys2Proof Sys2Proof.Machine

/-! ### The step, the state at reset, the wire -/

/-- A step takes the command at the front of the queue and answers what it does to the card with the
queue's rest (logs 7 and 8: the queue is the model's). -/
def Obligations.StepRunsTheFrontCommand : Prop :=
  ∀ (c : Instr) (rest : List Instr) (s : State),
    step { s with pending := c :: rest } = exec c { s with pending := rest }

/-- The values of the tables of 2.6, 5.1, 8.1, 9.1, 10.2 and of R93, R103, R127, R167, R170 and R173 in
the state at reset, with the notice enables of R170, the masks and the severities of R173 and the inputs of
R149, R154, R155 and R169, and the invariants of the statements below. That reset is the start of start-up of a
factory card is log 1, and that every raw level is LOW then is log 4. -/
def Obligations.ResetHoldsTheStartUpValues : Prop :=
  State.reset.cal = { state := .unset, day := 0, weekMinute := 0, second := 0
                      dayLimitReported := false, uptime := 0 }
  ∧ State.reset.batch = { state := .closed, edits := [], deadline := none, commit := none, purge := [] }
  ∧ (∀ g, (State.reset.group g).link = .waiting ∧ (State.reset.group g).silenceDeadline = 5
      ∧ (State.reset.group g).accepting = false ∧ (State.reset.group g).avail = .inRecall
      ∧ (State.reset.group g).orders = [] ∧ (State.reset.group g).tagCounter = 255)
  ∧ (∀ g, State.reset.recallOf g =
      { cfg := { polarity := .activeHigh, mode := .level }
        line := { raw := .low, stable := none, since := some 0 }, state := .inRecall, fixed := false })
  ∧ State.reset.key = { raw := .low, stable := none, since := some 0 }
  ∧ State.reset.resetIn = { raw := .low, stable := some .low, since := none }
  ∧ State.reset.notices.enables = 0xFE#8 ∧ State.reset.notices.pending = 0
  ∧ State.reset.faults.masks = 0
  ∧ (∀ k : FaultKind, State.reset.faults.major k = true ↔ k ∈ [FaultKind.groupOffline, .storeProgramFail,
      .spareLow, .storeFault, .settingsLost, .commitFail])
  ∧ (∀ c, (State.reset.reader c).state = .starting ∧ (State.reset.reader c).mark = .none
      ∧ (State.reset.reader c).entry = none ∧ (State.reset.reader c).cfg.hold = 5)
  ∧ State.reset.site.phase = .scanning ∧ State.reset.site.queue = [] ∧ State.reset.site.seq = 0
  ∧ State.reset.queue = [] ∧ State.reset.engine = .idle ∧ State.reset.transfer.entries = []
  ∧ State.reset.timing = { badgeWait := 40, interKey := 15, carHold := 10, validity := 600, batchIdle := 30 }
  ∧ State.reset.faults.status = FaultKind.clockUnset.bit ∧ State.reset.faults.line = false
  ∧ State.reset.faults.first = some { kind := .clockUnset, uptime := 0, date := none, detail := 0 }
  ∧ State.reset.store.counter = 1 ∧ State.reset.keyOn = false
  ∧ NoticesBounded State.reset ∧ QueuesBounded State.reset ∧ CalendarInRange State.reset
  ∧ LineRight State.reset ∧ SilentWhenDown State.reset ∧ QuietLines State.reset
  ∧ AvailabilityRight State.reset ∧ OutOfServiceEmpty State.reset ∧ OrdersRight State.reset
  ∧ TransferRight State.reset ∧ QuietUntilOpen State.reset ∧ OneAdmissionEach State.reset
  ∧ BatchRight State.reset ∧ MarksWithinBudget State.reset ∧ OnePageAtATime State.reset
  ∧ NumberSpent State.reset ∧ CountRight State.reset ∧ IndexRight State.reset ∧ HeadersInRange State.reset.store
  ∧ EngineAtWork State.reset ∧ RunningSaveHasNoImage State.reset ∧ WorkRight State.reset

/-- The frame of R158 with its CRC, whose check value is known, and what 10.4 lays out in it: numbers and
optional items, replies, the messages to the groups, the records to the readers, the contents of each of the 14
notices, the credential record and the profile; and the codes of 10.2 to 10.4 and of chapter 11 for results,
answers, reasons, tones, enumerated items, fault kinds and notices, in the order of their numbers from the
first one on. The model's choices: an absent badge as badge number 0, MAJOR as 1, and W as none beside an arm
that has no week-minute (log 23), COMPACT_FAILED with no contents (log 22), and a wait above 65,535 s as its
low 16 bits (log 61). -/
def Obligations.FramesAndCodesOnTheWire : Prop :=
  let from0 (codes : List Nat) : Prop := codes = List.range codes.length
  let from1 (codes : List Nat) : Prop := codes = (List.range codes.length).map (· + 1)
  let byte (n : Nat) : Byte := BitVec.ofNat 8 n
  let date (d : Date) : List Byte := opt16 (d.map Prod.fst) ++ opt16 (d.map Prod.snd)
  crc16 [0x31, 0x32, 0x33, 0x34, 0x35, 0x36, 0x37, 0x38, 0x39] = 0x29B1#16
  ∧ (∀ n : Nat, u8 n = [byte n] ∧ u16 n = [byte (n / 256), byte n]
      ∧ u32 n = [byte (n / 16777216), byte (n / 65536), byte (n / 256), byte n]
      ∧ u40 n = byte (n / 4294967296) :: u32 n
      ∧ opt8 (some n) = u8 n ∧ opt16 (some n) = u16 n ∧ opt32 (some n) = u32 n)
  ∧ opt8 none = [0xFF] ∧ opt16 none = [0xFF, 0xFF] ∧ opt32 none = [0xFF, 0xFF, 0xFF, 0xFF]
  ∧ bool8 false = [0] ∧ bool8 true = [1]
  ∧ beNat [] = 0 ∧ (∀ (bs : List Byte) (b : Byte), beNat (bs ++ [b]) = 256 * beNat bs + b.toNat)
  ∧ (∀ (bs : List Byte) (i k : Nat), byteAt bs i = (bs.getD i 0).toNat
      ∧ field bs i k = beNat ((bs.drop i).take k))
  ∧ (∀ type tag : Byte, ∀ p : List Byte,
      let head : List Byte := [BitVec.ofNat 8 (p.length / 256), BitVec.ofNat 8 p.length, type, tag]
      let crc := (crc16 (head ++ p)).toNat
      frameBytes type tag p
        = [0xC3] ++ head ++ p ++ [BitVec.ofNat 8 (crc / 256), BitVec.ofNat 8 crc])
  ∧ (∀ (set : LandingSet) (l : Landing), (setBytes set).length = 16
      ∧ ((setBytes set).getD (l.val / 8) 0).getLsbD (l.val % 8) = set.getLsbD l.val)
  ∧ (∀ cs : List Byte, cs.length ≤ 3 → labelBytes cs = cs ++ List.replicate (3 - cs.length) 0)
  ∧ (∀ (f : SiteFrame) (x : Result) (detail : List Byte) (restart : Bool),
      replyFrame f x detail restart = { type := f.type + 0x80, tag := f.req.tag
                                        payload := [BitVec.ofNat 8 x.code] ++ detail, restart := restart })
  ∧ (∀ (tag : Byte) (leg : Leg) (legs : List Leg) (final : Landing) (accessible priority : Bool)
        (car : Car) (hold : Nat) (set : LandingSet),
      (GroupMsg.call tag (leg :: legs) final accessible priority).frame = frameBytes 0x50 tag
        (u8 leg.src.val ++ u8 leg.dst.val ++ u8 ((if accessible then 1 else 0) + if priority then 2 else 0)
          ++ u8 final.val ++ u8 legs.length
          ++ legs.flatMap fun k => u8 k.group.val ++ u8 k.src.val ++ u8 k.dst.val)
      ∧ (GroupMsg.enable tag car hold set).frame
          = frameBytes 0x51 tag (u8 car.val ++ u8 hold ++ setBytes set)
      ∧ (GroupMsg.cancel tag).frame = frameBytes 0x52 tag []
      ∧ (GroupMsg.withdraw car).frame = frameBytes 0x53 0 (u8 car.val))
  ∧ (∀ (label : Option Landing → List Byte) (code : AnswerCode) (car : Option Car)
        (dest change : Option Landing) (tone : Tone),
      (ReaderRecord.show_ code car dest change).frame label = frameBytes 0x68 0
        (u8 code.code ++ u8 code.reason ++ u8 ((car.map Fin.val).getD 0xFF) ++ labelBytes (label dest)
          ++ labelBytes (label change))
      ∧ ReaderRecord.blank.frame label = frameBytes 0x68 0 (List.replicate 9 0)
      ∧ (ReaderRecord.tone tone).frame label = frameBytes 0x69 0 (u8 tone.code))
  ∧ (∀ (seq : Byte) (at_ : Nat) (body : NoticeBody) (c : NoticeClass),
      (QueuedNotice.notice { uptime := at_, body := body }).frame seq
        = { type := 0x40, tag := seq, restart := false
            payload := u8 body.cls.code ++ u8 body.kind ++ u32 at_ ++ body.bytes }
      ∧ (QueuedNotice.summary c).frame seq
        = { type := 0x41, tag := seq, restart := false, payload := u8 c.code })
  ∧ (∀ d : Decision, (NoticeBody.decision d).bytes =
      u8 d.channel.val ++ bool8 d.car ++ u40 (d.badge.getD 0) ++ u8 d.path.code ++ u8 d.standing.code
        ++ u8 ((d.outcome.map AnswerCode.code).getD 0) ++ u8 ((d.outcome.map AnswerCode.reason).getD 0)
        ++ opt8 (d.dest.map Fin.val) ++ u8 d.route.length
        ++ d.route.flatMap (fun k => u8 k.group.val ++ u8 k.src.val ++ u8 k.dst.val)
        ++ opt8 (d.order.map fun o => o.group.val) ++ opt8 (d.order.map fun o => if o.enable then 1 else 0)
        ++ opt8 (d.order.map fun o => o.tag.toNat) ++ bool8 d.reservation ++ u16 d.bank ++ u16 d.wait)
  ∧ (∀ x : Presentation, (NoticeBody.presentation x).bytes =
      u8 x.channel.val ++ bool8 x.car ++ u40 (x.badge.getD 0) ++ u8 x.standing.code
        ++ opt8 (x.origin.map Fin.val) ++ opt8 (x.dest.map Fin.val) ++ u8 x.path.code ++ u32 x.uptime
        ++ date x.date)
  ∧ (∀ n : Nat, (NoticeBody.batchExpired n).bytes = u8 n)
  ∧ (∀ c : Committed, (NoticeBody.committed c).bytes =
      u32 c.number ++ u8 c.edits ++ u8 c.added ++ u8 c.removed ++ u8 c.replaced ++ u16 c.recordCount
        ++ u8 c.written ++ u8 c.released ++ u8 c.purged)
  ∧ (∀ (number edits programmed : Nat) (cause : FailCause),
      (NoticeBody.commitFailed number edits programmed cause).bytes
        = u32 number ++ u8 edits ++ u8 programmed ++ u8 cause.code)
  ∧ (∀ number records : Nat, (NoticeBody.compactDone number records).bytes = u32 number ++ u16 records)
  ∧ NoticeBody.compactFailed.bytes = []
  ∧ (∀ before after day minute w : Nat,
      (NoticeBody.switch before after .nextMinute day minute).bytes
        = u16 before ++ u16 after ++ [0, 0xFF, 0xFF] ++ u16 day ++ u16 minute
      ∧ (NoticeBody.switch before after (.at w) day minute).bytes
        = u16 before ++ u16 after ++ [1] ++ u16 w ++ u16 day ++ u16 minute
      ∧ (NoticeBody.switch before after .none day minute).bytes
        = u16 before ++ u16 after ++ [0xFF, 0xFF, 0xFF] ++ u16 day ++ u16 minute)
  ∧ (∀ a : AvailNotice, (NoticeBody.availability a).bytes =
      u8 a.group.val ++ u8 a.before.code ++ u8 a.after.code ++ u8 a.link.code ++ bool8 a.accepting
        ++ u8 a.cause.code ++ u8 a.removed ++ u8 a.withdrawn
        ++ match a.recallChange with
           | some x => u8 x.before.code ++ u8 x.after.code ++ bool8 x.active
           | none => [])
  ∧ (∀ (c : Chan) (left : ChanState), (NoticeBody.readerOffline c left).bytes = u8 c.val ++ u8 left.code
      ∧ (NoticeBody.readerOnline c).bytes = u8 c.val)
  ∧ (∀ (before : ClockState) (day0 minute0 day minute : Nat),
      (NoticeBody.clockSet before day0 minute0 day minute).bytes
        = u8 before.code ++ u16 day0 ++ u16 minute0 ++ [1] ++ u16 day ++ u16 minute
      ∧ (NoticeBody.dayLimit minute).bytes = u16 minute)
  ∧ (∀ (k : FaultKind) (major already : Bool) (detail : Nat) (d : Date),
      (NoticeBody.faultRaised k major detail already d).bytes
        = u8 k.code ++ bool8 major ++ u16 detail ++ bool8 already ++ date d)
  ∧ (∀ x : Record, x.bytes =
      u40 x.badge ++ u8 x.status.code ++ u8 x.profile.val
        ++ u8 ((if x.home.isSome then 1 else 0) + (if x.expiry.isSome then 2 else 0)
            + if x.budget.isSome then 4 else 0)
        ++ u8 ((x.home.map Fin.val).getD 0)
        ++ u8 ((if x.accessible then 1 else 0) + if x.priority then 2 else 0)
        ++ u16 (x.expiry.getD 0) ++ u8 (x.budget.getD 0)
        ++ u8 (if x.budget.isSome then (List.range 32).countP fun i => x.slots.getLsbD i else 0))
  ∧ (∀ p : Profile, p.bytes = bool8 p.serviceCar ++ u8 p.clauses.length
      ++ p.clauses.flatMap fun c => setBytes c.landings ++ [c.days] ++ u16 c.start ++ u16 c.stop)
  ∧ from0 (List.map Result.code [.ok, .accepted, .busy, .range, .guarded, .notOpen, .full, .noPages,
    .notFound, .notArmed, .lineActive, .unknownType, .length, .starting, .storeFault])
  ∧ (∀ r, from1 (List.map AnswerCode.code [.go, .denied r, .invalidLanding, .busy, .linkBusy,
    .outOfService, .noCar, .departed, .starting]) ∧ (AnswerCode.denied r).reason = r.code)
  ∧ (∀ x : AnswerCode, (∀ r, x ≠ .denied r) → x.reason = 0)
  ∧ from1 (List.map Reason.code [.unknown, .suspended, .lost, .expired, .clockUnset, .storeFault,
    .badgeRequired, .notPermitted, .noDestination, .sameLanding, .noRoute, .noTrips])
  ∧ from0 (List.map Tone.code [.accept, .refuse, .busy, .key])
  ∧ from0 (List.map PortPhase.code [.scanning, .loading, .open_])
  ∧ from0 (List.map ClockState.code [.unset, .set])
  ∧ from0 (List.map BatchState.code [.closed, .open_, .committing])
  ∧ from0 (List.map Condition.code [.usable, .unusable])
  ∧ from1 (List.map WorkKind.code [.commit, .compact])
  ∧ from0 (List.map Phase.code [.reading, .commitWait, .programming, .logging])
  ∧ from0 (List.map SaveState.code [.idle, .queued, .running])
  ∧ from0 (List.map SaveResult.code [.none, .ok, .failed])
  ∧ from0 (List.map Avail.code [.inService, .notAccepting, .inRecall, .offline])
  ∧ from0 (List.map LinkCond.code [.waiting, .live, .silent])
  ∧ from0 (List.map RecallState.code [.clear, .inRecall, .held]) ∧ from0 (List.map Level.code [.low, .high])
  ∧ from0 (List.map Polarity.code [.activeHigh, .activeLow])
  ∧ from0 (List.map RecallMode.code [.level, .latched])
  ∧ from0 (List.map ChanState.code [.unused, .offline, .starting, .idle, .entry, .pending, .showing])
  ∧ from0 (List.map Mark.code [.none, .owned, .discard])
  ∧ from0 (List.map EntryTimer.code [.badgeWait, .interKey])
  ∧ from0 (List.map Motion.code [.stopped, .up, .down]) ∧ from0 (List.map Door.code [.opened, .closed])
  ∧ from0 (List.map Standing.code [.none, .good, .unknown, .suspended, .lost, .expired, .clockUnset,
    .storeFault])
  ∧ from0 (List.map Path.code [.normal, .transfer])
  ∧ from0 (List.map CredStatus.code [.active, .suspended, .lost])
  ∧ from0 (List.map GroupCause.code [.recallChange, .linkLive, .linkSilent, .acceptingChange])
  ∧ from0 (List.map FailCause.code [.programFail, .noPages, .logFail])
  ∧ from0 (List.map NoticeClass.code [.admission, .security, .directory, .schedule, .group, .reader,
    .clock, .fault])
  ∧ from0 (List.map FaultKind.code [.siteFrame, .siteOverrun, .groupProtocol, .groupOffline,
    .readerOffline, .storeProgramFail, .storeEraseFail, .spareLow, .storeFault, .settingsLost,
    .clockUnset, .commitFail])
  ∧ ∀ (d : Decision) (x : Presentation) (c : Committed) (a : AvailNotice) (arm : Arm) (cause : FailCause)
      (ch : Chan) (left : ChanState) (cal : ClockState) (k : FaultKind) (major again : Bool) (date : Date)
      (m n o q : Nat),
    [NoticeBody.decision d, .presentation x, .batchExpired n, .committed c, .commitFailed m n o cause,
      .compactDone m n, .compactFailed, .switch m n arm o q, .availability a, .readerOffline ch left,
      .readerOnline ch, .clockSet cal m n o q, .dayLimit n, .faultRaised k major n again date].map
        (fun b => (b.cls, b.kind)) =
      [(.admission, 1), (.security, 1), (.directory, 1), (.directory, 2), (.directory, 3), (.directory, 4),
        (.directory, 5), (.schedule, 1), (.group, 1), (.reader, 1), (.reader, 2), (.clock, 1), (.clock, 2),
        (.fault, 1)]

/-! ### Start-up -/

/-- Start-up begins alike at power-on, at the release of the reset input and after the OK to an armed
RESTART, in the last case with the operation in progress abandoned where it stood. Every block holds what
StartedUp writes out, the inputs (ACTIVE_HIGH and LEVEL until the load ends, no recall state fixed, the reset
input taken as released) and the faults (no mask, the severities of R173) among them. What an abandoned
operation leaves is a free value (logs 6 and 27), the values of the directory, the page states and the log
position before the scan and the detail STORE_FAULT is raised again with are log 5's, that HIGH is the reset
input asserted is log 4's, and that the commit counter stands as it stood is log 46's. The Settings
Area stands as it stood in each case: a save cut short leaves no complete image. -/
def Obligations.StartUpBeginsAlike : Prop :=
  ∀ s : State,
    (s.power = .off → ∃ t, exec .powerOn s = .next t ∧ StartedUp s t)
    ∧ (∀ since, s.power = .held → s.resetIn = { raw := .low, stable := some .high, since := some since } →
        ∃ t, exec .resetReleased s = .next t ∧ StartedUp s t)
    ∧ (∀ tx, Runs s → s.site.sending = some tx → tx.restart = true →
        ∃ t, exec .transmitComplete s = .next t ∧ StartedUp s.cut t ∧ t.store.area = s.store.area)

/-- A loss of power and the asserted reset input abandon the operation in progress; the card is then silent with
the fault output deasserted, takes no frame from the site computer, a reader or a group and sends none, and the
pages, the log, the area and the commit counter are kept, so that a save cut short leaves no complete image (the
area has none from its first erase on: BatchAndStoreStayRight). The model's own choices: the volatile values of
a card OFF or HELD (log 32), what an operation cut short leaves (log 27), the counter's keeping (log 46), and
that the row of the assertion stands at the end of its 100 ms (Within, log 11). -/
def Obligations.PowerLossAndResetSilenceTheCard : Prop :=
  ∀ s : State,
    (s.power ≠ .off → ∃ t, exec .lossOfPower s = .next t ∧ t.power = .off ∧ t.cal = Calendar.startUp
      ∧ t.faults.line = false ∧ t.site = Port.startUp ∧ t.store.pages = s.cut.store.pages
      ∧ t.store.log = s.cut.store.log ∧ t.store.area = s.store.area ∧ t.store.op = none
      ∧ t.store.counter = s.store.counter)
    ∧ (∀ since, s.power = .running → s.resetIn = { raw := .high, stable := some .low, since := some since } →
        Within s (since + 100) →
        ∃ t, exec .resetAsserted s = .next t ∧ t.power = .held ∧ t.faults.line = false
          ∧ t.site = Port.startUp ∧ t.store.op = none ∧ t.store.pages = s.cut.store.pages
          ∧ t.store.log = s.cut.store.log ∧ t.store.area = s.store.area
          ∧ t.store.counter = s.store.counter ∧ t.resetIn.stable = some .high
          ∧ t.batch = Batch.startUp ∧ t.queue = [] ∧ (∀ g, (t.group g).tx = []) ∧ ∀ c, (t.reader c).tx = [])
    ∧ (s.power ≠ .running → ∀ (r : Req) (c : Chan) (g : Group) (link : Link) (badge : BitVec 40)
        (type tag key v car l mo d sv : Byte) (bytes : List Byte) (late : Option Byte),
      ∀ cmd ∈ (siteCommands r).map Prod.snd ++
        [.siteFrameReceive type r, .unknownType type r, .transmitComplete, .badge c badge, .key c key, .alive c,
          .unknownReaderFrame c type bytes, .groupState g v, .carState g car l mo d sv, .assign g tag car,
          .enabled g tag, .refuse g tag, .cancelled g tag, .unknownGroupFrame g type bytes, .inFrame link key,
          .byteGapTimeout link late, .frameDiscard link bytes],
      exec cmd s = .next s)

/-- The scan's end. The candidates are the pages whole and logged, and the index holds, in the order of
their low bounds, those that no candidate of a higher number overlaps; every page has its state, the
erase queue the STALE pages in ascending number, the log position follows the highest number, and the
counter stands above every number found and never below where it stood: that it keeps a number which left
no complete page is log 46's, and that a page whole but inconsistent, of a number above the log's, is
superseded is log 59's. The condition says whether the kept ranges cover every badge number, and
STORE_FAULT carries the lowest that they do not. The clauses on the cover have the premise that every
header carries badge numbers. -/
def Obligations.ScanEndBuildsTheDirectory : Prop :=
  ∀ s : State, Runs s → s.site.phase = .scanning →
    let l := s.store.lastLogged
    let candidate (p : Page) (x : PageImage) : Prop :=
      (s.store.page p).retired = false ∧ (s.store.page p).contents = .programmed x ∧ x.complete = true
        ∧ x.low ≤ x.high ∧ x.count ≤ 64 ∧ x.commit ≤ l
    let covers (e : IndexEntry) (b : Badge) : Prop := e.low ≤ b ∧ b ≤ e.high
    (∀ n, n ∈ s.store.logNumbers ↔ ∃ (p : Fin 8) (i : Fin 64), s.store.log[p][i] = some n)
    ∧ (∀ n ∈ s.store.logNumbers, n ≤ l) ∧ (s.store.logNumbers ≠ [] → l ∈ s.store.logNumbers)
    ∧ (s.store.logNumbers = [] → l = 0)
    ∧ (∀ n, n ∈ s.store.headerNumbers ↔
        ∃ p x, (s.store.page p).contents = .programmed x ∧ x.complete = true ∧ x.commit = n)
    ∧ ∃ t, exec .scanEnd s = .next t ∧ t.site.phase = .loading
      ∧ t.store.pages = s.store.pages ∧ t.store.log = s.store.log
      ∧ t.dir.index.Pairwise (fun a b => a.low ≤ b.low ∧ ¬ (a.low ≤ b.high ∧ b.low ≤ a.high))
      ∧ (∀ e ∈ t.dir.index, ∃ x, candidate e.page x
          ∧ e = { low := x.low, high := x.high, page := e.page, count := x.count, commit := x.commit })
      ∧ (∀ p x, candidate p x → (∀ e ∈ t.dir.index, e.page ≠ p) →
          ∃ e ∈ t.dir.index, e.low ≤ x.high ∧ x.low ≤ e.high
            ∧ (x.commit < e.commit ∨ (x.commit = e.commit ∧ e.page < p)))
      ∧ t.dir.recordCount = (t.dir.index.map IndexEntry.count).sum
      ∧ (∀ p,
          ((s.store.page p).retired = true → t.store.stateOf p = .retired)
          ∧ ((s.store.page p).retired = false →
            ((s.store.page p).contents = .erased → t.store.stateOf p = .free)
            ∧ ∀ x, (s.store.page p).contents = .programmed x →
              (x.complete = false ∨ x.high < x.low ∨ 64 < x.count → t.store.stateOf p = .stale .superseded)
              ∧ (x.complete = true → x.low ≤ x.high → x.count ≤ 64 → l < x.commit →
                  t.store.stateOf p = .stale .abandoned)
              ∧ (candidate p x → ((∃ e ∈ t.dir.index, e.page = p) → t.store.stateOf p = .data)
                  ∧ ((∀ e ∈ t.dir.index, e.page ≠ p) → t.store.stateOf p = .stale .superseded))))
      ∧ t.store.eraseQ = (finList 544).filter (fun p => (t.store.stateOf p).isStale)
      ∧ (s.store.logNumbers = [] → t.store.logPage = 0 ∧ t.store.logSlot = 0)
      ∧ (s.store.logNumbers ≠ [] →
          ∃ p : Fin 8, ∃ i : Fin 64, s.store.log[p][i] = some l
            ∧ (i.val = 63 → t.store.logPage = p + 1 ∧ t.store.logSlot = 0)
            ∧ (i.val < 63 → t.store.logPage = p ∧ t.store.logSlot = i + 1))
      ∧ (∀ n ∈ s.store.logNumbers ++ s.store.headerNumbers, n < t.store.counter)
      ∧ s.store.counter ≤ t.store.counter
      ∧ (t.store.counter = 1 ∨ t.store.counter = s.store.counter
          ∨ t.store.counter - 1 ∈ s.store.logNumbers ++ s.store.headerNumbers)
      ∧ (t.store.spareSum < 8 → Raises s t .spareLow t.store.spareSum)
      ∧ (8 ≤ t.store.spareSum → t.faults.isSet .spareLow = s.faults.isSet .spareLow)
      ∧ (HeadersInRange s.store →
        (t.dir.condition = .usable ↔
          ∀ b, 1 ≤ b → b ≤ topBadge → ∃ e ∈ t.dir.index, covers e b)
        ∧ (t.dir.condition = .unusable → ∃ b, 1 ≤ b ∧ b ≤ topBadge
            ∧ (∀ e ∈ t.dir.index, ¬ covers e b)
            ∧ (∀ k, 1 ≤ k → k < b → ∃ e ∈ t.dir.index, covers e k)
            ∧ Raises s t .storeFault (b % 65536) ∧ t.faults.storeDetail = b % 65536
            ∧ (s.faults.first = none → ∃ x, t.faults.first = some x ∧ x.kind = .storeFault
                ∧ x.detail = b % 65536)))

/-- The opening: the port is OPEN, every STARTING channel has its loaded configuration and is IDLE or
UNUSED, a STARTING display ended with the blank form (one made UNUSED keeps of its records that alone, log
35), every line has 3 s, a class that the load makes ENABLED with its flag set has its SUMMARY, lowest class
first while places remain, ahead of the notices of the event (log 30), and the blocks hold the image or, where
it is rejected, and only there, the defaults with SETTINGS_LOST, spelled out: no clause, no service-car right,
bank number 0, no holiday, an empty map, ADMISSION alone masked, no fault masked, the severities of the fault
table, ACTIVE_HIGH and LEVEL for every group. The store, its pages, log and area among it, and the directory
stand as the scan left them, and no save is queued. A recall state whose
line is known is fixed under the loaded polarity and mode, and a change of it is handed to the group's
manager. A group that the loaded map makes present on a SILENT link raises GROUP_OFFLINE, with the masks and
the severities as they stand before the load gives them (log 30). The premise on the marks holds in every
state of a start-up: no channel has an admission in flight. -/
def Obligations.OpeningTakesTheSettings : Prop :=
  ∀ s : State, Runs s → s.site.phase = .loading → (∀ c, (s.reader c).mark = .none) →
    (∀ x, s.store.area.accepted = some x ↔
      s.store.area.complete = true ∧ s.store.area.checkMatches = true ∧ s.store.area.image = x)
    ∧ ∃ t, exec .admissionOpens s = .next t ∧ t.site.phase = .open_ ∧ t.store = s.store ∧ t.dir = s.dir
      ∧ (∀ x, s.store.area.accepted = some x →
          t.zone = x.zone ∧ t.timing = x.timing ∧ t.banks.active = x.bank ∧ t.banks.shadow = x.bank
          ∧ t.banks.number = x.bankNumber ∧ t.banks.arm = .none ∧ t.banks.holidays = x.holidays
          ∧ t.notices.enables = x.enables ∧ t.faults.masks = x.masks ∧ t.faults.majors = x.majors
          ∧ t.faults.isSet .settingsLost = s.faults.isSet .settingsLost
          ∧ (∀ c : Chan, (t.reader c).cfg = x.channels[c])
          ∧ ∀ g : Group, (t.recallOf g).cfg = x.groups[g])
      ∧ (s.store.area.accepted = none →
          t.banks = { active := Vector.replicate 256 { serviceCar := false, clauses := [] }
                      shadow := Vector.replicate 256 { serviceCar := false, clauses := [] }
                      number := 0, arm := .none, holidays := [] }
          ∧ (∀ l : Landing, t.zone.landing l =
              { present := false, label := [], secure := false, transfer := false })
          ∧ (∀ g : Group, t.zone.group g = { present := false, serviceCar := false, served := 0 })
          ∧ t.timing = { badgeWait := 40, interKey := 15, carHold := 10, validity := 600, batchIdle := 30 }
          ∧ t.notices.enables = 0xFE#8 ∧ t.faults.masks = 0
          ∧ (∀ k : FaultKind, t.faults.major k = true ↔ k ∈ [FaultKind.groupOffline, .storeProgramFail,
              .spareLow, .storeFault, .settingsLost, .commitFail])
          ∧ Raises s t .settingsLost 0 ∧ (∀ c, (t.reader c).cfg = { place := .unused, hold := 5 })
          ∧ ∀ g : Group, (t.recallOf g).cfg = { polarity := .activeHigh, mode := .level })
      ∧ (∀ c,
          let unused : Prop := (t.reader c).cfg.place = .unused
          t.reader c = { s.reader c with
            cfg := (t.reader c).cfg, state := if unused then .unused else .idle, displayDeadline := none
            silenceDeadline := some (max (((s.reader c).silenceDeadline).getD 0) (s.cal.uptime + 3))
            tx := (if unused then [] else (s.reader c).tx)
              ++ if (s.reader c).displayDeadline.isSome then [.blank] else [] })
      ∧ (let due := (NoticeClass.all.filter fun c =>
            !s.notices.enabled c && t.notices.enabled c && s.notices.isPending c).take
              (64 - s.notices.queue.length)
        (∃ raised : List Notice,
          t.notices.queue = s.notices.queue ++ due.map .summary ++ raised.map .notice
          ∧ ∀ n ∈ raised, n.uptime = s.cal.uptime)
        ∧ (∀ c ∈ due, t.notices.isPending c = true → 64 ≤ t.notices.queue.length)
        ∧ ∀ c, c ∉ due → s.notices.isPending c = true → t.notices.isPending c = true)
      ∧ (∀ g level, (s.recallOf g).line.stable = some level → (t.recallOf g).fixed = true
        ∧ ((s.recallOf g).fixed = false →
          (t.recallOf g).state =
            (if (t.recallOf g).cfg.polarity.active level = true then .inRecall
             else if (t.recallOf g).cfg.mode = .latched then .held else .clear)
          ∧ ((t.recallOf g).state ≠ (s.recallOf g).state → (t.group g).avail = t.availability g
              ∧ ∃ n, Reported t (.availability n) ∧ n.group = g ∧ n.cause = .recallChange
                ∧ n.before = (s.group g).avail ∧ n.after = (t.group g).avail
                ∧ n.recallChange = some { before := (s.recallOf g).state, after := (t.recallOf g).state
                                          active := (t.recallOf g).cfg.polarity.active level })))
      ∧ (∀ g, (s.recallOf g).line.stable = none → (t.recallOf g).fixed = (s.recallOf g).fixed
        ∧ (t.recallOf g).state = (s.recallOf g).state)
      ∧ OfflineRaised s t

/-! ### The Calendar Clock and the Profile Banks -/

/-- A second event: uptime advances and holds at its top; the calendar advances only while SET, and by
the second alone short of a minute boundary. -/
def Obligations.SecondEventAdvancesTheClock : Prop :=
  ∀ s : State, Runs s →
    ∃ t, exec .secondEvent s = .next t
      ∧ t.cal.uptime = min (s.cal.uptime + 1) 4294967295
      ∧ t.time = { seconds := s.time.seconds + 1, ms := 0 }
      ∧ (s.cal.state = .unset →
          t.cal = { s.cal with uptime := t.cal.uptime } ∧ t.banks = s.banks ∧ t.transfer = s.transfer)
      ∧ (s.cal.state = .set → s.cal.second < 59 →
          t.cal = { s.cal with uptime := t.cal.uptime, second := s.cal.second + 1 } ∧ t.banks = s.banks
            ∧ t.transfer = s.transfer)

/-- A minute boundary, by either of its rows: the week-minute wraps, the day advances at a midnight
crossing short of its limit, which is reported the first time alone, a met arm switches the banks and queues
a settings save, the expired entries leave the Transfer Table. -/
def Obligations.MinuteBoundaryIsOneEvent : Prop :=
  ∀ (s : State) (c : Instr), c = .minuteBoundary ∨ c = .secondEvent → Runs s → s.cal.state = .set →
    s.cal.second = 59 →
    ∃ t, exec c s = .next t ∧ t.cal.second = 0 ∧ t.cal.weekMinute = (s.cal.weekMinute + 1) % 10080
      ∧ t.cal.day = (if t.cal.weekMinute % 1440 = 0 ∧ s.cal.day < 65535 then s.cal.day + 1 else s.cal.day)
      ∧ (t.cal.weekMinute % 1440 = 0 → 65535 ≤ s.cal.day → s.cal.dayLimitReported = false →
          t.cal.dayLimitReported = true ∧ Reported t (.dayLimit t.cal.weekMinute))
      ∧ (t.cal.weekMinute % 1440 ≠ 0 ∨ s.cal.day < 65535 ∨ s.cal.dayLimitReported = true →
          t.cal.dayLimitReported = s.cal.dayLimitReported
          ∧ t.notices.isPending .clock = s.notices.isPending .clock
          ∧ ∀ u w, .notice { uptime := u, body := .dayLimit w } ∈ t.notices.queue →
            .notice { uptime := u, body := .dayLimit w } ∈ s.notices.queue)
      ∧ (s.banks.arm = .nextMinute ∨ s.banks.arm = .at t.cal.weekMinute →
          t.banks = { s.banks with
            active := s.banks.shadow, arm := .none, number := (s.banks.number + 1) % 65536 }
          ∧ t.store = saveQueued s.store
          ∧ Reported t (.switch s.banks.number t.banks.number s.banks.arm t.cal.day t.cal.weekMinute))
      ∧ (s.banks.arm ≠ .nextMinute → s.banks.arm ≠ .at t.cal.weekMinute →
          t.banks = s.banks ∧ t.store = s.store)
      ∧ t.transfer.entries = s.transfer.entries.filter fun e => t.cal.uptime < e.expiry

/-- The clause test at day number `n` and week-minute `w`. -/
def Obligations.ClauseTestByStartAndEnd : Prop :=
  ∀ (c : Clause) (holidays : List Nat) (n w : Nat),
    let m := w % 1440
    let today := if n ∈ holidays then 7 else w / 1440
    let yesterday := if 1 ≤ n ∧ n - 1 ∈ holidays then 7 else (w / 1440 + 6) % 7
    (c.start < c.stop →
      (c.opens holidays n w = true ↔ c.days.getLsbD today = true ∧ c.start ≤ m ∧ m < c.stop))
    ∧ (c.stop ≤ c.start →
      (c.opens holidays n w = true ↔
        (c.days.getLsbD today = true ∧ c.start ≤ m) ∨ (c.days.getLsbD yesterday = true ∧ m < c.stop)))

/-! ### Routes -/

/-- The route computation: absent landings and equal ends first; a direct leg whenever one is possible;
then the change at the transfer landing of the shortest route, the lower landing among equals; then the
two changes of the shortest route, the lower pair among equals; each leg in the lowest-numbered eligible
group serving both its ends. OUT_OF_SERVICE exactly where only the widened eligibility, which does not ask
for the availability, finds a route. -/
def Obligations.RoutesGoDirectFirst : Prop :=
  ∀ (s : State) (allowed : Bool) (o d : Landing),
    let serves (widened : Bool) (g : Group) (a b : Landing) : Prop :=
      (s.zone.group g).present = true ∧ ((s.zone.group g).serviceCar = true → allowed = true)
        ∧ (widened = true ∨ (s.group g).avail = .inService)
        ∧ (s.zone.group g).served.getLsbD a.val = true ∧ (s.zone.group g).served.getLsbD b.val = true
    let possible (widened : Bool) (a b : Landing) : Prop := a ≠ b ∧ ∃ g, serves widened g a b
    let legOf (l : Leg) (a b : Landing) : Prop :=
      a ≠ b ∧ l.src = a ∧ l.dst = b ∧ serves false l.group a b
        ∧ ∀ h : Group, h < l.group → ¬ serves false h a b
    let dist (a b : Landing) : Nat := (a.val - b.val) + (b.val - a.val)
    let change (t : Landing) : Prop :=
      (s.zone.landing t).present = true ∧ (s.zone.landing t).transfer = true ∧ t ≠ o ∧ t ≠ d
    let one (widened : Bool) (t : Landing) : Prop :=
      change t ∧ possible widened o t ∧ possible widened t d
    let two (widened : Bool) (t u : Landing) : Prop :=
      change t ∧ change u ∧ possible widened o t ∧ possible widened t u ∧ possible widened u d
    let direct : Prop := possible false o d
    let found (widened : Bool) : Prop :=
      possible widened o d ∨ (∃ t, one widened t) ∨ ∃ t u, two widened t u
    ((s.zone.landing o).present = false ∨ (s.zone.landing d).present = false →
      s.route allowed o d = .noRoute)
    ∧ ((s.zone.landing o).present = true → (s.zone.landing d).present = true →
      (o = d → s.route allowed o d = .sameLanding)
      ∧ (direct → ∃ l, s.route allowed o d = .route [l] ∧ legOf l o d)
      ∧ (o ≠ d → ¬ direct → (∃ t, one false t) →
          ∃ t l k, s.route allowed o d = .route [l, k] ∧ one false t ∧ legOf l o t ∧ legOf k t d
            ∧ ∀ u, one false u → dist o t + dist t d < dist o u + dist u d
                ∨ (dist o t + dist t d = dist o u + dist u d ∧ t ≤ u))
      ∧ (o ≠ d → ¬ direct → (¬ ∃ t, one false t) → (∃ t u, two false t u) →
          ∃ t u l k m, s.route allowed o d = .route [l, k, m] ∧ two false t u ∧ legOf l o t ∧ legOf k t u
            ∧ legOf m u d
            ∧ ∀ v w, two false v w → dist o t + dist t u + dist u d < dist o v + dist v w + dist w d
                ∨ (dist o t + dist t u + dist u d = dist o v + dist v w + dist w d
                    ∧ (t < v ∨ (t = v ∧ u ≤ w))))
      ∧ (o ≠ d → ¬ found false → (found true → s.route allowed o d = .outOfService)
          ∧ (¬ found true → s.route allowed o d = .noRoute)))

/-! ### Deadlines -/

/-- An OPEN batch whose idle deadline has come is emptied and closed. A link past its silence deadline is
SILENT, its cars UNKNOWN, its availability reworked with a GROUP notice of its own, with the fault of a group
that the map holds. A group that leaves IN_SERVICE so ends its orders, whose channels are told OUT_OF_SERVICE
(said of a channel that no other deadline of this second touches), and its opened cars, with no WITHDRAW. That
each row stands for the whole second event that brings the deadline or finds it passed (NextSecond) is
log 10's choice, and that what it raises carries the day and week-minute which that second brings log 9's. -/
def Obligations.BatchAndLinkDeadlinesPass : Prop :=
  (∀ (s : State) (d : Nat), Runs s → s.batch.state = .open_ → s.site.isPlanning = false →
    s.batch.deadline = some d → NextSecond s d →
    ∃ t, exec .batchExpired s = .next t ∧ t.batch = Batch.startUp ∧ t.cal.uptime = s.cal.uptime + 1
      ∧ Reported t (.batchExpired s.batch.edits.length))
  ∧ ∀ (s : State) (g : Group), Runs s → (s.group g).link ≠ .silent → NextSecond s (s.group g).silenceDeadline →
    let lasts (c : Chan) : Prop :=
      1 ≤ (s.reader c).cfg.hold
      ∧ (∀ d, (s.reader c).silenceDeadline = some d → s.cal.uptime + 1 < d)
      ∧ (∀ d, (s.reader c).displayDeadline = some d → s.cal.uptime + 1 < d)
      ∧ ∀ h, h ≠ g → ∀ o ∈ (s.group h).orders, o.state = .sent → o.channel ≠ c
    ∃ t, exec (.linkSilent g) s = .next t ∧ (t.group g).link = .silent
      ∧ (∀ car : Car, (t.group g).cars[car] = CarRow.unknown)
      ∧ (t.group g).avail = t.availability g
      ∧ Reported t (groupNotice s t g .linkSilent none)
      ∧ ((s.group g).avail = .inService → (t.group g).avail ≠ .inService ∧ LeftService s t g
          ∧ ∀ c, lasts c → ToldOutOfService s t g c)
      ∧ ((s.zoneGroup g).present = true → Raises s t .groupOffline g.val)

/-- A channel in one of the four states that can go OFFLINE does so at its silence deadline: its request
leaves the Admission Queue, or where the queue holds none its answer is to be dropped. A display ends with the
blank form at its own deadline, and a STARTING one does so whatever its line does; a SHOWING channel whose line
is silent by that second event goes OFFLINE in it, its line dropped. Each row is the whole second event that
brings the deadline or finds it passed, this deadline first (NextSecond; log 10's choice), and what it raises
carries the day and week-minute which that second brings (log 9's choice). The premise on the
mark holds in every state of a run: a SHOWING or STARTING channel has no admission in flight. -/
def Obligations.ReaderDeadlinesPass : Prop :=
  (∀ (s : State) (c : Chan) (d : Nat), Runs s →
    let canFall (x : Chan) : Prop := (s.reader x).state ∈ [ChanState.idle, .entry, .pending, .showing]
    canFall c → (s.reader c).silenceDeadline = some d → NextSecond s d →
    ∃ t, exec (.readerOffline c) s = .next t ∧ t.cal.uptime = s.cal.uptime + 1
      ∧ (t.reader c).state = .offline ∧ (t.reader c).entry = none
      ∧ (t.reader c).displayDeadline = none ∧ (t.reader c).mark ≠ .owned ∧ (t.reader c).tx = []
      ∧ Raises s t .readerOffline c.val ∧ Reported t (.readerOffline c (s.reader c).state)
      ∧ (let othersLive : Prop :=
          ∀ x, x ≠ c → canFall x → ∀ e, (s.reader x).silenceDeadline = some e → s.cal.uptime + 1 < e
        let noAnswerDue : Prop := ∀ g,
          ((s.group g).link = .silent ∨ s.cal.uptime + 1 < (s.group g).silenceDeadline)
          ∧ ∀ o ∈ (s.group g).orders, o.state = .sent → (s.time.seconds + 1) * 1000 < o.sentAt + 1500
        ((s.reader c).mark = .owned →
          ((∃ q ∈ s.queue, q.channel = c) → (t.reader c).mark = .none ∧ (∀ q ∈ t.queue, q.channel ≠ c)
            ∧ (othersLive → t.queue = s.queue.filter fun q => q.channel != c))
          ∧ ((∀ q ∈ s.queue, q.channel ≠ c) →
            (noAnswerDue → (t.reader c).mark = .discard) ∧ (othersLive → t.queue = s.queue)))
        ∧ ((s.reader c).mark ≠ .owned →
          (noAnswerDue → (t.reader c).mark = (s.reader c).mark) ∧ (othersLive → t.queue = s.queue))))
  ∧ ∀ (s : State) (c : Chan) (d : Nat), Runs s → (s.reader c).mark = .none →
    (s.reader c).displayDeadline = some d → NextSecond s d →
    let live : Prop := ∀ e, (s.reader c).silenceDeadline = some e → s.cal.uptime + 1 < e
    ((s.reader c).state = .showing → ∃ t, exec (.displayDeadline c) s = .next t
      ∧ (live → t.reader c = { s.reader c with
          state := .idle, displayDeadline := none, tx := (s.reader c).tx ++ [.blank] })
      ∧ (¬ live → t.reader c = { s.reader c with
            state := .offline, entry := none, displayDeadline := none, tx := [] }
          ∧ t.faults.isSet .readerOffline = true ∧ Reported t (.readerOffline c .idle)
          ∧ (s.faults.masked .readerOffline = false → ∃ again,
              (s.faults.isSet .readerOffline = true → again = true)
              ∧ Reported t (.faultRaised .readerOffline (s.faults.major .readerOffline) c.val again t.date))))
    ∧ ((s.reader c).state = .starting → ∃ t, exec (.startingDisplayEnd c) s = .next t ∧
        t.reader c = { s.reader c with displayDeadline := none, tx := (s.reader c).tx ++ [.blank] })

/-- An entry whose timer has run out ends: an unknown label shows INVALID_LANDING, a full queue BUSY,
and otherwise the request joins the queue of an engine at work, or is taken at once by an idle one, which
decides a request without a badge in the same event. That the row moves the time on to the timer's
deadline, within the second (Within), is log 11's choice. -/
def Obligations.EntryTimersEndTheEntry : Prop :=
  ∀ (s : State) (cmd : Instr) (timer : EntryTimer) (c : Chan) (l : Landing) (e : Entry), Runs s →
    (cmd, timer) ∈ [(Instr.interKeyTimeout c, EntryTimer.interKey), (.badgeWaitTimeout c, .badgeWait)] →
    (s.reader c).state = .entry → (s.reader c).entry = some e → e.timer = timer →
    (s.reader c).cfg.place = .lobby l → Within s e.deadline →
    let ask (d : Option Landing) : Request :=
      { channel := c, badge := e.badge, ask := .lobby d l, arrival := s.cal.uptime }
    let dest := s.zone.resolve e.chars
    let names (k : Landing) : Prop :=
      (s.zone.landing k).present = true ∧ (s.zone.landing k).label = e.chars
    let shows (code : AnswerCode) (t : State) : Prop :=
      (t.reader c).state = .showing ∧ (t.reader c).entry = none
        ∧ (t.reader c).displayDeadline = some (s.cal.uptime + (s.reader c).cfg.hold)
        ∧ (t.reader c).tx = (s.reader c).tx ++ [.show_ code none none none, .tone code.tone]
        ∧ t.queue = s.queue
    (∀ k, dest = some k ↔ names k ∧ ∀ j < k, ¬ names j)
    ∧ ∃ t, exec cmd s = .next t
      ∧ (e.chars ≠ [] → dest = none → shows .invalidLanding t)
      ∧ (e.chars = [] ∨ dest ≠ none → 64 ≤ s.queue.length → shows .busy t)
      ∧ (e.chars = [] ∨ dest ≠ none → s.queue.length < 64 → s.engine ≠ .idle →
          t.queue = s.queue ++ [ask (if e.chars = [] then none else dest)]
          ∧ (t.reader c).state = .pending ∧ (t.reader c).mark = .owned ∧ (t.reader c).entry = none)
      ∧ (∀ b, e.chars = [] ∨ dest ≠ none → s.queue = [] → s.engine = .idle → e.badge = some b →
          s.dir.condition = .usable →
          t.queue = [] ∧ t.engine = .evaluating (ask (if e.chars = [] then none else dest)) none
          ∧ t.store.prio = s.store.prio ++ [.engineRead b] ∧ (t.reader c).mark = .owned)
      ∧ (e.chars = [] ∨ dest ≠ none → s.queue = [] → s.engine = .idle → e.badge = none →
          t.queue = [] ∧ t.engine = .idle ∧ t.store = s.store ∧ (t.reader c).entry = none
          ∧ ∃ x, Reported t (.decision x) ∧ x.channel = c ∧ x.badge = none ∧ x.wait = 0)

/-- The reply deadline of a SENT order, of a manager whose link stays, with the NO_CAR its channel shows, or
drops under the mark DISCARD (said where no deadline of its own comes in that second), the cancel deadline of an
order, and the hold of an opened car, which is withdrawn. Each row is the whole second event that brings the
deadline or finds it passed (NextSecond; log 10's choice). -/
def Obligations.OrderAndHoldDeadlinesPass : Prop :=
  (∀ (s : State) (g : Group) (tag : Byte) (o : Order), Runs s → (s.group g).find tag = some o →
    (o.state = .sent → o.sentAt + 1500 ≤ (s.time.seconds + 1) * 1000 → s.cal.uptime < 4294967295 →
      ((s.group g).link = .silent ∨ s.cal.uptime + 1 < (s.group g).silenceDeadline) →
      ∃ t, exec (.replyDeadline g tag) s = .next t ∧ t.cal.uptime = s.cal.uptime + 1
        ∧ (t.group g).find tag = some { o with state := .cancelling (t.cal.uptime + 5) }
        ∧ .cancel tag ∈ (t.group g).tx
        ∧ ((s.reader o.channel).mark = .owned → (t.reader o.channel).mark = .none)
        ∧ ((s.reader o.channel).mark = .discard →
            (∀ e, (s.reader o.channel).silenceDeadline = some e → s.cal.uptime + 1 < e) →
            (∀ e, (s.reader o.channel).displayDeadline = some e → s.cal.uptime + 1 < e) →
            t.reader o.channel = answerDropped (s.reader o.channel))
        ∧ ((s.reader o.channel).mark = .owned → 1 ≤ (s.reader o.channel).cfg.hold →
            (∀ e, (s.reader o.channel).silenceDeadline = some e → s.cal.uptime + 1 < e) →
            t.reader o.channel = { s.reader o.channel with
              mark := .none, state := .showing
              displayDeadline := some (t.cal.uptime + (s.reader o.channel).cfg.hold)
              tx := (s.reader o.channel).tx ++ [.show_ .noCar none o.dest none, .tone .refuse] }))
    ∧ (o.state = .sent → (s.time.seconds + 1) * 1000 < o.sentAt + 1500 →
      exec (.replyDeadline g tag) s = .next s)
    ∧ (∀ d, o.state = .cancelling d → NextSecond s d →
      ∃ t, exec (.cancelDeadline g tag) s = .next t ∧ (t.group g).find tag = none))
  ∧ ∀ (s : State) (g : Group) (car : Car) (d : Nat), Runs s → (s.group g).enables[car].confirmed ≠ 0 →
    (s.group g).enables[car].expiry = some d → NextSecond s d →
    ∃ t, exec (.holdExpiry g car) s = .next t ∧ (t.group g).enables[car] = { confirmed := 0, expiry := none }
      ∧ .withdraw car ∈ (t.group g).tx

/-! ### Inputs -/

/-- A raw level is counted for 100 ms: from the moment it leaves the stable level, or while that is not
yet known; a return abandons the count; an input the card does not watch is only noted. The service key
follows its level. The end of a recall line's first count fixes the recall state once admission is open, and a
change that this makes is handed to the group's manager: the availability is reworked, with a GROUP notice; the
level learnt before the opening is only kept, for the opening to read (OpeningTakesTheSettings). A recall
line's debounced change moves a recall state that has been fixed, with its GROUP notice, and a group that
leaves service loses its orders and its opened cars in the same event. The model's own choices: HIGH is
the key ON (log 4), a row that ends a count moves the time on to the end of its 100 ms (Within, log 11),
and a return abandons a count even where its 100 ms have run (log 58). -/
def Obligations.InputsMoveTheRecallAndTheKey : Prop :=
  (∀ (s : State) (i : Input) (l : Level),
    (s.watches i = true → (s.input i).raw ≠ l →
      exec (.rawLevelChange i l) s = .next (s.mapInput i fun d =>
        { raw := l, stable := d.stable
          since := if d.stable = some l then none else some (s.time.seconds * 1000 + s.time.ms) }))
    ∧ (s.watches i = true → (s.input i).raw = l → exec (.rawLevelChange i l) s = .next s)
    ∧ (s.watches i = false →
      exec (.rawLevelChange i l) s = .next (s.mapInput i fun d => { d with raw := l })))
  ∧ (∀ (s : State) (t0 : Nat), Runs s → Within s (t0 + 100) →
    (s.key.stable = none → s.key.since = some t0 →
      ∃ t, exec (.firstStableLevel .key) s = .next t ∧ t.key.stable = some s.key.raw
        ∧ (t.keyOn = true ↔ s.key.raw = .high))
    ∧ (∀ x, s.key.stable = some x → s.key.since = some t0 → x ≠ s.key.raw →
      ∃ t, exec .serviceKeyChange s = .next t ∧ t.key.stable = some s.key.raw ∧ t.key.since = none
        ∧ (t.keyOn = true ↔ s.key.raw = .high) ∧ t.store = s.store ∧ t.batch = s.batch
        ∧ t.notices = s.notices)
    ∧ (∀ g, (s.recallOf g).line.stable = none → (s.recallOf g).line.since = some t0 →
      let fixes : Prop := s.site.phase = .open_ ∧ (s.recallOf g).fixed = false
      let active := (s.recallOf g).cfg.polarity.active (s.recallOf g).line.raw
      let learnt : RecallIn := { s.recallOf g with
        line := { raw := (s.recallOf g).line.raw, stable := some (s.recallOf g).line.raw, since := none } }
      ∃ t, exec (.firstStableLevel (.recallLine g)) s = .next t
        ∧ (¬ fixes → t.recallOf g = learnt ∧ t.groups = s.groups ∧ t.notices = s.notices)
        ∧ (fixes → t.recallOf g = { learnt with
              fixed := true
              state := if active = true then .inRecall
                       else if (s.recallOf g).cfg.mode = .latched then .held else .clear }
          ∧ ((t.recallOf g).state = (s.recallOf g).state → t.groups = s.groups ∧ t.notices = s.notices)
          ∧ ((t.recallOf g).state ≠ (s.recallOf g).state →
            (t.group g).avail = t.availability g
            ∧ ((s.group g).avail ≠ .inService → (∀ h, h ≠ g → t.group h = s.group h)
                ∧ t.group g = { s.group g with avail := (t.group g).avail })
            ∧ Reported t (groupNotice s t g .recallChange (some
                { before := (s.recallOf g).state, after := (t.recallOf g).state, active := active }))))))
  ∧ ∀ (s : State) (g : Group) (active : Bool) (x : Level) (t0 : Nat), Runs s →
    (s.recallOf g).line.stable = some x → x ≠ (s.recallOf g).line.raw →
    (s.recallOf g).line.since = some t0 → Within s (t0 + 100) →
    (s.recallOf g).cfg.polarity.active (s.recallOf g).line.raw = active →
    ∃ t, exec (if active then .lineBecomesActive g else .lineBecomesInactive g) s = .next t
      ∧ (t.recallOf g).line.stable = some (s.recallOf g).line.raw
      ∧ ((s.recallOf g).fixed = false → (t.recallOf g).state = (s.recallOf g).state ∧ t.groups = s.groups)
      ∧ ((s.recallOf g).fixed = true →
        (active = true → (s.recallOf g).state = .clear → (t.recallOf g).state = .inRecall)
        ∧ (active = true → (s.recallOf g).state = .held → (s.recallOf g).cfg.mode = .latched →
            (t.recallOf g).state = .inRecall)
        ∧ (active = false → (s.recallOf g).state = .inRecall →
            (t.recallOf g).state = if (s.recallOf g).cfg.mode = .latched then .held else .clear)
        ∧ ((t.recallOf g).state ≠ (s.recallOf g).state →
            (t.group g).avail = t.availability g
            ∧ Reported t (groupNotice s t g .recallChange (some
              { before := (s.recallOf g).state, after := (t.recallOf g).state, active := active })))
        ∧ (active = true → (s.recallOf g).state = .clear → (s.group g).avail = .inService →
            (t.group g).avail = .inRecall ∧ LeftService s t g ∧ ∀ c, ToldOutOfService s t g c))

/-! ### Receivers, the receive queue and the transmitter -/

/-- A receiver enters a frame at SYNC, collects the bytes that come within the limit of one another, and
leaves it when the limit runs out after the last of them or at a discard, with the fault of its link; a
Reader Line raises nothing. The byte that ends a frame and the byte that comes late have rows of their
own (log 31); that the row of a gap moves the time on to the end of the limit (Within) is log 11's
choice. A frame is discarded at the second byte of its LENGTH where that is above the link's maximum, and at
its last byte where the CRC does not match; SITE_FRAME carries the cause, 1 for a gap, 2 for the LENGTH and 3
for the CRC. That GROUP_PROTOCOL of a gap or a discard carries the group in the high byte of its detail and 0xFF
in the low is read from the table of R173 against the words of R159 (log 38, DEDUCED). -/
def Obligations.ReceiversEnterAndLeaveFrames : Prop :=
  (∀ (link : Link) (bs : List Byte), frameEnds link bs = true ↔
    2 ≤ bs.length ∧ (Link.maxPayload link < field bs 0 2 ∨ field bs 0 2 + 6 ≤ bs.length))
  ∧ (∀ (link : Link) (bs : List Byte) (cause : DiscardCause),
    let len := field bs 0 2
    let largest : Nat := match link with
      | .site => 1024
      | .group _ => 256
      | .reader _ => 32
    discardCause link bs = some cause ↔ 2 ≤ bs.length
      ∧ ((cause = .length ∧ largest < len)
        ∨ (cause = .crc ∧ len ≤ largest ∧ bs.length = len + 6
            ∧ field bs (len + 4) 2 ≠ (crc16 (bs.take (len + 4))).toNat)))
  ∧ ∀ (s : State) (link : Link) (byte : Byte), Runs s →
    let now := s.time.seconds * 1000 + s.time.ms
    let limit : Nat := match link with
      | .site => 20
      | .group _ => 20
      | .reader _ => 5
    (s.rxOf link = .hunting →
      (byte = 0xC3 → ∃ t, exec (.inFrame link byte) s = .next t ∧ t.rxOf link = .inFrame now []
        ∧ t.faults = s.faults)
      ∧ (byte ≠ 0xC3 → exec (.inFrame link byte) s = .next s))
    ∧ (∀ last got, s.rxOf link = .inFrame last got →
      (now ≤ last + limit → frameEnds link (got ++ [byte]) = false →
        ∃ t, exec (.inFrame link byte) s = .next t ∧ t.rxOf link = .inFrame now (got ++ [byte])
          ∧ t.faults = s.faults)
      ∧ (last + limit < now ∨ frameEnds link (got ++ [byte]) = true →
        exec (.inFrame link byte) s = .next s))
    ∧ (∀ last got late, s.rxOf link = .inFrame last got → Within s (last + limit) →
      ∃ t, exec (.byteGapTimeout link late) s = .next t
        ∧ (late ≠ some 0xC3 → t.rxOf link = .hunting)
        ∧ (late = some 0xC3 → t.rxOf link = .inFrame (max now (last + limit)) [])
        ∧ (link = .site → Raises s t .siteFrame 1
            ∧ (s.faults.first = none → ∃ x, t.faults.first = some x ∧ x.kind = .siteFrame ∧ x.detail = 1))
        ∧ (∀ g, link = .group g → Raises s t .groupProtocol (g.val * 256 + 0xFF))
        ∧ ∀ c, link = .reader c → t.faults = s.faults)
    ∧ (∀ bytes cause, discardCause link bytes = some cause →
      ∃ t, exec (.frameDiscard link bytes) s = .next t ∧ t.rxOf link = .hunting
        ∧ (link = .site → Raises s t .siteFrame (if cause = .length then 2 else 3)
            ∧ (s.faults.first = none → ∃ x, t.faults.first = some x ∧ x.kind = .siteFrame
                ∧ x.detail = if cause = .length then 2 else 3))
        ∧ (∀ g, link = .group g → Raises s t .groupProtocol (g.val * 256 + 0xFF))
        ∧ ∀ c, link = .reader c → t.faults = s.faults)

/-- A valid Site Link frame joins the queue of fewer than 4, and is discarded with SITE_OVERRUN at 4. The
transmitter, done with a frame that is no OK to RESTART, sends the waiting reply, or else the notice at
the head with its sequence number, or else falls idle; on an idle transmitter the row takes the queued
notice in the same way (log 14's choice, as is that a notice waits for that row or a tick). -/
def Obligations.PortReceivesAndSends : Prop :=
  (∀ (s : State) (type : Byte) (r : Req), Runs s →
    (s.site.queue.length < 4 → exec (.siteFrameReceive type r) s = .next { s with site :=
      { s.site with queue := s.site.queue ++ [{ type := type, req := r }], rx := .hunting } })
    ∧ (4 ≤ s.site.queue.length →
      ∃ t, exec (.siteFrameReceive type r) s = .next t ∧ t.site = { s.site with rx := .hunting }
        ∧ Raises s t .siteOverrun type.toNat
        ∧ (s.faults.first = none → ∃ x, t.faults.first = some x ∧ x.kind = .siteOverrun ∧ x.detail = type.toNat)))
  ∧ ∀ s : State, Runs s → (∀ tx, s.site.sending = some tx → tx.restart = false) →
    ∃ t, exec .transmitComplete s = .next t
      ∧ (∀ w, s.site.sending ≠ none → s.site.waiting = some w →
          t = { s with site := { s.site with sending := some w, waiting := none } })
      ∧ (∀ n rest, s.site.waiting = none → s.notices.queue = n :: rest →
          t.site = { s.site with sending := some (n.frame s.site.seq), seq := s.site.seq + 1 }
          ∧ (∀ c, (NoticeClass.all.find? fun c => s.notices.enabled c && s.notices.isPending c) = some c →
              t.notices.queue = rest ++ [.summary c] ∧ t.notices.isPending c = false)
          ∧ ((NoticeClass.all.find? fun c => s.notices.enabled c && s.notices.isPending c) = none →
              t.notices.queue = rest))
      ∧ (s.site.waiting = none → s.notices.queue = [] →
          t = { s with site := { s.site with sending := none } })

/-! ### Requests: reads and refusals -/

/-- The reads of the card answer OK with their items in the order their rules list them and change nothing
else; IDENTIFY and STATUS in every phase, the others with admission open. PROFILE READ, CHANNEL READ and
GROUP READ refuse RANGE for a bank, a channel or a group that is not there. A profile goes out as
FramesAndCodesOnTheWire spells it. The encodings that 10.4 does
not spell out are log 23's (the revision's one byte, the first-fault record, the absent counts), 53's and
54's (an absent entry, a deadline past), 48's (the copies to program), 39's (the condition until
admission opens) and 43's (the counter spent). -/
def Obligations.ReadsAnswerOk : Prop :=
  ∀ (s : State) (r : Req) (f : Byte → SiteFrame), (∀ type, f type = { type := type, req := r }) →
    let st := s.store
    let pages (p : PageState → Bool) : List Byte := u16 (st.pageState.toList.countP p)
    let left (d : Option Nat) : List Byte := opt8 (d.map fun d => d - s.cal.uptime)
    (PortReady s (f 0x01) → r.payload = [] → ReadsBack s (.identify r) (f 0x01)
      ([0x4D, 0x44, 3] ++ u32 (Config.serial.toNat / 4294967296) ++ u32 Config.serial.toNat
        ++ [32, 6, 128, 0x80, 0x00, 0x02, 0x20]))
    ∧ (PortReady s (f 0x02) → r.payload = [] → ∃ offline : List Byte, offline.length = 4
      ∧ (∀ c : Chan, (offline.getD (c.val / 8) 0).getLsbD (c.val % 8)
          = ((s.reader c).cfg.place != .unused && (s.reader c).state == .offline))
      ∧ ReadsBack s (.status r) (f 0x02)
        (u8 s.site.phase.code ++ u32 s.cal.uptime ++ u8 s.cal.state.code ++ bool8 s.keyOn
          ++ bool8 s.faults.line ++ u16 s.faults.status.toNat ++ u8 s.batch.state.code
          ++ u8 s.batch.edits.length ++ opt16 (s.batch.deadline.map fun d => d - s.cal.uptime)
          ++ u8 ((st.work.map fun w => w.kind.code).getD 0) ++ opt8 (st.work.map fun w => w.phase.code)
          ++ u8 (if s.site.phase = .open_ then s.dir.condition.code else Condition.usable.code)
          ++ u8 s.queue.length ++ u8 (if s.engine = .idle then 0 else 1)
          ++ s.groups.toList.flatMap (fun m => u8 m.avail.code) ++ offline ++ u8 s.notices.queue.length))
    ∧ (PortOpen s (f 0x04) → r.payload = [] → ReadsBack s (.clockRead r) (f 0x04)
      (u8 s.cal.state.code ++ u16 s.cal.day ++ u16 s.cal.weekMinute ++ u8 s.cal.second
        ++ u32 s.cal.uptime ++ u16 s.banks.number))
    ∧ (PortOpen s (f 0x10) → r.payload = [] → ReadsBack s (.storeStatus r) (f 0x10)
      (u8 s.dir.condition.code ++ u16 s.dir.recordCount
        ++ pages (· == .free) ++ pages (· == .data) ++ pages PageState.isStale
        ++ u8 (st.pageState.toList.countP PageState.isErasing)
        ++ u8 (st.pageState.toList.countP (· == .writing)) ++ pages (· == .retired)
        ++ pages (· == .stale .held) ++ pages (· == .stale .abandoned) ++ u16 st.eraseQ.length
        ++ u8 ((st.work.map fun w => w.kind.code).getD 0) ++ opt32 (st.work.map Work.number)
        ++ opt8 (st.work.map fun w => w.phase.code)
        ++ u16 ((st.work.map fun w => w.copies.countP fun c => c.page.isSome).getD 0)
        ++ u16 ((st.work.map fun w => w.copies.countP fun c => c.page.isNone).getD 0)
        ++ u32 st.lastLogged ++ u32 st.counter ++ u8 st.logPage.val ++ u8 st.logSlot.val
        ++ u8 st.save.state.code ++ bool8 st.save.pending ++ u8 st.save.last.code
        ++ u16 s.dir.marksTaken ++ u16 s.dir.marksNotTaken ++ u16 st.capped))
    ∧ (∀ n, PortOpen s (f 0x15) → r.payload = [0, n] → ReadsBack s (.profileRead r) (f 0x15)
      (u16 s.banks.number ++ (s.banks.active.toList.getD n.toNat Profile.default).bytes))
    ∧ (∀ n, PortOpen s (f 0x15) → r.payload = [1, n] → ReadsBack s (.profileRead r) (f 0x15)
      (u16 s.banks.number ++ (s.banks.shadow.toList.getD n.toNat Profile.default).bytes))
    ∧ (∀ b n : Byte, PortOpen s (f 0x15) → r.payload = [b, n] → 1 < b.toNat →
      Refuses s (.profileRead r) (f 0x15) .range [])
    ∧ (PortOpen s (f 0x19) → r.payload = [] → ReadsBack s (.holidayRead r) (f 0x19)
      (u8 s.banks.holidays.length ++ s.banks.holidays.flatMap u16))
    ∧ (PortOpen s (f 0x1D) → r.payload = [] → ReadsBack s (.zoneRead r) (f 0x1D)
      ((s.zone.landings.toList.flatMap fun e =>
          u8 ((if e.present then 1 else 0) + (if e.secure then 2 else 0) + (if e.transfer then 4 else 0))
            ++ labelBytes e.label)
        ++ s.zone.groups.toList.flatMap fun e =>
          u8 ((if e.present then 1 else 0) + (if e.serviceCar then 2 else 0)) ++ setBytes e.served))
    ∧ (∀ c : Chan, PortOpen s (f 0x21) → r.payload = [BitVec.ofNat 8 c.val] →
      let ch := s.reader c
      ReadsBack s (.channelRead r) (f 0x21)
        ((match ch.cfg.place with
            | .unused => [0, 0xFF, 0xFF, 0xFF]
            | .lobby l => [1, BitVec.ofNat 8 l.val, 0xFF, 0xFF]
            | .car g k => [2, 0xFF, BitVec.ofNat 8 g.val, BitVec.ofNat 8 k.val])
          ++ u8 ch.cfg.hold ++ u8 ch.state.code ++ u8 ch.mark.code
          ++ (match ch.entry with
            | none => [0, 0, 0, 0, 0, 0xFF]
            | some e => [1] ++ bool8 e.badge.isSome ++ labelBytes e.chars ++ u8 e.timer.code)
          ++ left ch.displayDeadline ++ left ch.silenceDeadline))
    ∧ (∀ n : Byte, PortOpen s (f 0x21) → r.payload = [n] → 31 < n.toNat →
      Refuses s (.channelRead r) (f 0x21) .range [])
    ∧ (∀ g : Group, PortOpen s (f 0x25) → r.payload = [BitVec.ofNat 8 g.val] →
      let m := s.group g
      let x := s.recallOf g
      ∃ orders : List Order, orders.Perm m.orders
        ∧ orders.Pairwise (fun a b => a.tag.toNat ≤ b.tag.toNat)
        ∧ ReadsBack s (.groupRead r) (f 0x25)
          (u8 m.avail.code ++ u8 m.link.code ++ bool8 m.accepting ++ u8 (m.silenceDeadline - s.cal.uptime)
            ++ u8 x.cfg.polarity.code ++ u8 x.cfg.mode.code ++ opt8 (x.line.stable.map Level.code)
            ++ u8 x.state.code ++ [m.tagCounter] ++ u8 m.orders.length
            ++ orders.flatMap (fun o => [o.tag] ++ bool8 o.kind.isEnable ++ u8 o.channel.val
              ++ match o.state with
                 | .sent => [0] ++ bool8 o.reservation.isSome
                    ++ u32 ((s.time.seconds * 1000 + s.time.ms - o.sentAt) / 100)
                 | .cancelling d => [1, 0] ++ u8 (d - s.cal.uptime))
            ++ (finList 8).flatMap fun k =>
              opt8 (m.cars[k].landing.map Fin.val) ++ opt8 (m.cars[k].motion.map Motion.code)
                ++ opt8 (m.cars[k].door.map Door.code)
                ++ opt8 (m.cars[k].inService.map fun b => if b then 1 else 0)
                ++ setBytes m.enables[k].confirmed ++ left m.enables[k].expiry))
    ∧ (∀ n : Byte, PortOpen s (f 0x25) → r.payload = [n] → 5 < n.toNat →
      Refuses s (.groupRead r) (f 0x25) .range [])
    ∧ (PortOpen s (f 0x28) → r.payload.length = 5 →
      ∃ es : List TransferEntry,
        es.Perm (s.transfer.entries.filter fun e => beNat r.payload ≤ e.badge && s.cal.uptime < e.expiry)
        ∧ es.Pairwise (fun a b => a.badge ≤ b.badge)
        ∧ ReadsBack s (.transferRead r) (f 0x28)
          (u8 (es.take 64).length
            ++ (es.take 64).flatMap (fun e => u40 e.badge ++ u8 e.landing.val ++ u8 e.final.val ++ u8 e.legs
              ++ u16 (e.expiry - s.cal.uptime))
            ++ bool8 (64 < es.length) ++ u8 s.transfer.entries.length ++ u16 s.transfer.evictions))
    ∧ (PortOpen s (f 0x2D) → r.payload = [] → ReadsBack s (.faultRead r) (f 0x2D)
      (u16 s.faults.status.toNat ++ u16 s.faults.masks.toNat ++ u16 s.faults.majors.toNat
        ++ bool8 s.faults.line
        ++ match s.faults.first with
           | none => List.replicate 13 0
           | some x => [1] ++ u8 x.kind.code ++ u32 x.uptime ++ bool8 x.date.isSome
              ++ opt16 (x.date.map Prod.fst) ++ opt16 (x.date.map Prod.snd) ++ u16 x.detail))
    ∧ (PortOpen s (f 0x33) → r.payload = [] → ReadsBack s (.timingRead r) (f 0x33)
      (u8 s.timing.badgeWait ++ u8 s.timing.interKey ++ u8 s.timing.carHold ++ u16 s.timing.validity
        ++ u16 s.timing.batchIdle))

/-- The general checks: an unlisted TYPE in any phase; STARTING until admission opens, for every request
but IDENTIFY and STATUS; LENGTH for a payload that does not fit. Then, with the service key OFF, the
protected requests are refused PROTECTED, whatever they carry in their proper length, PROFILE WRITE for
the service profiles alone. That a CHANNEL SET of an unknown kind has no LENGTH refusal is R163's. -/
def Obligations.ChecksComeInOrder : Prop :=
  ∀ (s : State) (r : Req),
    (∀ type, type ∉ siteRequestTypes → PortReady s { type := type, req := r } →
      Refuses s (.unknownType type r) { type := type, req := r } .unknownType [])
    ∧ (∀ p ∈ siteCommands r, p.1 ≠ 0x01 → p.1 ≠ 0x02 → PortReady s { type := p.1, req := r } →
      s.site.phase ≠ .open_ → Refuses s p.2 { type := p.1, req := r } .starting [])
    ∧ (∀ p ∈ siteCommands r,
        p.1 ∈ [0x01, 0x02, 0x04, 0x08, 0x0B, 0x0C, 0x0F, 0x10, 0x17, 0x19, 0x1D, 0x2D, 0x30, 0x31, 0x33] →
        PortOpen s { type := p.1, req := r } → r.payload ≠ [] →
        Refuses s p.2 { type := p.1, req := r } .length [])
    ∧ (∀ p ∈ siteCommands r, ∀ n : Nat,
        (p.1, n) ∈ [((0x03 : Byte), 5), (0x09, 13), (0x0A, 5), (0x0D, 5), (0x0E, 5), (0x15, 2), (0x16, 3),
          (0x1C, 614), (0x21, 1), (0x24, 3), (0x25, 1), (0x26, 1), (0x28, 5), (0x29, 5), (0x2C, 1),
          (0x2E, 2), (0x2F, 4), (0x32, 7)] →
        PortOpen s { type := p.1, req := r } → r.payload.length ≠ n →
        Refuses s p.2 { type := p.1, req := r } .length [])
    ∧ (PortOpen s { type := 0x14, req := r } →
        r.payload.length < 3 ∨ r.payload.length ≠ 3 + 21 * (r.payload.getD 2 0).toNat →
      Refuses s (.profileWrite r) { type := 0x14, req := r } .length [])
    ∧ (PortOpen s { type := 0x18, req := r } →
        r.payload = [] ∨ r.payload.length ≠ 1 + 2 * (r.payload.getD 0 0).toNat →
      Refuses s (.holidayWrite r) { type := 0x18, req := r } .length [])
    ∧ (∀ n : Nat, ((r.payload.getD 1 0).toNat, n) ∈ [(0, 3), (1, 4), (2, 5)] →
        PortOpen s { type := 0x20, req := r } → 2 ≤ r.payload.length → r.payload.length ≠ n →
      Refuses s (.channelSet r) { type := 0x20, req := r } .length [])
    ∧ (s.keyOn = false →
      (PortOpen s { type := 0x1C, req := r } → r.payload.length = 614 →
        Refuses s (.zoneWrite r) { type := 0x1C, req := r } .guarded [])
      ∧ (PortOpen s { type := 0x18, req := r } → r.payload ≠ [] →
          r.payload.length = 1 + 2 * (r.payload.getD 0 0).toNat →
        Refuses s (.holidayWrite r) { type := 0x18, req := r } .guarded [])
      ∧ (PortOpen s { type := 0x24, req := r } → r.payload.length = 3 →
        Refuses s (.groupSet r) { type := 0x24, req := r } .guarded [])
      ∧ (PortOpen s { type := 0x32, req := r } → r.payload.length = 7 →
        Refuses s (.timingSet r) { type := 0x32, req := r } .guarded [])
      ∧ (PortOpen s { type := 0x2F, req := r } → r.payload.length = 4 →
        Refuses s (.faultSet r) { type := 0x2F, req := r } .guarded [])
      ∧ (PortOpen s { type := 0x14, req := r } → r.payload.length = 3 + 21 * (r.payload.getD 2 0).toNat →
          240 ≤ (r.payload.getD 0 0).toNat →
        Refuses s (.profileWrite r) { type := 0x14, req := r } .guarded []))

/-! ### Requests: the calendar, the banks, the timings, the notices and the faults -/

/-- CLOCK SET. -/
def Obligations.ClockSetTakesTheCalendar : Prop :=
  ∀ (s : State) (r : Req),
    let c := Instr.clockSet r
    let f : SiteFrame := { type := 0x03, req := r }
    let day := field r.payload 0 2
    let minute := field r.payload 2 2
    let second := field r.payload 4 1
    (PortReady s f → s.site.phase ≠ .open_ → Refuses s c f .starting [])
    ∧ (PortOpen s f → r.payload.length ≠ 5 → Refuses s c f .length [])
    ∧ (PortOpen s f → r.payload.length = 5 → 10079 < minute ∨ 59 < second → Refuses s c f .range [])
    ∧ (PortOpen s f → r.payload.length = 5 → minute ≤ 10079 → second ≤ 59 →
      ∃ t, exec c s = .next t
        ∧ t = { s with
            cal := { state := .set, day := day, weekMinute := minute, second := second
                     dayLimitReported := false, uptime := s.cal.uptime }
            site := portReplied (portTaken s.site) (replyFrame f .ok [] false)
            notices := t.notices }
        ∧ Reported t (.clockSet s.cal.state s.cal.day s.cal.weekMinute day minute)
        ∧ t.persisting .clockUnset = none)

/-- SWITCH ARM and SWITCH DISARM; RESTART ARM and RESTART, which takes effect only with the arm set (every
other request clears that arm, as the frame of every statement of a reply says). That NEXT_MINUTE with a
W above 10079 is refused RANGE too is log 44's. -/
def Obligations.ArmsAreSetAndTaken : Prop :=
  ∀ (s : State) (r : Req),
    let arm : SiteFrame := { type := 0x16, req := r }
    let disarm : SiteFrame := { type := 0x17, req := r }
    let fa : SiteFrame := { type := 0x30, req := r }
    let fr : SiteFrame := { type := 0x31, req := r }
    let w := field r.payload 1 2
    (PortReady s arm → s.site.phase ≠ .open_ → Refuses s (.switchArm r) arm .starting [])
    ∧ (PortOpen s arm → r.payload.length ≠ 3 → Refuses s (.switchArm r) arm .length [])
    ∧ (PortOpen s arm → r.payload.length = 3 → 1 < byteAt r.payload 0 ∨ 10079 < w →
        Refuses s (.switchArm r) arm .range [])
    ∧ (PortOpen s arm → r.payload.length = 3 → w ≤ 10079 →
        (byteAt r.payload 0 = 0 →
          AnswersWith s (.switchArm r) arm .ok [] { s with banks := { s.banks with arm := .nextMinute } })
        ∧ (byteAt r.payload 0 = 1 →
          AnswersWith s (.switchArm r) arm .ok [] { s with banks := { s.banks with arm := .at w } }))
    ∧ (PortReady s disarm → s.site.phase ≠ .open_ → Refuses s (.switchDisarm r) disarm .starting [])
    ∧ (PortOpen s disarm → r.payload ≠ [] → Refuses s (.switchDisarm r) disarm .length [])
    ∧ (PortOpen s disarm → r.payload = [] → s.banks.arm = .none →
        Refuses s (.switchDisarm r) disarm .notArmed [])
    ∧ (PortOpen s disarm → r.payload = [] → s.banks.arm ≠ .none →
        AnswersWith s (.switchDisarm r) disarm .ok [] { s with banks := { s.banks with arm := .none } })
    ∧ (PortOpen s fa → r.payload = [] → exec (.restartArm r) s = .next { s with site :=
      { portReplied (portTaken s.site) (replyFrame fa .ok [] false) with restartArm := true } })
    ∧ (PortOpen s fr → r.payload = [] → s.site.restartArm = false →
        Refuses s (.restart r) fr .notArmed [])
    ∧ (PortOpen s fr → r.payload = [] → s.site.restartArm = true →
        exec (.restart r) s = .next { s with
          site := portReplied (portTaken s.site) (replyFrame fr .ok [] true) })

/-- PROFILE WRITE replaces one profile of the shadow bank, HOLIDAY WRITE the whole Holiday List; a value
out of its range is refused by the index of the first fault. TIMING SET clamps and never refuses a value;
a lowered validity brings the expiries of the Transfer Table down. -/
def Obligations.ProfilesHolidaysAndTimingsAreWritten : Prop :=
  ∀ (s : State) (r : Req),
    let p := r.payload
    let fp : SiteFrame := { type := 0x14, req := r }
    let fh : SiteFrame := { type := 0x18, req := r }
    let ft : SiteFrame := { type := 0x32, req := r }
    let inDay (k : Nat) : Prop := (clauseOf p k).start ≤ 1439 ∧ (clauseOf p k).stop ≤ 1439
    let days := holidaysOf p
    let rises (k : Nat) : Prop := days.getD k 0 < days.getD (k + 1) 0
    let x : Timings :=
      { badgeWait := max 20 (min 100 (byteAt r.payload 0)), interKey := max 5 (min 50 (byteAt r.payload 1))
        carHold := max 3 (min 60 (byteAt r.payload 2)), validity := max 120 (min 1800 (field r.payload 3 2))
        batchIdle := max 10 (min 300 (field r.payload 5 2)) }
    (∀ k, (clauseOf p k).days = p.getD (19 + 21 * k) 0 ∧ (clauseOf p k).start = field p (20 + 21 * k) 2
      ∧ (clauseOf p k).stop = field p (22 + 21 * k) 2
      ∧ ∀ l : Landing, (clauseOf p k).landings.getLsbD l.val
          = (p.getD (3 + 21 * k + l.val / 8) 0).getLsbD (l.val % 8))
    ∧ days.length = byteAt p 0 ∧ (∀ k < byteAt p 0, days[k]? = some (field p (1 + 2 * k) 2))
    ∧ (PortOpen s fp → p.length = 3 + 21 * byteAt p 2 → s.keyOn = true ∨ byteAt p 0 < 240 →
      (1 < byteAt p 1 → Refuses s (.profileWrite r) fp .range [255])
      ∧ (byteAt p 1 ≤ 1 → 8 < byteAt p 2 → Refuses s (.profileWrite r) fp .range [8])
      ∧ (∀ k, byteAt p 1 ≤ 1 → byteAt p 2 ≤ 8 → k < byteAt p 2 → (∀ j < k, inDay j) → ¬ inDay k →
          Refuses s (.profileWrite r) fp .range (u8 k))
      ∧ (byteAt p 1 ≤ 1 → byteAt p 2 ≤ 8 → (∀ k < byteAt p 2, inDay k) →
          AnswersWith s (.profileWrite r) fp .ok [] { s with banks := { s.banks with
            shadow := s.banks.shadow.setIfInBounds (byteAt p 0)
              { serviceCar := byteAt p 1 == 1, clauses := (List.range (byteAt p 2)).map (clauseOf p) } } }))
    ∧ (PortOpen s fh → p ≠ [] → p.length = 1 + 2 * byteAt p 0 → s.keyOn = true →
      (64 < byteAt p 0 → Refuses s (.holidayWrite r) fh .range [64])
      ∧ (∀ k, byteAt p 0 ≤ 64 → k + 1 < byteAt p 0 → (∀ j < k, rises j) → ¬ rises k →
          Refuses s (.holidayWrite r) fh .range (u8 (k + 1)))
      ∧ (byteAt p 0 ≤ 64 → (∀ k, k + 1 < byteAt p 0 → rises k) →
          AnswersWith s (.holidayWrite r) fh .ok [] { s with
            banks := { s.banks with holidays := days }, store := saveQueued s.store }))
    ∧ (PortOpen s ft → r.payload.length = 7 → s.keyOn = true →
      AnswersWith s (.timingSet r) ft .ok
        (u8 x.badgeWait ++ u8 x.interKey ++ u8 x.carHold ++ u16 x.validity ++ u16 x.batchIdle)
        { s with
          timing := x
          store := saveQueued s.store
          transfer := { s.transfer with entries := s.transfer.entries.map fun e =>
            { e with expiry := if x.validity < s.timing.validity then min e.expiry (e.setAt + x.validity)
                               else e.expiry } } })

/-- Notices are taken at the end of their event in ascending class number, those of a class as raised: one of
an ENABLED class joins the tail with the uptime of its raising while places remain, and any other sets its
class's pending flag. The raising of a fault sets its kind's status, fills an empty First-Fault Record, reworks
the line, and, unless the kind is masked, raises a FAULT notice that says whether the status was set before.
NOTICE SET, FAULT SET and FAULT CLEAR, with the five persisting conditions of R174 and the record that
their raising fills. NOTICE SET gives a SUMMARY to each class it makes ENABLED with its flag set, lowest
class first while places remain. That the spare sum counts the ERASING page is log 19's, since R59 says
both. -/
def Obligations.NoticesAndFaultsAreSet : Prop :=
  (∀ s : State,
    let raised := s.notices.raised
    let room := 64 - s.notices.queue.length
    (∀ b, s.raiseNotice b = { s with notices := { s.notices with
      raised := raised ++ [{ uptime := s.cal.uptime, body := b }] } })
    ∧ ∃ taken : List Notice, taken.Perm raised
      ∧ (taken.map fun n => n.body.cls.code).Pairwise (· ≤ ·)
      ∧ (∀ c : NoticeClass, taken.filter (fun n => n.body.cls = c) = raised.filter fun n => n.body.cls = c)
      ∧ (let allowed := taken.filter fun n => s.notices.enabled n.body.cls
        s.settle = { s with notices := s.settle.notices } ∧ s.settle.notices.raised = []
        ∧ s.settle.notices.enables = s.notices.enables
        ∧ s.settle.notices.queue = s.notices.queue ++ (allowed.take room).map QueuedNotice.notice
        ∧ ∀ c : NoticeClass, s.settle.notices.isPending c = true ↔ s.notices.isPending c = true
            ∨ ∃ n ∈ taken, n.body.cls = c ∧ (s.notices.enabled c = false ∨ n ∈ allowed.drop room)))
  ∧ (∀ (s : State) (k : FaultKind) (detail : Nat),
    let f := s.faults
    let t := s.raiseFault k detail
    t = { s with faults := t.faults, notices := t.notices }
    ∧ (s.cal.state = .set → s.date = some (s.cal.day, s.cal.weekMinute))
    ∧ (s.cal.state = .unset → s.date = none)
    ∧ (∀ j : FaultKind, t.faults.isSet j = true ↔ j = k ∨ f.isSet j = true)
    ∧ t.faults.masks = f.masks ∧ t.faults.majors = f.majors
    ∧ (∀ x, f.first = some x → t.faults.first = some x)
    ∧ (f.first = none →
        t.faults.first = some { kind := k, uptime := s.cal.uptime, date := s.date, detail := detail })
    ∧ t.faults.storeDetail = (if k = .storeFault then detail else f.storeDetail)
    ∧ (t.faults.line = true ↔ s.site.phase = .open_
        ∧ ∃ j : FaultKind, t.faults.isSet j = true ∧ f.masked j = false ∧ f.major j = true)
    ∧ (f.masked k = true → t.notices = s.notices)
    ∧ (f.masked k = false → t.notices = { s.notices with raised := s.notices.raised ++
        [{ uptime := s.cal.uptime, body := .faultRaised k (f.major k) detail (f.isSet k) s.date }] }))
  ∧ (∀ (s : State) (n : Nat),
    let offlineGroup (g : Group) : Prop := (s.zoneGroup g).present = true ∧ (s.group g).link ≠ .live
    let offlineChannel (c : Chan) : Prop :=
      (s.reader c).cfg.place ≠ .unused ∧ (s.reader c).state = .offline
    let spare := s.store.pageState.toList.countP fun x =>
      x == .free || x.isStale || x.isErasing || x == .writing
    (s.persisting .groupOffline = some n ↔
      ∃ g : Group, g.val = n ∧ offlineGroup g ∧ ∀ h : Group, h < g → ¬ offlineGroup h)
    ∧ (s.persisting .readerOffline = some n ↔
      ∃ c : Chan, c.val = n ∧ offlineChannel c ∧ ∀ d : Chan, d < c → ¬ offlineChannel d)
    ∧ (s.persisting .spareLow = some n ↔ spare < 8 ∧ n = spare)
    ∧ (s.persisting .storeFault = some n ↔ s.dir.condition = .unusable ∧ n = s.faults.storeDetail)
    ∧ (s.persisting .clockUnset = some n ↔ s.cal.state = .unset ∧ n = 0)
    ∧ ∀ k ∈ [FaultKind.siteFrame, .siteOverrun, .groupProtocol, .storeProgramFail, .storeEraseFail,
        .settingsLost, .commitFail], s.persisting k = none)
  ∧ ∀ (s : State) (r : Req),
    let fn : SiteFrame := { type := 0x2C, req := r }
    let fs : SiteFrame := { type := 0x2F, req := r }
    let fc : SiteFrame := { type := 0x2E, req := r }
    let masks := field r.payload 0 2
    let majors := field r.payload 2 2
    let named := BitVec.ofNat 12 (field r.payload 0 2)
    (∀ e : Byte, PortOpen s fn → r.payload = [e] →
      let due := (NoticeClass.all.filter fun c =>
        !s.notices.enabled c && e.getLsbD c.code && s.notices.isPending c).take
          (64 - s.notices.queue.length)
      ∃ t, exec (.noticeSet r) s = .next t
        ∧ t = { s with
            store := saveQueued s.store
            site := portReplied (portTaken s.site) (replyFrame fn .ok [e] false), notices := t.notices }
        ∧ t.notices.enables = e ∧ t.notices.queue = s.notices.queue ++ due.map QueuedNotice.summary
        ∧ ∀ c : NoticeClass, t.notices.isPending c = (s.notices.isPending c && !due.contains c))
    ∧ (PortOpen s fs → r.payload.length = 4 → s.keyOn = true →
      (4096 ≤ masks ∨ 4096 ≤ majors → Refuses s (.faultSet r) fs .range [])
      ∧ (masks < 4096 → majors < 4096 →
        AnswersWith s (.faultSet r) fs .ok (u16 masks ++ u16 majors) { s with
          store := saveQueued s.store
          faults := { s.faults with
            masks := BitVec.ofNat 12 masks, majors := BitVec.ofNat 12 majors
            line := s.faults.status &&& ~~~BitVec.ofNat 12 masks &&& BitVec.ofNat 12 majors != 0 } }))
    ∧ (PortOpen s fc → r.payload.length = 2 →
      (4096 ≤ field r.payload 0 2 → Refuses s (.faultClear r) fc .range [])
      ∧ (field r.payload 0 2 < 4096 →
        ∃ t, exec (.faultClear r) s = .next t
          ∧ t = { s with
              site := portReplied (portTaken s.site) (replyFrame fc .ok
                (u16 t.faults.status.toNat ++ bool8 t.faults.first.isNone) false)
              faults := t.faults, notices := t.notices }
          ∧ (∀ k : FaultKind, named.getLsbD k.code = false → t.faults.isSet k = s.faults.isSet k)
          ∧ (∀ k : FaultKind, named.getLsbD k.code = true →
              (t.faults.isSet k = true ↔ s.persisting k ≠ none))
          ∧ t.faults.masks = s.faults.masks ∧ t.faults.majors = s.faults.majors
          ∧ t.faults.line = (t.faults.status &&& ~~~s.faults.masks &&& s.faults.majors != 0)
          ∧ (∀ x, s.faults.first = some x → named.getLsbD x.kind.code = false → t.faults.first = some x)
          ∧ ((∀ x, s.faults.first = some x → named.getLsbD x.kind.code = true) →
              ((∀ k : FaultKind, named.getLsbD k.code = true → s.persisting k = none) →
                t.faults.first = none)
              ∧ ∀ k d, named.getLsbD k.code = true → s.persisting k = some d →
                (∀ j : FaultKind, j.code < k.code → named.getLsbD j.code = true → s.persisting j = none) →
                t.faults.first = some { kind := k, uptime := s.cal.uptime, date := s.date, detail := d })
          ∧ ∀ k d, named.getLsbD k.code = true → s.persisting k = some d → s.faults.masked k = false →
              Reported t (.faultRaised k (s.faults.major k) d false s.date)))

/-! ### Requests: the map, the channels, the groups, the Transfer Table -/

/-- ZONE WRITE: the first failing check and its item, or the map replaced whole, with GROUP_OFFLINE for
each group it makes present on a SILENT link and no change of the faults and the notices where it makes none
so. The nine checks are spelled out, each naming its lowest failing
item; a label field with a zero byte before a character fails check 2, its wire form having no such
label. -/
def Obligations.ZoneWriteReplacesTheMap : Prop :=
  ∀ (s : State) (r : Req),
    let f : SiteFrame := { type := 0x1C, req := r }
    let p := r.payload
    let z := zoneOf r.payload
    let here (l : Landing) : Prop := (z.landing l).present = true
    let stands (g : Group) : Prop := (z.group g).present = true
    let serves (g : Group) (l : Landing) : Prop := (z.group g).served.getLsbD l.val = true
    let changes (l : Landing) : Prop := here l ∧ (z.landing l).transfer = true
    let label (l : Landing) : List Byte := (z.landing l).label
    let landingFails (n : Nat) (l : Landing) : Prop :=
      match n with
      | 1 => (¬ here l ∧ (label l ≠ [] ∨ (z.landing l).secure = true ∨ (z.landing l).transfer = true))
          ∨ 8 ≤ byteAt p (4 * l.val)
      | 2 => here l ∧ (label l = [] ∨ (0 : Byte) ∈ label l)
      | 3 => here l ∧ ∃ b ∈ label l, ¬ ((0x30 ≤ b.toNat ∧ b.toNat ≤ 0x39) ∨ b ∈ [(0x42 : Byte), 0x4C, 0x4D, 0x53])
      | 4 => here l ∧ ∃ k < l, here k ∧ label k = label l
      | 8 => changes l ∧ ((finList 128).filter fun k =>
          k < l && (z.landing k).present && (z.landing k).transfer).length = 8
      | _ => changes l ∧ ¬ ∃ g h : Group, g ≠ h ∧ stands g ∧ stands h ∧ serves g l ∧ serves h l
    let groupFails (n : Nat) (g : Group) : Prop :=
      match n with
      | 5 => (¬ stands g ∧ ((z.group g).served ≠ 0 ∨ (z.group g).serviceCar = true))
          ∨ 4 ≤ byteAt p (512 + 17 * g.val)
      | 6 => stands g ∧ ∃ l, serves g l ∧ ¬ here l
      | _ => stands g ∧ ¬ ∃ l k : Landing, l ≠ k ∧ serves g l ∧ serves g k
    let bitOf (byte bit : Nat) : Bool := (p.getD byte 0).getLsbD bit
    (∀ l : Landing, (z.landing l).present = bitOf (4 * l.val) 0 ∧ (z.landing l).secure = bitOf (4 * l.val) 1
      ∧ (z.landing l).transfer = bitOf (4 * l.val) 2
      ∧ ∃ zeros, (p.drop (4 * l.val + 1)).take 3 = label l ++ List.replicate zeros 0
          ∧ (label l).getLast? ≠ some 0)
    ∧ (∀ g : Group, (z.group g).present = bitOf (512 + 17 * g.val) 0
      ∧ (z.group g).serviceCar = bitOf (512 + 17 * g.val) 1
      ∧ ∀ l : Landing, (z.group g).served.getLsbD l.val
          = bitOf (513 + 17 * g.val + l.val / 8) (l.val % 8))
    ∧ (∀ n i, n ∈ [1, 2, 3, 4, 8, 9] → (zoneCheckItem p z n = some i ↔
      ∃ l : Landing, l.val = i ∧ landingFails n l ∧ ∀ k < l, ¬ landingFails n k))
    ∧ (∀ n i, n ∈ [5, 6, 7] → (zoneCheckItem p z n = some i ↔
      ∃ g : Group, g.val = i ∧ groupFails n g ∧ ∀ h < g, ¬ groupFails n h))
    ∧ (PortOpen s f → r.payload.length = 614 → s.keyOn = true →
      (∀ n i, n ∈ [1, 2, 3, 4, 5, 6, 7, 8, 9] → (∀ m ∈ [1, 2, 3, 4, 5, 6, 7, 8, 9], m < n →
          zoneCheckItem r.payload z m = none) → zoneCheckItem r.payload z n = some i →
        Refuses s (.zoneWrite r) f .range (u8 n ++ u8 i))
      ∧ ((∀ n ∈ [1, 2, 3, 4, 5, 6, 7, 8, 9], zoneCheckItem r.payload z n = none) →
        ∃ t, exec (.zoneWrite r) s = .next t
          ∧ t = { s with
              zone := z, store := saveQueued s.store
              site := portReplied (portTaken s.site) (replyFrame f .ok [] false)
              faults := t.faults, notices := t.notices }
          ∧ OfflineRaised s t
          ∧ (∀ k : FaultKind, k ≠ .groupOffline → t.faults.isSet k = s.faults.isSet k)
          ∧ t.faults.masks = s.faults.masks ∧ t.faults.majors = s.faults.majors
          ∧ (let appears (g : Group) : Prop :=
              (s.zoneGroup g).present = false ∧ stands g ∧ (s.group g).link = .silent
            ((∀ g, ¬ appears g) → t.faults = s.faults ∧ t.notices = s.notices)
            ∧ ∀ g, appears g → (∀ h < g, ¬ appears h) → LineRight t
              ∧ t.faults.first = (s.faults.first <|> some
                  { kind := .groupOffline, uptime := s.cal.uptime, date := s.date, detail := g.val }))))

/-- CHANNEL SET: the first failing field, or the channel's configuration stored with its hold clamped;
a change of kind or place reconfigures the channel. The model's own choices: a channel reconfigured while
already OFFLINE raises READER_OFFLINE again, and one made UNUSED keeps of the records not yet sent the
blank form alone (log 35); an unknown kind fits any length (log 36). -/
def Obligations.ChannelSetConfigures : Prop :=
  ∀ (s : State) (r : Req) (c : Chan) (place : Place),
    let p := r.payload
    let f : SiteFrame := { type := 0x20, req := r }
    let hold := max 2 (min 15 (p.getLastD 0).toNat)
    let live : Prop := ∃ d, (s.reader c).silenceDeadline = some d ∧ s.cal.uptime < d
    let blanks : Prop := (s.reader c).state = .showing ∧ live
    PortOpen s f →
    (∀ n h, p = [n, 0, h] → 31 < n.toNat → Refuses s (.channelSet r) f .range [1])
    ∧ (∀ n l h, p = [n, 1, l, h] → 31 < n.toNat → Refuses s (.channelSet r) f .range [1])
    ∧ (∀ n g car h, p = [n, 2, g, car, h] → 31 < n.toNat → Refuses s (.channelSet r) f .range [1])
    ∧ (∀ k rest, p = BitVec.ofNat 8 c.val :: k :: rest → 2 < k.toNat → Refuses s (.channelSet r) f .range [2])
    ∧ (∀ l h, p = [BitVec.ofNat 8 c.val, 1, l, h] → 127 < l.toNat → Refuses s (.channelSet r) f .range [3])
    ∧ (∀ g car h, p = [BitVec.ofNat 8 c.val, 2, g, car, h] → 5 < g.toNat →
        Refuses s (.channelSet r) f .range [3])
    ∧ (∀ g car h, p = [BitVec.ofNat 8 c.val, 2, g, car, h] → g.toNat ≤ 5 → 7 < car.toNat →
        Refuses s (.channelSet r) f .range [4])
    ∧ (∀ h : Byte, (place = .unused ∧ p = [BitVec.ofNat 8 c.val, 0, h])
        ∨ (∃ l : Landing, place = .lobby l ∧ p = [BitVec.ofNat 8 c.val, 1, BitVec.ofNat 8 l.val, h])
        ∨ (∃ (g : Group) (car : Car), place = .car g car
            ∧ p = [BitVec.ofNat 8 c.val, 2, BitVec.ofNat 8 g.val, BitVec.ofNat 8 car.val, h]) →
      ((s.reader c).cfg.place = place →
        AnswersWith s (.channelSet r) f .ok (u8 hold)
          { s.mapReader c (fun ch => { ch with cfg := { place := place, hold := hold } }) with
            store := saveQueued s.store })
      ∧ ((s.reader c).cfg.place ≠ place →
        ∃ t, exec (.channelSet r) s = .next t
          ∧ t.site = portReplied (portTaken s.site) (replyFrame f .ok (u8 hold) false)
          ∧ t.store = saveQueued s.store
          ∧ (t.reader c).cfg = { place := place, hold := hold } ∧ (t.reader c).entry = none
          ∧ (t.reader c).displayDeadline = none ∧ (t.reader c).mark ≠ .owned
          ∧ ((s.reader c).mark = .owned →
              ((∃ q ∈ s.queue, q.channel = c) → (t.reader c).mark = .none
                ∧ t.queue = s.queue.filter fun q => q.channel != c)
              ∧ ((∀ q ∈ s.queue, q.channel ≠ c) → (t.reader c).mark = .discard ∧ t.queue = s.queue))
          ∧ ((s.reader c).mark ≠ .owned → (t.reader c).mark = (s.reader c).mark ∧ t.queue = s.queue)
          ∧ (∀ d, d ≠ c → t.reader d = s.reader d)
          ∧ (place = .unused → (t.reader c).state = .unused
              ∧ (blanks → (t.reader c).tx = [.blank]) ∧ (¬ blanks → (t.reader c).tx = []))
          ∧ (place ≠ .unused → (t.reader c).mark = .discard → (t.reader c).state = .pending)
          ∧ (place ≠ .unused → (t.reader c).mark = .none → live →
              (t.reader c).state = .idle
              ∧ (blanks → (t.reader c).tx = (s.reader c).tx ++ [.blank])
              ∧ (¬ blanks → (t.reader c).tx = (s.reader c).tx))
          ∧ (place ≠ .unused → (t.reader c).mark = .none → ¬ live →
              (t.reader c).state = .offline ∧ (t.reader c).tx = []
              ∧ Raises s t .readerOffline c.val
              ∧ Reported t (.readerOffline c (s.reader c).state))))

/-- GROUP SET replaces a group's recall configuration and re-derives its state, the first failing field
refused; GROUP RESUME releases a HELD recall alone. A change of the state is handed to the group's
manager: its availability, the end of its orders and its opened cars where it leaves service, and its
GROUP notice. -/
def Obligations.GroupSetAndResumeMoveTheRecall : Prop :=
  ∀ (s : State) (r : Req) (g : Group) (polarity : Polarity) (mode : RecallMode),
    let fs : SiteFrame := { type := 0x24, req := r }
    let fr : SiteFrame := { type := 0x26, req := r }
    let x := s.recallOf g
    let active (t : Level) : Bool := polarity.active t
    let after (stable : Level) : RecallState :=
      if active stable then .inRecall
      else if x.state = .clear then .clear
      else if mode = .latched then .held else .clear
    (PortOpen s fs → s.keyOn = true → ∀ n a b : Byte, r.payload = [n, a, b] →
      (5 < n.toNat → Refuses s (.groupSet r) fs .range [1])
      ∧ (n.toNat ≤ 5 → 1 < a.toNat → Refuses s (.groupSet r) fs .range [2])
      ∧ (n.toNat ≤ 5 → a.toNat ≤ 1 → 1 < b.toNat → Refuses s (.groupSet r) fs .range [3]))
    ∧ (PortOpen s fs → s.keyOn = true →
      r.payload = [BitVec.ofNat 8 g.val, BitVec.ofNat 8 polarity.code, BitVec.ofNat 8 mode.code] →
      ∃ t, exec (.groupSet r) s = .next t
        ∧ (t.recallOf g).cfg = { polarity := polarity, mode := mode } ∧ (t.recallOf g).line = x.line
        ∧ t.store = saveQueued s.store
        ∧ (∀ stable, x.line.stable = some stable → (t.recallOf g).state = after stable
          ∧ (after stable = x.state → t.groups = s.groups ∧ t.notices = s.notices)
          ∧ (after stable ≠ x.state → (t.group g).avail = t.availability g
              ∧ Reported t (groupNotice s t g .recallChange (some
                  { before := x.state, after := after stable, active := active stable }))
              ∧ ((s.group g).avail = .inService → after stable ≠ .clear →
                  (t.group g).avail = .inRecall ∧ LeftService s t g ∧ ∀ c, ToldOutOfService s t g c)))
        ∧ (x.line.stable = none → (t.recallOf g).state = x.state ∧ t.groups = s.groups)
        ∧ t.site = portReplied (portTaken s.site) (replyFrame fs .ok
            (u8 polarity.code ++ u8 mode.code ++ u8 (t.recallOf g).state.code) false))
    ∧ (PortOpen s fr → r.payload = [BitVec.ofNat 8 g.val] →
      (x.state = .inRecall → Refuses s (.groupResume r) fr .lineActive [])
      ∧ (x.state = .clear → Refuses s (.groupResume r) fr .notArmed [])
      ∧ (x.state = .held → ∃ t, exec (.groupResume r) s = .next t ∧ (t.recallOf g).state = .clear
          ∧ (t.group g).avail = t.availability g
          ∧ t.site = portReplied (portTaken s.site) (replyFrame fr .ok [] false)
          ∧ Reported t (groupNotice s t g .recallChange (some
              { before := .held, after := .clear, active := x.active }))))
    ∧ (∀ n : Byte, PortOpen s fr → r.payload = [n] → 5 < n.toNat → Refuses s (.groupResume r) fr .range [])

/-- TRANSFER PURGE. -/
def Obligations.TransferPurgeRemovesTheEntry : Prop :=
  ∀ (s : State) (r : Req),
    let c := Instr.transferPurge r
    let f : SiteFrame := { type := 0x29, req := r }
    let b := beNat r.payload
    (PortReady s f → s.site.phase ≠ .open_ → Refuses s c f .starting [])
    ∧ (PortOpen s f → r.payload.length ≠ 5 → Refuses s c f .length [])
    ∧ (PortOpen s f → r.payload.length = 5 → b = 0 → Refuses s c f .range [])
    ∧ (PortOpen s f → r.payload.length = 5 → b ≠ 0 → (∀ e ∈ s.transfer.entries, e.badge ≠ b) →
        Refuses s c f .notFound [])
    ∧ (PortOpen s f → r.payload.length = 5 → b ≠ 0 → (∃ e ∈ s.transfer.entries, e.badge = b) →
        AnswersWith s c f .ok [] { s with transfer :=
          { s.transfer with entries := s.transfer.entries.filter fun e => e.badge != b } })

/-! ### Requests: batches and the directory -/

/-- BATCH OPEN and BATCH ABANDON. -/
def Obligations.BatchOpensAndIsAbandoned : Prop :=
  ∀ (s : State) (r : Req),
    let fo : SiteFrame := { type := 0x08, req := r }
    let fa : SiteFrame := { type := 0x0C, req := r }
    (PortReady s fo → s.site.phase ≠ .open_ → Refuses s (.batchOpen r) fo .starting [])
    ∧ (PortOpen s fo → r.payload ≠ [] → Refuses s (.batchOpen r) fo .length [])
    ∧ (PortOpen s fo → r.payload = [] →
        s.batch.state ≠ .closed ∨ (∃ w, s.store.work = some w ∧ w.kind = .compact) →
        Refuses s (.batchOpen r) fo .busy [])
    ∧ (PortOpen s fo → r.payload = [] → s.batch.state = .closed → s.store.work = none →
        (s.dir.condition = .unusable → Refuses s (.batchOpen r) fo .storeFault [])
        ∧ (s.dir.condition = .usable → AnswersWith s (.batchOpen r) fo .ok [] { s with batch :=
          { state := .open_, edits := [], deadline := some (s.cal.uptime + s.timing.batchIdle)
            commit := none, purge := [] } }))
    ∧ (PortReady s fa → s.site.phase ≠ .open_ → Refuses s (.batchAbandon r) fa .starting [])
    ∧ (PortOpen s fa → r.payload ≠ [] → Refuses s (.batchAbandon r) fa .length [])
    ∧ (PortOpen s fa → r.payload = [] → s.batch.state = .closed →
        Refuses s (.batchAbandon r) fa .notOpen [])
    ∧ (PortOpen s fa → r.payload = [] → s.batch.state = .committing →
        Refuses s (.batchAbandon r) fa .busy [])
    ∧ (PortOpen s fa → r.payload = [] → s.batch.state = .open_ →
        AnswersWith s (.batchAbandon r) fa .ok (u8 s.batch.edits.length) { s with batch :=
          { state := .closed, edits := [], deadline := none, commit := none, purge := [] } })

/-- STAGE PUT and STAGE DROP: NOT_OPEN, RANGE with the number of the first failing field, FULL, the edit staged
with the key ON, and with the key OFF the protection by the profiles named, 240 to 255 being the service
profiles, or the lookup that must end first. The model's own choices: FULL here carries no figure (log 45),
STAGE DROP's RANGE names field 1 (log 50), and the fields are tried in the order of their numbers (log 51). -/
def Obligations.StagingTakesOneEditABadge : Prop :=
  (∀ p : List Byte, p.length = 13 →
    let badge := field p 0 5 = 0
    let status := 2 < byteAt p 5
    let home := 8 ≤ byteAt p 7 ∨ ((p.getD 7 0).getLsbD 0 = true ∧ 127 < byteAt p 8)
    let attributes := 3 < byteAt p 9
    let budget := (p.getD 7 0).getLsbD 2 = true ∧ ¬ (1 ≤ byteAt p 12 ∧ byteAt p 12 ≤ 32)
    (recordFailure p = some 1 ↔ badge) ∧ (recordFailure p = some 2 ↔ ¬ badge ∧ status)
    ∧ (recordFailure p = some 3 ↔ ¬ badge ∧ ¬ status ∧ home)
    ∧ (recordFailure p = some 4 ↔ ¬ badge ∧ ¬ status ∧ ¬ home ∧ attributes)
    ∧ (recordFailure p = some 5 ↔ ¬ badge ∧ ¬ status ∧ ¬ home ∧ ¬ attributes ∧ budget)
    ∧ (recordFailure p = none ↔ ¬ badge ∧ ¬ status ∧ ¬ home ∧ ¬ attributes ∧ ¬ budget)
    ∧ (recordFailure p = none → (recordIn p).slots = 0 ∧ (recordIn p).profile.val = byteAt p 6
      ∧ (recordIn p).status.code = byteAt p 5 ∧ (recordIn p).badge = field p 0 5
      ∧ (recordIn p).home.map Fin.val = (if (p.getD 7 0).getLsbD 0 = true then some (byteAt p 8) else none)
      ∧ (recordIn p).expiry = (if (p.getD 7 0).getLsbD 1 = true then some (field p 10 2) else none)
      ∧ (recordIn p).budget = (if (p.getD 7 0).getLsbD 2 = true then some (byteAt p 12) else none)
      ∧ (recordIn p).accessible = (p.getD 9 0).getLsbD 0 ∧ (recordIn p).priority = (p.getD 9 0).getLsbD 1))
  ∧ ∀ (s : State) (r : Req) (c : Instr) (f : SiteFrame) (e : Edit) (bad : Option Nat),
    (c = .stagePut r ∧ f = { type := 0x09, req := r } ∧ r.payload.length = 13
        ∧ e = { badge := field r.payload 0 5, kind := .put (recordIn r.payload) }
        ∧ bad = recordFailure r.payload)
      ∨ (c = .stageDrop r ∧ f = { type := 0x0A, req := r } ∧ r.payload.length = 5
        ∧ e = { badge := beNat r.payload, kind := .drop }
        ∧ bad = if beNat r.payload = 0 then some 1 else none) →
    PortOpen s f →
    let held : Prop := ∃ x ∈ s.batch.edits, x.badge = e.badge
    let hasPlace : Prop := s.batch.edits.length < 64 ∨ held
    let service (x : Edit) : Prop := ∃ q, x.kind = .put q ∧ 240 ≤ q.profile.val
    (s.batch.state ≠ .open_ → Refuses s c f .notOpen [])
    ∧ (∀ n, s.batch.state = .open_ → bad = some n → Refuses s c f .range (u8 n))
    ∧ (s.batch.state = .open_ → bad = none →
      (¬ hasPlace → Refuses s c f .full [])
      ∧ (s.keyOn = true → s.batch.edits.length < 64 → ¬ held →
          AnswersWith s c f .ok (u8 (s.batch.edits.length + 1) ++ [0]) { s with batch :=
            { s.batch with
              edits := s.batch.edits ++ [e]
              deadline := some (s.cal.uptime + s.timing.batchIdle) } })
      ∧ (s.keyOn = true → held →
          AnswersWith s c f .ok (u8 s.batch.edits.length ++ [1]) { s with batch :=
            { s.batch with
              edits := s.batch.edits.map fun x => if x.badge = e.badge then e else x
              deadline := some (s.cal.uptime + s.timing.batchIdle) } })
      ∧ (s.keyOn = false → hasPlace → service e → Refuses s c f .guarded [])
      ∧ (∀ x, s.keyOn = false → s.batch.find e.badge = some x → service x → Refuses s c f .guarded [])
      ∧ (s.keyOn = false → ¬ service e → hasPlace →
          (∀ x, s.batch.find e.badge = some x → ¬ service x) →
          (s.dir.condition = .unusable → Refuses s c f .storeFault [])
          ∧ (s.dir.condition = .usable → ∃ t, exec c s = .next t
              ∧ t = { s.placePrio (.portRead e.badge) with
                  site := { portTaken s.site with inHand := some { frame := f, wait := .stage e } } }
              ∧ SameTower s t ∧ SameStore s t ∧ t.batch = s.batch ∧ t.notices = s.notices
              ∧ t.store.prio = s.store.prio ++ [.portRead e.badge])))

/-- BATCH COMMIT and COMPACT: the refusals, the empty batch, the first planning read, and the accepted
COMPACT with its first read. That one read is placed at the start, the next when it has been served, is
log 18's choice; the statement is of an index that names a page. -/
def Obligations.CommitsAndCompactsBegin : Prop :=
  ∀ (s : State) (r : Req),
    let fb : SiteFrame := { type := 0x0B, req := r }
    let fk : SiteFrame := { type := 0x0F, req := r }
    let pages := s.dir.index.filter fun e => s.batch.edits.any fun x => e.low ≤ x.badge && x.badge ≤ e.high
    let needed := max 1 ((s.dir.recordCount + 63) / 64)
    (PortOpen s fb → r.payload = [] →
      (s.batch.state = .closed → Refuses s (.batchCommit r) fb .notOpen [])
      ∧ (s.batch.state = .committing → Refuses s (.batchCommit r) fb .busy [])
      ∧ (s.batch.state = .open_ → s.batch.edits = [] →
          AnswersWith s (.batchCommit r) fb .ok [] { s with batch := Batch.startUp })
      ∧ (s.batch.state = .open_ → s.batch.edits ≠ [] → 4294967295 < s.store.counter →
          AnswersWith s (.batchCommit r) fb .full [] { s with batch :=
            { s.batch with deadline := some (s.cal.uptime + s.timing.batchIdle) } })
      ∧ (s.batch.state = .open_ → s.batch.edits ≠ [] → s.store.counter ≤ 4294967295 → pages ≠ [] →
          ∃ t, exec (.batchCommit r) s = .next t ∧ SameTower s t ∧ SameStore s t ∧ t.batch = s.batch
            ∧ t.notices = s.notices ∧ t.store.prio = s.store.prio ++ [.planRead]
            ∧ t.site = { portTaken s.site with inHand := some { frame := fb, wait := .planning pages [] } }))
    ∧ (PortOpen s fk → r.payload = [] →
      (s.batch.state ≠ .closed ∨ s.store.work ≠ none → Refuses s (.compact r) fk .busy [])
      ∧ (s.batch.state = .closed → s.store.work = none → 4294967295 < s.store.counter →
          Refuses s (.compact r) fk .full [])
      ∧ (s.batch.state = .closed → s.store.work = none → s.store.counter ≤ 4294967295 →
          s.store.available < needed →
          Refuses s (.compact r) fk .noPages (u16 needed ++ u16 s.store.available))
      ∧ (s.batch.state = .closed → s.store.work = none → s.store.counter ≤ 4294967295 →
          needed ≤ s.store.available → s.dir.index ≠ [] →
          ∃ t w, exec (.compact r) s = .next t ∧ SameTower s t ∧ t.dir = s.dir ∧ t.batch = s.batch
            ∧ t.site = portReplied (portTaken s.site) (replyFrame fk .accepted (u32 s.store.counter) false)
            ∧ t.store.counter = s.store.counter + 1 ∧ t.store.pages = s.store.pages
            ∧ t.store.prio = s.store.prio ++ [.compactRead] ∧ t.store.work = some w ∧ w.kind = .compact
            ∧ w.number = s.store.counter ∧ w.phase = .reading ∧ w.todo = s.dir.index ∧ w.gathered = []))

/-- RECORD READ and DIRECTORY SCAN place their first read at the store, where it may suspend a running
erase (placePrio, said of ArbiterTakesTheNextOperation), and wait for it with nothing else changed; an
UNUSABLE directory, badge number 0 and a CONTINUE without a cursor are refused. -/
def Obligations.DirectoryReadsWaitForTheStore : Prop :=
  ∀ (s : State) (r : Req),
    let fr : SiteFrame := { type := 0x0D, req := r }
    let fd : SiteFrame := { type := 0x0E, req := r }
    let b := beNat r.payload
    let waits (c : Instr) (f : SiteFrame) (e : PrioEntry) (w : PortWait) : Prop :=
      ∃ t, exec c s = .next t
        ∧ t = { s.placePrio e with
            site := { portTaken s.site with inHand := some { frame := f, wait := w } } }
        ∧ SameTower s t ∧ SameStore s t ∧ t.store.prio = s.store.prio ++ [e]
    (PortOpen s fr → r.payload.length = 5 →
      (b = 0 → Refuses s (.recordRead r) fr .range [])
      ∧ (b ≠ 0 → s.dir.condition = .unusable → Refuses s (.recordRead r) fr .storeFault [])
      ∧ (b ≠ 0 → s.dir.condition = .usable → waits (.recordRead r) fr (.portRead b) (.recordRead b)))
    ∧ (PortOpen s fd → r.payload.length = 5 →
      (s.dir.condition = .unusable → Refuses s (.directoryScan r) fd .storeFault [])
      ∧ (s.dir.condition = .usable → b = 0 → s.dir.cursor = none →
          Refuses s (.directoryScan r) fd .notFound [])
      ∧ (∀ k, s.dir.condition = .usable → b = 0 → s.dir.cursor = some k →
          waits (.directoryScan r) fd .scanRead (.scan (k + 1) (k + 1) []))
      ∧ (s.dir.condition = .usable → b ≠ 0 → waits (.directoryScan r) fd .scanRead (.scan b b [])))

/-! ### Reader Lines -/

/-- A lobby channel's badges and keys: the entry they begin, extend, replace or end, and the tones and
the blank form that answer them. An ENTER ends the entry, with or without characters: an unknown label
shows INVALID_LANDING, a full queue BUSY, an engine at work leaves the request in the queue, and an idle
one takes it at once, a badge to be looked up, any other request decided in the same event. That the TONE
KEY of an ENTER goes ahead of what the end of the entry shows is log 52's. -/
def Obligations.LobbyInputBuildsTheEntry : Prop :=
  ∀ (s : State) (c : Chan) (l : Landing) (b : BitVec 40) (k : Byte), Runs s →
    (s.reader c).cfg.place = .lobby l →
    let x := s.reader c
    let char : Prop := isLabelChar k = true
    let unknown : Prop := isLabelChar k = false ∧ k ≠ 0x0D ∧ k ≠ 0x18
    let does (cmd : Instr) (f : Channel → Channel) : Prop := exec cmd s = .next (heard s c f)
    let tones (ts : List ReaderRecord) (ch : Channel) : Channel := { ch with tx := x.tx ++ ts }
    let refuses (cmd : Instr) : Prop := does cmd (tones [.tone .refuse])
    let badged : Entry :=
      { badge := some b.toNat, chars := [], timer := .badgeWait
        deadline := s.time.seconds * 1000 + s.time.ms + s.timing.badgeWait * 100 }
    let keyed (who : Option Badge) (chars : List Byte) : Entry :=
      { badge := who, chars := chars, timer := .interKey
        deadline := s.time.seconds * 1000 + s.time.ms + s.timing.interKey * 100 }
    let enters (e : Entry) (ts : List ReaderRecord) (ch : Channel) : Channel :=
      { ch with state := .entry, entry := some e, tx := x.tx ++ ts }
    let shows (code : AnswerCode) (tone : Tone) (ch : Channel) : Channel :=
      { ch with
        state := .showing, entry := none, displayDeadline := some (s.cal.uptime + x.cfg.hold)
        tx := x.tx ++ [.tone .key, .show_ code none none none, .tone tone] }
    let waits (ch : Channel) : Channel :=
      { ch with state := .pending, mark := .owned, entry := none, tx := x.tx ++ [.tone .key] }
    (x.state = .idle →
      (b ≠ 0 → does (.badge c b) (enters badged [.tone .key]))
      ∧ (char → does (.key c k) (enters (keyed none [k]) [.tone .key]))
      ∧ (b = 0 → refuses (.badge c b)) ∧ (¬ char → refuses (.key c k)))
    ∧ (∀ e, x.state = .entry → x.entry = some e →
      (b ≠ 0 → e.badge = none →
        does (.badge c b) (enters { e with badge := some b.toNat } [.tone .key]))
      ∧ (b ≠ 0 → e.badge ≠ none → does (.badge c b) (enters badged [.tone .key]))
      ∧ (char → e.chars.length < 3 →
        does (.key c k) (enters (keyed e.badge (e.chars ++ [k])) [.tone .key]))
      ∧ (char → 3 ≤ e.chars.length → refuses (.key c k))
      ∧ (k = 0x18 → does (.key c k) (fun ch =>
          { ch with state := .idle, entry := none, tx := x.tx ++ [.tone .key] }))
      ∧ (k = 0x0D →
        let dest := if e.chars = [] then none else s.zone.resolve e.chars
        let asks : Prop := e.chars = [] ∨ dest ≠ none
        let request : Request :=
          { channel := c, badge := e.badge, ask := .lobby dest l, arrival := s.cal.uptime }
        (¬ asks → does (.key c k) (shows .invalidLanding .refuse))
        ∧ (asks → 64 ≤ s.queue.length → does (.key c k) (shows .busy .busy))
        ∧ (asks → s.queue.length < 64 → s.engine ≠ .idle →
            exec (.key c k) s = .next { heard s c waits with queue := s.queue ++ [request] })
        ∧ (∀ who, asks → s.queue = [] → s.engine = .idle → e.badge = some who →
            s.dir.condition = .usable →
            exec (.key c k) s = .next
              ({ heard s c waits with engine := .evaluating request none }.placePrio (.engineRead who)))
        ∧ (asks → s.queue = [] → s.engine = .idle → e.badge = none ∨ s.dir.condition = .unusable →
            ∃ t, exec (.key c k) s = .next t ∧ t.queue = [] ∧ t.engine = .idle ∧ t.store = s.store
              ∧ (t.reader c).entry = none ∧ x.tx ++ [.tone .key] <+: (t.reader c).tx
              ∧ ∃ y, Reported t (.decision y) ∧ y.channel = c ∧ y.badge = e.badge ∧ y.wait = 0))
      ∧ (b = 0 → refuses (.badge c b)) ∧ (unknown → refuses (.key c k)))
    ∧ (x.state = .showing →
      (b ≠ 0 → does (.badge c b) (fun ch =>
        { enters badged [.blank, .tone .key] ch with displayDeadline := none }))
      ∧ (char → does (.key c k) (fun ch =>
        { enters (keyed none [k]) [.blank, .tone .key] ch with displayDeadline := none }))
      ∧ (k = 0x0D ∨ k = 0x18 → does (.key c k) (fun ch =>
        { ch with state := .idle, displayDeadline := none, tx := x.tx ++ [.blank, .tone .key] }))
      ∧ (b = 0 → refuses (.badge c b)) ∧ (unknown → refuses (.key c k)))

/-- A badge at a car reader makes its request at once, on a channel that this brings back from OFFLINE too; with
the directory UNUSABLE an idle engine denies it STORE_FAULT in the same event. A key there, and badge number 0,
are refused. -/
def Obligations.CarBadgeAsksAtOnce : Prop :=
  ∀ (s : State) (c : Chan) (g : Group) (car : Car) (b : BitVec 40) (k : Byte), Runs s →
    (s.reader c).cfg.place = .car g car →
    let x := s.reader c
    let ended : List ReaderRecord := if x.state = .showing then [.blank] else []
    let request : Request :=
      { channel := c, badge := some b.toNat, arrival := s.cal.uptime
        ask := .car g car (s.group g).cars[car].landing }
    let badgeLeads (u : State → Prop) : Prop :=
      ∃ t, exec (.badge c b) s = .next t ∧ u t ∧ (x.state = .offline → Reported t (.readerOnline c))
    let refuses (cmd : Instr) : Prop :=
      let refused (ch : Channel) : Channel := { ch with tx := x.tx ++ [.tone .refuse] }
      (x.state ≠ .offline → exec cmd s = .next (heard s c refused))
      ∧ (x.state = .offline → ∃ t, exec cmd s = .next t ∧ Reported t (.readerOnline c)
          ∧ t = { heard s c (fun ch => { refused ch with state := .idle }) with notices := t.notices })
    x.state = .idle ∨ x.state = .showing ∨ (x.state = .offline ∧ x.mark ≠ .discard) →
    (b ≠ 0 → s.queue.length < 64 → s.engine ≠ .idle → badgeLeads fun t =>
      t.queue = s.queue ++ [request]
        ∧ (t.reader c).state = .pending ∧ (t.reader c).mark = .owned
        ∧ (t.reader c).tx = x.tx ++ ended ++ [.tone .key] ∧ t.store = s.store ∧ t.engine = s.engine)
    ∧ (b ≠ 0 → s.queue = [] → s.engine = .idle → s.dir.condition = .usable → badgeLeads fun t =>
      t.queue = [] ∧ t.engine = .evaluating request none
        ∧ t.store.prio = s.store.prio ++ [.engineRead b.toNat]
        ∧ (t.reader c).state = .pending ∧ (t.reader c).mark = .owned)
    ∧ (b ≠ 0 → s.queue = [] → s.engine = .idle → s.dir.condition = .unusable → badgeLeads fun t =>
      t.queue = [] ∧ t.engine = .idle ∧ t.store = s.store ∧ t.groups = s.groups
        ∧ (t.reader c).state = .showing ∧ (t.reader c).mark = .none
        ∧ (t.reader c).displayDeadline = some (s.cal.uptime + x.cfg.hold)
        ∧ (t.reader c).tx = x.tx ++ ended
            ++ [.tone .key, .show_ (.denied .storeFault) none none none, .tone .refuse]
        ∧ ∃ d, Reported t (.decision d) ∧ d.channel = c ∧ d.car = true ∧ d.badge = some b.toNat
          ∧ d.standing = .storeFault ∧ d.outcome = some (.denied .storeFault) ∧ d.wait = 0)
    ∧ (b ≠ 0 → 64 ≤ s.queue.length → badgeLeads fun t =>
      t.queue = s.queue ∧ (t.reader c).state = .showing
        ∧ (t.reader c).displayDeadline = some (s.cal.uptime + x.cfg.hold)
        ∧ (t.reader c).tx = x.tx ++ ended ++ [.tone .key, .show_ .busy none none none, .tone .busy])
    ∧ (b = 0 → refuses (.badge c b)) ∧ refuses (.key c k)

/-- Frames in the other states: BUSY while PENDING, STARTING during start-up, nothing while UNUSED, the
return of an OFFLINE channel, whose frame is then handled as in IDLE (that of a car channel in the statement
above) or, with the mark DISCARD, in PENDING; ALIVE and an unknown frame set liveness alone. -/
def Obligations.ReaderFramesSetLiveness : Prop :=
  ∀ (s : State) (c : Chan) (b : BitVec 40) (k type : Byte) (payload : List Byte), Runs s →
    let x := s.reader c
    let heardAs (cmd : Instr) (f : Channel → Channel) : Prop := exec cmd s = .next (heard s c f)
    let comesBack (cmd : Instr) (ts : List ReaderRecord) : Prop :=
      ∃ t, exec cmd s = .next t
        ∧ t.reader c = { x with
            silenceDeadline := some (s.cal.uptime + 3), rx := .hunting, tx := x.tx ++ ts
            state := if x.mark = .discard then .pending else .idle }
        ∧ Reported t (.readerOnline c) ∧ ∀ d, d ≠ c → t.reader d = s.reader d
    (∀ cmd ∈ [Instr.badge c b, .key c k],
      (x.state = .pending → heardAs cmd fun ch => { ch with tx := x.tx ++ [.tone .busy] })
      ∧ (x.state = .starting → heardAs cmd fun ch =>
          { ch with
            displayDeadline := some (s.cal.uptime + x.cfg.hold)
            tx := x.tx ++ [.show_ .starting none none none, .tone .refuse] })
      ∧ (x.state = .unused → heardAs cmd id)
      ∧ (x.state = .offline → x.mark = .discard → comesBack cmd [.tone .busy]))
    ∧ (∀ l, x.state = .offline → x.mark ≠ .discard → x.cfg.place = .lobby l →
      let enters (cmd : Instr) (e : Entry) : Prop :=
        ∃ t, exec cmd s = .next t
          ∧ t.reader c = { x with
              silenceDeadline := some (s.cal.uptime + 3), rx := .hunting, tx := x.tx ++ [.tone .key]
              state := .entry, entry := some e }
          ∧ Reported t (.readerOnline c) ∧ ∀ d, d ≠ c → t.reader d = s.reader d
      let now := s.time.seconds * 1000 + s.time.ms
      (b ≠ 0 → enters (.badge c b) { badge := some b.toNat, chars := [], timer := .badgeWait
                                     deadline := now + s.timing.badgeWait * 100 })
      ∧ (b = 0 → comesBack (.badge c b) [.tone .refuse])
      ∧ (isLabelChar k = true → enters (.key c k) { badge := none, chars := [k], timer := .interKey
                                                    deadline := now + s.timing.interKey * 100 })
      ∧ (isLabelChar k = false → comesBack (.key c k) [.tone .refuse]))
    ∧ (∀ cmd, cmd = .alive c ∨ (cmd = .unknownReaderFrame c type payload ∧ readerLength type ≠ some payload.length) →
      (x.state ≠ .offline → heardAs cmd id) ∧ (x.state = .offline → comesBack cmd []))

/-! ### The Admission Engine -/

/-- The standing of a request and the set it permits, on the normal path: a clause of the profile grants
its landings by the clause test at the calendar while it is SET, and as a full-week clause alone while it is
UNSET. A budget leaves trips where the marks the lookup reports, the SENT orders of all the lists whose
reservation names the badge, and one more do not exceed it; a lookup without a budget leaves them. -/
def Obligations.StandingFixesThePermittedSet : Prop :=
  ∀ (s : State) (r : Record) (m q n : Nat) (d : Landing),
    let res := some (LookupResult.found r m q n)
    let admits (c : Clause) : Prop :=
      (s.cal.state = .set → c.opens s.banks.holidays s.cal.day s.cal.weekMinute = true)
      ∧ (s.cal.state = .unset → c.days = 0xFF#8 ∧ c.start = c.stop)
    let reserves (b : Badge) (o : Order) : Bool := o.state == .sent && o.reservation == some b
    (r.status = .suspended → s.standing res = .suspended)
    ∧ (r.status = .lost → s.standing res = .lost)
    ∧ (r.status = .active → r.expiry = none → s.standing res = .good)
    ∧ (∀ day, r.status = .active → r.expiry = some day →
        (s.cal.state = .unset → s.standing res = .clockUnset)
        ∧ (s.cal.state = .set → s.cal.day ≤ day → s.standing res = .good)
        ∧ (s.cal.state = .set → day < s.cal.day → s.standing res = .expired))
    ∧ s.standing (some (.absent n)) = .unknown ∧ s.standing (some .storeFault) = .storeFault
    ∧ s.standing none = .none
    ∧ (∀ st x, st ≠ .good →
        ((s.permitted st x).getLsbD d.val = true ↔
          (s.zone.landing d).present = true ∧ (s.zone.landing d).secure = false))
    ∧ ((s.permitted .good res).getLsbD d.val = true ↔
        ((s.zone.landing d).present = true ∧ (s.zone.landing d).secure = false)
          ∨ ∃ c ∈ s.banks.active[r.profile].clauses, admits c ∧ c.landings.getLsbD d.val = true)
    ∧ ∀ b,
      (∀ k, r.budget = some k → (s.tripsLeft b res = true ↔
        m + ((finList 6).map fun g => (s.group g).orders.countP (reserves b)).sum + 1 ≤ k))
      ∧ (r.budget = none → s.tripsLeft b res = true)
      ∧ s.tripsLeft b (some (.absent n)) = true ∧ s.tripsLeft b (some .storeFault) = true
      ∧ s.tripsLeft b none = true

/-- The decision of the stages, in their order, for a LOBBY request on the normal path and for a CAR
request: the answer of the first stage that refuses, or the order with its flags and its reservation. A
request may use service cars with the standing GOOD and a profile whose service-car right stands in the
active bank. -/
def Obligations.StagesRefuseInOrder : Prop :=
  ∀ (s : State) (r : Request) (res : Option LookupResult),
    let st := s.standing res
    let ruling := (s.judge r res).ruling
    let record : Option Record := match res with
      | some (.found x _ _ _) => some x
      | _ => none
    let cars : Bool := match record with
      | some x => st == .good && s.banks.active[x.profile].serviceCar
      | none => false
    let flag (f : Record → Bool) : Bool := match record with
      | some x => f x
      | none => false
    let reserved (counts : Prop) (held : Option Badge) : Prop :=
      (counts → (∃ x n, record = some x ∧ x.budget = some n) → held = r.badge)
      ∧ (¬ counts ∨ (∀ x, record = some x → x.budget = none) → held = none)
    let reasons : List (Standing × Reason) :=
      [(.unknown, .unknown), (.suspended, .suspended), (.lost, .lost), (.expired, .expired),
       (.clockUnset, .clockUnset), (.storeFault, .storeFault)]
    (∀ asked origin, r.ask = .lobby asked origin →
      (∀ e, r.badge.bind s.transfer.find = some e → e.meets asked origin = false) →
      let denied (why : Reason) (d : Option Landing) : Prop := ruling = .answer (.denied why) d
      let dest := asked <|> record.bind Record.home
      (s.judge r res).path = .normal ∧ (s.judge r res).standing = st ∧ (s.judge r res).dest = dest
      ∧ (s.judge r res).dropEntry = false
      ∧ (dest = none → denied .noDestination none)
      ∧ (∀ d, dest = some d → (s.permitted st res).getLsbD d.val = false →
          (st = .none → denied .badgeRequired (some d)) ∧ (st = .good → denied .notPermitted (some d))
          ∧ ∀ p ∈ reasons, st = p.1 → denied p.2 (some d))
      ∧ (∀ d, dest = some d → (s.permitted st res).getLsbD d.val = true →
          let secure : Prop := (s.zone.landing d).present = true ∧ (s.zone.landing d).secure = true
          let trips := s.tripsLeft (r.badge.getD 0) res
          (s.route cars origin d = .sameLanding → denied .sameLanding (some d))
          ∧ (s.route cars origin d = .noRoute → denied .noRoute (some d))
          ∧ (s.route cars origin d = .outOfService → ruling = .answer .outOfService (some d))
          ∧ (∀ l ls, s.route cars origin d = .route (l :: ls) →
            (secure → trips = false → denied .noTrips (some d))
            ∧ (¬ secure ∨ trips = true →
              (32 ≤ (s.group l.group).orders.length → ruling = .answer .linkBusy (some d))
              ∧ ((s.group l.group).orders.length < 32 →
                ∃ held, reserved secure held ∧ ruling = .order l.group
                  (.call (l :: ls) d (flag Record.accessible) (flag Record.priority) none .normal) held)))))
    ∧ (∀ g car origin, r.ask = .car g car origin →
      let add := s.addition g origin st res
      let denied (why : Reason) : Prop := ruling = .answer (.denied why) none
      let counted : Prop := (s.zoneGroup g).present = true ∧ ((s.zoneGroup g).serviceCar = true → cars = true)
      (s.judge r res).path = .normal ∧ (s.judge r res).standing = st ∧ (s.judge r res).dest = none
      ∧ (∀ l : Landing, add.getLsbD l.val = true ↔
          counted ∧ (s.permitted st res).getLsbD l.val = true
            ∧ ¬ ((s.zone.landing l).present = true ∧ (s.zone.landing l).secure = false)
            ∧ (s.zoneGroup g).served.getLsbD l.val = true ∧ origin ≠ some l)
      ∧ (add = 0 → (st = .good → denied .notPermitted) ∧ ∀ p ∈ reasons, st = p.1 → denied p.2)
      ∧ (add ≠ 0 → (s.group g).avail ≠ .inService → ruling = .answer .outOfService none)
      ∧ (add ≠ 0 → (s.group g).avail = .inService →
        (s.tripsLeft (r.badge.getD 0) res = false → denied .noTrips)
        ∧ (s.tripsLeft (r.badge.getD 0) res = true →
          (32 ≤ (s.group g).orders.length → ruling = .answer .linkBusy none)
          ∧ ((s.group g).orders.length < 32 → ∃ held, reserved True held
              ∧ ruling = .order g (.enable car add s.timing.carHold) held))))

/-- The transfer path. A decision that meets the badge's entry expired removes it and judges on the normal
path; one that does not match the entry judges on the normal path and keeps it; one that matches judges
the card's status alone: SUSPENDED, LOST and UNKNOWN deny it and remove the entry, and GOOD and
STORE_FAULT route the rest of the journey to a CALL with no reservation and the badge as its link. The
last clause says what the decision event then leaves of the Transfer Table. The model's own: every refusal
on this path carries the final destination, those by status among them (log 41, DEDUCED); an origin which
is the final landing is denied SAME_LANDING, a state no run reaches (log 37); the result that the last
clause takes is one that waits (log 26); and the requests that the engine then decides at once are decided
in the same event (log 55), so the table is said whole where there are none. -/
def Obligations.TransferPathJudgesTheStatus : Prop :=
  ∀ (s : State) (r : Request) (res : LookupResult) (b : Badge) (asked : Option Landing) (origin : Landing)
      (e : TransferEntry),
    r.badge = some b → r.ask = .lobby asked origin → s.transfer.find b = some e →
    let without : TransferTable :=
      { s.transfer with entries := s.transfer.entries.filter fun x => x.badge != b }
    let before := s.meetExpired r
    let j := before.judge r (some res)
    let expired : Prop := e.expiry ≤ s.cal.uptime
    let meets : Prop := e.landing = origin ∧ (asked = none ∨ asked = some e.final)
    let record : Option Record := match res with
      | .found x _ _ _ => some x
      | _ => none
    let flag (f : Record → Bool) : Bool := match record with
      | some x => f x
      | none => false
    let cars := flag fun x => x.status == .active && s.banks.active[x.profile].serviceCar
    (expired → before = { s with transfer := without } ∧ j.path = .normal ∧ j.dropEntry = false)
    ∧ (¬ expired → before = s)
    ∧ (¬ expired → ¬ meets → j.path = .normal ∧ j.dropEntry = false)
    ∧ (¬ expired → meets →
      let denied (why : Reason) : Prop := j.ruling = .answer (.denied why) (some e.final)
      j.path = .transfer ∧ j.dest = some e.final
      ∧ (∀ x, record = some x → (x.status = .active → j.standing = .good)
          ∧ (x.status = .suspended → j.standing = .suspended) ∧ (x.status = .lost → j.standing = .lost))
      ∧ (∀ n, res = .absent n → j.standing = .unknown) ∧ (res = .storeFault → j.standing = .storeFault)
      ∧ (j.standing = .suspended → denied .suspended ∧ j.dropEntry = true)
      ∧ (j.standing = .lost → denied .lost ∧ j.dropEntry = true)
      ∧ (j.standing = .unknown → denied .unknown ∧ j.dropEntry = true)
      ∧ (j.standing = .good ∨ j.standing = .storeFault → j.dropEntry = false
        ∧ (s.route cars origin e.final = .sameLanding → denied .sameLanding)
        ∧ (s.route cars origin e.final = .noRoute → denied .noRoute)
        ∧ (s.route cars origin e.final = .outOfService → j.ruling = .answer .outOfService (some e.final))
        ∧ ∀ l ls, s.route cars origin e.final = .route (l :: ls) →
          (32 ≤ (s.group l.group).orders.length → j.ruling = .answer .linkBusy (some e.final))
          ∧ ((s.group l.group).orders.length < 32 → j.ruling = .order l.group
              (.call (l :: ls) e.final (flag Record.accessible) (flag Record.priority) (some b) .transfer)
              none)))
    ∧ (Runs s → s.engine = .evaluating r (some res) →
      ∃ t, exec (.lookup true) s = .next t ∧ EngineGoesOn s t s.store.prio
        ∧ (∃ x, Reported t (.decision x) ∧ x.channel = r.channel ∧ x.path = j.path
            ∧ x.standing = j.standing)
        ∧ (expired ∨ j.dropEntry = true → ∀ x ∈ t.transfer.entries, x.badge ≠ b)
        ∧ (s.decidedAtOnce = [] →
          (expired ∨ j.dropEntry = true → t.transfer = without)
          ∧ (¬ expired → j.dropEntry = false → t.transfer = s.transfer))
        ∧ (¬ expired → meets → j.standing = .suspended ∨ j.standing = .lost →
            ∃ x, Reported t (.presentation x) ∧ x.badge = some b ∧ x.path = .transfer
              ∧ x.standing = j.standing ∧ x.dest = some e.final))

/-- LOOKUP serves the READ at the head for the engine or the port; a result handed to the engine, in the
event that serves the READ or from a wait, makes its decision, reports it, and answers or places the order
(log 26: a result may wait). The engine then goes on: it takes the oldest CAR request of the queue, or else
the oldest LOBBY request, whose READ it places; requests that need no lookup it decides in the same event
(log 55), so what the one decision leaves at the channels and the lists is said where there are none: an answer
is shown under the mark OWNED and dropped under DISCARD. For the port it answers RECORD READ, with the record as
FramesAndCodesOnTheWire spells it, or ends the protection check of a waiting STAGE request: NOT_OPEN when the
batch is no longer OPEN, STORE_FAULT, PROTECTED for a record of a service profile, and otherwise the edit
staged. -/
def Obligations.LookupsReachTheirBlock : Prop :=
  ∀ (s : State) (rest : List PrioEntry) (b : Badge),
    let served := { s with store := { s.store with prio := rest } }
    let alone : Prop := s.decidedAtOnce = []
    let failsRaised (t : State) : Prop := ∀ e, s.dir.condition = .usable → s.dir.entryFor b = some e →
      s.store.readPage e = none → Raises s t .storeFault e.page.val
    let decides (now : State) (r : Request) (res : LookupResult) (t : State) : Prop :=
      let j := (now.meetExpired r).judge r (some res)
      let told (outcome : Option AnswerCode) (route : List Leg) (order : Option OrderRef) (held : Bool) :
          Decision :=
        { channel := r.channel, car := r.isCar, badge := r.badge, path := j.path, standing := j.standing
          outcome := outcome, dest := j.dest, route := route, order := order, reservation := held
          bank := s.banks.number, wait := s.cal.uptime - r.arrival }
      (j.standing = .suspended ∨ j.standing = .lost → Reported t (.presentation
          { channel := r.channel, car := r.isCar, badge := r.badge, standing := j.standing
            origin := match r.ask with
              | .car _ _ origin => origin
              | .lobby _ origin => some origin
            dest := j.dest, path := j.path, uptime := s.cal.uptime, date := s.date }))
        ∧ (∀ code d, j.ruling = .answer code d →
            Reported t (.decision (told (some code) [] none false))
            ∧ (alone → t.groups = s.groups)
            ∧ (alone → (s.reader r.channel).mark = .owned → t.reader r.channel = { s.reader r.channel with
                mark := .none, state := .showing
                displayDeadline := some (s.cal.uptime + (s.reader r.channel).cfg.hold)
                tx := (s.reader r.channel).tx ++ [.show_ code none d none, .tone code.tone] })
            ∧ (alone → (s.reader r.channel).mark = .discard →
                t.reader r.channel = answerDropped (s.reader r.channel)))
        ∧ ∀ g k held, j.ruling = .order g k held → ∃ tag kind msg route, GivenTag (s.group g) tag
            ∧ (∀ legs final a p link path, k = .call legs final a p link path →
                kind = k ∧ msg = .call tag legs final a p ∧ route = legs)
            ∧ (∀ car add hold, k = .enable car add hold → route = [] ∧ ∃ set : LandingSet,
                kind = .enable car set hold ∧ msg = .enable tag car hold set
                ∧ ∀ l : Landing, set.getLsbD l.val = true ↔
                  (s.group g).enables[car].confirmed.getLsbD l.val = true ∨ add.getLsbD l.val = true
                  ∨ ∃ o ∈ (s.group g).orders, o.state = .sent ∧ ∃ x time, o.kind = .enable car x time
                      ∧ x.getLsbD l.val = true)
            ∧ Reported t (.decision
                (told none route (some { group := g, enable := k.isEnable, tag := tag }) held.isSome))
            ∧ (alone → t.readers = s.readers ∧ (t.group g).tagCounter = tag
                ∧ (t.group g).tx = (s.group g).tx ++ [msg]
                ∧ (t.group g).orders = (s.group g).orders ++
                    [{ tag := tag, kind := kind, channel := r.channel, badge := r.badge, reservation := held
                       state := .sent, sentAt := s.time.seconds * 1000 + s.time.ms }])
    (∀ e, s.dir.entryFor b = some e → e ∈ s.dir.index ∧ e.low ≤ b ∧ b ≤ e.high)
    ∧ (s.dir.entryFor b = none → ∀ e ∈ s.dir.index, ¬ (e.low ≤ b ∧ b ≤ e.high))
    ∧ (∀ e rs, s.store.readPage e = some rs ↔ ∃ x, (s.store.page e.page).contents = .programmed x
        ∧ x.complete = true ∧ x.low = e.low ∧ x.high = e.high ∧ x.count = e.count ∧ x.commit = e.commit
        ∧ x.records = rs ∧ rs.length = e.count ∧ rs.Pairwise (fun a b => a.badge < b.badge)
        ∧ ∀ r ∈ rs, e.low ≤ r.badge ∧ r.badge ≤ e.high)
    ∧ (s.dir.condition = .unusable → s.lookup b = (s, .storeFault))
    ∧ (∀ e, s.dir.condition = .usable → s.dir.entryFor b = some e →
      (s.store.readPage e = none → s.lookup b = (s.raiseFault .storeFault e.page.val, .storeFault))
      ∧ (∀ rs, s.store.readPage e = some rs →
        (recordOf b rs = none → s.lookup b = (s, .absent e.commit))
        ∧ (∀ x, recordOf b rs = some x → ∃ m, s.lookup b = (s, .found x m (s.store.prio.count (.mark b)) e.commit)
            ∧ (∀ n, x.budget = some n → m = min n (x.marks + s.store.prio.count (.mark b)))
            ∧ (x.budget = none → m = 0))))
    ∧ (∀ r, Serves s (.engineRead b) rest → s.engine = .evaluating r none →
        ∃ t, exec (.lookup false) s = .next t ∧ t.store.prio = rest ∧ failsRaised t
          ∧ t.engine = .evaluating r (some (served.lookup b).2)
          ∧ t.queue = s.queue ∧ t.groups = s.groups ∧ t.readers = s.readers)
    ∧ (∀ r, Serves s (.engineRead b) rest → s.engine = .evaluating r none →
        ∃ t, exec (.lookup true) s = .next t ∧ EngineGoesOn s t rest ∧ failsRaised t
          ∧ decides (served.lookup b).1 r (served.lookup b).2 t)
    ∧ (∀ r res, Runs s → s.engine = .evaluating r (some res) →
        ∃ t, exec (.lookup true) s = .next t ∧ EngineGoesOn s t s.store.prio ∧ decides s r res t)
    ∧ (∀ handOver f, Serves s (.portRead b) rest → (∀ r res, s.engine ≠ .evaluating r (some res)) →
        let res := (served.lookup b).2
        let answers (t : State) (x : Result) (detail : List Byte) : Prop :=
          t.site = portReplied s.site (replyFrame f x detail false)
        (s.site.inHand = some { frame := f, wait := .recordRead b } →
          ∃ t, exec (.lookup handOver) s = .next t ∧ t.store.prio = rest ∧ failsRaised t
            ∧ (∀ x m q n, res = .found x m q n → answers t .ok (x.bytes ++ u8 q ++ u32 n))
            ∧ (∀ n, res = .absent n → answers t .notFound (u32 n))
            ∧ (res = .storeFault → answers t .storeFault []))
        ∧ (∀ e, s.site.inHand = some { frame := f, wait := .stage e } →
          let held : Prop := ∃ x ∈ s.batch.edits, x.badge = e.badge
          let open_ : Prop := s.batch.state = .open_
          let passes : Prop := (∃ n, res = .absent n) ∨ ∃ x m q n, res = .found x m q n ∧ x.profile.val < 240
          let staged (t : State) (edits : List Edit) (replaced : Byte) : Prop :=
            answers t .ok (u8 edits.length ++ [replaced]) ∧ t.batch = { s.batch with
              edits := edits, deadline := some (s.cal.uptime + s.timing.batchIdle) }
          ∃ t, exec (.lookup handOver) s = .next t ∧ t.store.prio = rest ∧ failsRaised t
            ∧ (¬ open_ → answers t .notOpen [] ∧ t.batch = s.batch)
            ∧ (open_ → res = .storeFault → answers t .storeFault [] ∧ t.batch = s.batch)
            ∧ (∀ x m q n, open_ → res = .found x m q n → 240 ≤ x.profile.val →
                answers t .guarded [] ∧ t.batch = s.batch)
            ∧ (open_ → passes → ¬ held → staged t (s.batch.edits ++ [e]) 0)
            ∧ (open_ → passes → held →
                staged t (s.batch.edits.map fun x => if x.badge = e.badge then e else x) 1)))

/-! ### The Directory Store -/

/-- The arbiter. A READ or trip mark request joins the priority queue and suspends a running erase that
has been suspended fewer than 16 times, the erases that reach the 16th counted; one that finds an erase
suspended is served in that suspension (log 49). An OPEN card's array takes its next operation in order: a
suspended erase goes on when no request waits, then comes the work queue's head, and the erase queue's
head where no work waits or the PROGRAM at the head finds no page FREE. A PROGRAM's copy holds the records
its edits bring and, of the others, each as its old page then holds it, slots and all. The model's own: no operation
begins before admission opens (log 17), and the first erase of a save waits for its own row (log 16). -/
def Obligations.ArbiterTakesTheNextOperation : Prop :=
  (∀ (s : State) (e : PrioEntry),
    let joined := { s.store with prio := s.store.prio ++ [e] }
    let isErase (k : OpKind) : Prop :=
      (∃ p, k = .eraseDir p) ∨ (∃ p, k = .eraseLog p) ∨ ∃ p, k = .saveErase p
    (∀ op, s.store.op = some op → isErase op.kind → op.suspended = false → op.suspensions < 16 →
      s.placePrio e = { s with store := { joined with
        op := some { kind := op.kind, suspensions := op.suspensions + 1, suspended := true }
        capped := if op.suspensions = 15 then min (s.store.capped + 1) 65535 else s.store.capped } })
    ∧ ((∀ op, s.store.op = some op → isErase op.kind → op.suspended = true ∨ 16 ≤ op.suspensions) →
      s.placePrio e = { s with store := joined }))
  ∧ ∀ s : State, s.site.phase = .open_ →
    let carried (b : Badge) : Option Record := (s.dir.entryFor b).bind fun e =>
      match (s.store.page e.page).contents with
      | .programmed old => old.records.find? fun r => r.badge == b
      | .erased => none
    let begins (k : OpKind) : Prop := s.arbitrate = { s with store :=
      { s.store with op := some { kind := k, suspensions := 0, suspended := false } } }
    let nextErase : Prop :=
      (s.store.eraseQ = [] → s.arbitrate = s)
      ∧ ∀ p rest, s.store.eraseQ = p :: rest →
        let u := s.arbitrate.store
        u.op = some { kind := .eraseDir p, suspensions := 0, suspended := false } ∧ u.eraseQ = rest
        ∧ (u.stateOf p).isErasing = true ∧ (∀ k, s.store.stateOf p = .stale k → u.stateOf p = .erasing k)
        ∧ (u.page p).retired = (s.store.page p).retired
        ∧ (∀ x, (s.store.page p).contents = .programmed x →
            (u.page p).contents = .programmed { x with complete := false })
        ∧ ∀ q, q ≠ p → u.page q = s.store.page q ∧ u.stateOf q = s.store.stateOf q
    (∀ op, s.store.op = some op → op.suspended = false ∨ s.store.prio ≠ [] → s.arbitrate = s)
    ∧ (∀ op, s.store.op = some op → op.suspended = true → s.store.prio = [] →
        s.arbitrate = { s with store := { s.store with op := some { op with suspended := false } } })
    ∧ (s.store.op = none → s.store.prio ≠ [] → s.arbitrate = s)
    ∧ (s.store.op = none → s.store.prio = [] →
      (∀ p rest, s.store.workQ = .logErase p :: rest → begins (.eraseLog p))
      ∧ (∀ rest, s.store.workQ = .logMark :: rest → begins .logMark)
      ∧ (∀ rest, s.store.workQ = .save 0 :: rest → s.arbitrate = s)
      ∧ (∀ k rest, s.store.workQ = .save (k + 1) :: rest →
          (k + 1 < 64 → begins (.saveErase (k + 1)))
          ∧ (64 ≤ k + 1 → k + 1 < 64 + imagePageCount → begins (.saveProgram (k + 1 - 64)))
          ∧ (64 + imagePageCount ≤ k + 1 → begins .saveMark))
      ∧ (∀ i rest p w c, s.store.workQ = .program i :: rest → s.store.stateOf p = .free →
          (∀ q, q < p → s.store.stateOf q ≠ .free) → s.store.work = some w → w.copies[i]? = some c →
          ∃ x, s.arbitrate.store.op = some { kind := .program i p, suspensions := 0, suspended := false }
            ∧ s.arbitrate.store.stateOf p = .writing
            ∧ (s.arbitrate.store.page p).contents = .programmed x ∧ x.complete = false ∧ x.low = c.low
            ∧ x.high = c.high ∧ x.commit = w.number
            ∧ x.records = (c.records.filterMap fun pr => pr.fresh <|> carried pr.badge)
            ∧ x.count = x.records.length)
      ∧ (∀ i rest, s.store.workQ = .program i :: rest → (∀ p, s.store.stateOf p ≠ .free) → nextErase)
      ∧ (s.store.workQ = [] → nextErase))

/-- SCAN_PAGE_READ, PLANNING_READ and COMPACT_READ: what the page read gives to the scan, the plan and the
layout, and what a page that fails its check does. An accepted plan waits for pages, programs its copies, or
with no copy to program goes straight to the log; a COMPACT that cannot have the pages of its layout ends with
COMMIT_FAIL. The detail of STORE_FAULT is the page, that of COMMIT_FAIL the low 16 bits of the commit number. A
record goes out as FramesAndCodesOnTheWire spells it. The model's own choices: that each read is placed when the
one before has been served (log 18), the plan without copies (log 21), that a completed scan may wait for its
answer (log 26), and the bare COMPACT_FAILED (log 22). -/
def Obligations.PageReadsAreServed : Prop :=
  ∀ (s : State) (rest : List PrioEntry) (f : SiteFrame),
    let replies (t : State) (x : Result) (detail : List Byte) : Prop :=
      t.site = portReplied s.site (replyFrame f x detail false)
    let scanEnds (t : State) (records : List Record) (atEnd : Bool) : Prop :=
      t.dir = { s.dir with cursor := if atEnd then none else (records.getLast?).map Record.badge }
      ∧ replies t .ok (u8 records.length ++ bool8 atEnd ++ records.flatMap Record.bytes)
    let waitsOrPrograms (t : State) (w : Work) : Prop :=
      (s.store.freePages < w.copies.length → w.phase = .commitWait ∧ t.store.workQ = s.store.workQ)
      ∧ (w.copies = [] → w.phase = .logging ∧ MarkQueued s.store s.store.workQ t.store.workQ)
      ∧ (w.copies ≠ [] → w.copies.length ≤ s.store.freePages → w.phase = .programming
          ∧ t.store.workQ = s.store.workQ ++ (List.range w.copies.length).map WorkEntry.program)
    (s.store.freePages = s.store.pageState.toList.countP (· == .free)
      ∧ s.store.available = s.store.pageState.toList.countP (fun x => x == .free || x.isStale || x.isErasing)
      ∧ s.store.obtainable = s.store.pageState.toList.countP
          (fun x => x == .free || (x.isStale && x != .stale .held) || x.isErasing))
    ∧ (∀ start next gathered e reply, Serves s .scanRead rest →
      s.site.inHand = some { frame := f, wait := .scan start next gathered } →
      s.dir.entryFor next = some e →
      ∃ u, ThenArray (.scanPageRead reply) s u
        ∧ (s.store.readPage e = none →
            replies u .storeFault [] ∧ Raises s u.arbitrate.settle .storeFault e.page.val)
        ∧ ∀ rs, s.store.readPage e = some rs →
          let all := gathered ++ rs.filter fun x => next ≤ x.badge
          let atEnd : Bool := all.length < 16 || (all.length == 16 && e.high == topBadge)
          (all.length < 16 → e.high ≠ topBadge → u.store.prio = rest ++ [.scanRead]
            ∧ u.site = { s.site with inHand := some { frame := f, wait := .scan start (e.high + 1) all } })
          ∧ (16 ≤ all.length ∨ e.high = topBadge →
            (reply = true → scanEnds u (all.take 16) atEnd)
            ∧ (reply = false → u.dir = s.dir
              ∧ u.site = { s.site with inHand := some { frame := f, wait := .scanned (all.take 16) atEnd } })))
    ∧ (∀ records atEnd, Runs s → s.site.inHand = some { frame := f, wait := .scanned records atEnd } →
      ∃ t, exec (.scanPageRead true) s = .next t ∧ scanEnds t records atEnd ∧ t.store = s.store)
    ∧ (∀ e todo done, Serves s .planRead rest →
      s.site.inHand = some { frame := f, wait := .planning (e :: todo) done } →
      ∃ u, ThenArray .planningRead s u
        ∧ (s.store.readPage e = none →
            replies u .storeFault [] ∧ Raises s u.arbitrate.settle .storeFault e.page.val
            ∧ u.batch = { s.batch with deadline := some (s.cal.uptime + s.timing.batchIdle) })
        ∧ (∀ rs, s.store.readPage e = some rs → todo ≠ [] → u.store.prio = rest ++ [.planRead]
            ∧ u.site = { s.site with inHand := some { frame := f, wait := .planning todo (done ++ [(e, rs)]) } })
        ∧ (∀ rs, s.store.readPage e = some rs → todo = [] →
          let p := planOf (s.dir.index.map fun i => s.store.rowOf s.batch.edits (done ++ [(e, rs)]) i)
          let count := s.dir.recordCount + p.added - p.removed
          let refused (x : Result) (detail : List Byte) : Prop :=
            replies u x detail
            ∧ u.batch = { s.batch with deadline := some (s.cal.uptime + s.timing.batchIdle) }
          (32768 < count → refused .full (u16 count))
          ∧ (count ≤ 32768 → s.store.available < p.copies.length →
            refused .noPages (u16 p.copies.length ++ u16 s.store.available))
          ∧ (count ≤ 32768 → p.copies.length ≤ s.store.obtainable →
            p.copies.length ≤ s.store.available →
            replies u .accepted (u32 s.store.counter ++ u8 p.copies.length ++ u8 p.released.length)
            ∧ u.store.counter = s.store.counter + 1
            ∧ u.batch = { s.batch with
                state := .committing, deadline := none, commit := some s.store.counter
                purge := purgeListOf s.batch.edits }
            ∧ ∃ w, u.store.work = some w ∧ w.kind = .commit ∧ w.number = s.store.counter
              ∧ w.copies = p.copies ∧ w.released = p.released ∧ w.added = p.added
              ∧ w.removed = p.removed ∧ w.replaced = p.replaced ∧ waitsOrPrograms u w)))
    ∧ (∀ w e todo, Serves s .compactRead rest → s.store.work = some w → w.kind = .compact →
      w.phase = .reading → w.todo = e :: todo →
      let gathered := match s.store.readPage e with
        | some rs => w.gathered ++ rs
        | none => w.gathered
      let failed : Prop := s.store.readPage e = none
      let ends (u : State) : Prop :=
        u.store.work = none ∧ Raises s u.arbitrate.settle .commitFail (w.number % 65536) ∧ u.dir = s.dir
        ∧ Reported u.arbitrate.settle .compactFailed
      ∃ u, ThenArray .compactRead s u
        ∧ (failed → Raises s u.arbitrate.settle .storeFault e.page.val)
        ∧ (failed → s.dir.condition = .usable → ends u)
        ∧ (¬ failed ∨ s.dir.condition = .unusable →
          (todo ≠ [] → u.store.prio = rest ++ [.compactRead]
            ∧ u.store.work = some { w with todo := todo, gathered := gathered })
          ∧ (todo = [] → s.store.obtainable < (compactLayout gathered).length → ends u)
          ∧ (todo = [] → (compactLayout gathered).length ≤ s.store.obtainable →
            ∃ x, u.store.work = some x ∧ x.copies = compactLayout gathered
              ∧ x.released = s.dir.index.map IndexEntry.page ∧ x.number = w.number
              ∧ waitsOrPrograms u x)))

/-- The plan of a commit and the layout of a COMPACT. A page's new records are those of its edits and those that
no edit names, in badge order. An addition is a put of a badge not on the page, a removal a drop of one on it,
and a replacement a put of one on it. The plan's copies take the ranges of the pages they replace and hold
exactly the records of those pages, at most 64 each. A page that its edits empty gives its range to the nearest
page below that is not emptied, or else to the nearest above; a page edited or widened so becomes one copy, or
two cut at the median where it has more than 64 records, and no other page is replaced. The layout cuts the
records into runs of 64 over the whole range. The purge list names the badges dropped and those put other than
ACTIVE. That a page with no planning read gives the plan its records unchecked, as the page holds them, is log
34's (DEDUCED). -/
def Obligations.PlansAndLayoutsTileTheRange : Prop :=
  (∀ (edits : List Edit) (e : IndexEntry) (rs : List Record), (edits.map Edit.badge).Nodup →
    orderedWithin e.low e.high rs = true →
    let row := planRow edits e rs
    let inPage (x : Edit) : Prop := x ∈ edits ∧ e.low ≤ x.badge ∧ x.badge ≤ e.high
    let onPage (b : Badge) : Prop := ∃ r ∈ rs, r.badge = b
    row.entry = e
    ∧ row.records.Pairwise (fun a b => a.badge < b.badge)
    ∧ (∀ pr ∈ row.records, e.low ≤ pr.badge ∧ pr.badge ≤ e.high)
    ∧ (∀ pr, pr ∈ row.records ↔
        (∃ x r, inPage x ∧ x.kind = .put r ∧ pr = { badge := x.badge, fresh := some { r with slots := 0 } })
        ∨ ∃ r ∈ rs, (∀ x, inPage x → x.badge ≠ r.badge) ∧ pr = { badge := r.badge, fresh := none })
    ∧ row.records.length + row.removed = rs.length + row.added
    ∧ (let count (p : Edit → Bool) : Nat := edits.countP fun x => e.low ≤ x.badge && x.badge ≤ e.high && p x
      let held (x : Edit) : Bool := rs.any fun r => r.badge == x.badge
      row.added = count (fun x => x.kind != .drop && !held x)
      ∧ row.removed = count (fun x => x.kind == .drop && held x)
      ∧ row.replaced = count fun x => x.kind != .drop && held x)
    ∧ (row.edited = true ↔ ∃ x, inPage x ∧ (x.kind = .drop → onPage x.badge))
    ∧ row.added + row.removed + row.replaced ≤ edits.length)
  ∧ (∀ (edits : List Edit) (st : Store) (done : List (IndexEntry × List Record)) (e : IndexEntry),
    (∀ x, (done.find? fun x => x.1 == e) = some x → st.rowOf edits done e = planRow edits e x.2)
    ∧ ∀ i, (done.find? fun x => x.1 == e) = none → (st.page e.page).contents = .programmed i →
      st.rowOf edits done e =
        { entry := e, records := i.records.map fun r => { badge := r.badge, fresh := none }
          edited := false, added := 0, removed := 0, replaced := 0 })
  ∧ (∀ rows : List PlanRow, tiles 1 (rows.map fun r => r.entry.range) = true →
    (rows.map fun r => r.entry.page).Nodup →
    (∀ r ∈ rows, r.records.Pairwise (fun a b => a.badge < b.badge) ∧ r.records.length ≤ 128
      ∧ ∀ pr ∈ r.records, r.entry.low ≤ pr.badge ∧ pr.badge ≤ r.entry.high) →
    let p := planOf rows
    let replaced (r : PlanRow) : Prop := r ∈ rows ∧ r.entry.page ∈ p.released
    Partition (p.copies.map Copy.range
      ++ (rows.filter fun r => !p.released.contains r.entry.page).map fun r => r.entry.range)
    ∧ (∀ r ∈ rows, r.edited = true → replaced r)
    ∧ (∀ q ∈ p.released, ∃ r ∈ rows, r.entry.page = q)
    ∧ (∀ c ∈ p.copies, c.page = none ∧ c.failures = 0 ∧ c.records.length ≤ 64
        ∧ c.records.Pairwise (fun a b => a.badge < b.badge)
        ∧ ∀ pr ∈ c.records, c.low ≤ pr.badge ∧ pr.badge ≤ c.high)
    ∧ (∀ pr, (∃ c ∈ p.copies, pr ∈ c.records) ↔ ∃ r, replaced r ∧ pr ∈ r.records)
    ∧ p.copies.Pairwise (fun a b => a.high < b.low)
    ∧ p.added = (rows.map PlanRow.added).sum ∧ p.removed = (rows.map PlanRow.removed).sum
    ∧ p.replaced = (rows.map PlanRow.replaced).sum
    ∧ (let gone (r : PlanRow) : Prop := r.edited = true ∧ r.records = []
      let stands (below : List PlanRow) (r : PlanRow) (gap above : List PlanRow) : Prop :=
        rows = below ++ r :: (gap ++ above) ∧ ¬ gone r ∧ (∀ x ∈ gap, gone x)
          ∧ ∀ x, above.head? = some x → ¬ gone x
      let lowest (below : List PlanRow) : Prop := ∀ x ∈ below, gone x
      let rewritten (below : List PlanRow) (r : PlanRow) (gap : List PlanRow) : Prop :=
        r.edited = true ∨ gap ≠ [] ∨ (below ≠ [] ∧ lowest below)
      let copy (low high : Badge) (rs : List PlanRecord) : Copy :=
        { low := low, high := high, records := rs, page := none, failures := 0 }
      let becomes (below : List PlanRow) (r : PlanRow) (gap : List PlanRow) (cs : List Copy) : Prop :=
        let k := r.records.length
        let lower := r.records.take (k - k / 2)
        let upper := r.records.drop (k - k / 2)
        let high := (gap.getLast?.map fun x => x.entry.high).getD r.entry.high
        ∃ low, (lowest below → low = 1) ∧ (¬ lowest below → low = r.entry.low)
          ∧ (k ≤ 64 → cs = [copy low high r.records])
          ∧ (64 < k → ∃ first, upper.head? = some first
              ∧ cs = [copy low (first.badge - 1) lower, copy first.badge high upper])
      (∀ r ∈ rows, gone r → r.entry.page ∈ p.released)
      ∧ (∀ below r gap above, stands below r gap above →
          (r.entry.page ∈ p.released ↔ rewritten below r gap)
          ∧ (rewritten below r gap → ∃ cs, becomes below r gap cs ∧ ∀ c ∈ cs, c ∈ p.copies))
      ∧ ((∃ r ∈ rows, ¬ gone r) → ∀ c ∈ p.copies, ∃ below r gap above cs,
          stands below r gap above ∧ rewritten below r gap ∧ becomes below r gap cs ∧ c ∈ cs)
      ∧ (rows ≠ [] → (∀ r ∈ rows, gone r) → p.copies = [copy 1 topBadge []])))
  ∧ (∀ rs : List Record, orderedWithin 1 topBadge rs = true →
    let cs := compactLayout rs
    tiles 1 (cs.map Copy.range) = true
    ∧ cs.length = max 1 ((rs.length + 63) / 64)
    ∧ cs.flatMap Copy.records = rs.map (fun r => { badge := r.badge, fresh := none })
    ∧ (∀ c ∈ cs, c.page = none ∧ c.failures = 0 ∧ c.records.length ≤ 64
        ∧ ∀ pr ∈ c.records, c.low ≤ pr.badge ∧ pr.badge ≤ c.high)
    ∧ ∀ c ∈ cs.dropLast, c.records.length = 64)
  ∧ ∀ (edits : List Edit) (b : Badge), b ∈ purgeListOf edits ↔
    ∃ x ∈ edits, x.badge = b ∧ (x.kind = .drop ∨ ∃ r, x.kind = .put r ∧ r.status ≠ .active)

/-- A trip mark is marked in the page of its record and in every copy that carries the record on, or is
discarded and counted. To mark is to set the slot of the badge's record numbered by its marks, which rise
by one, and to leave every other record and the header as they were. A page that fails its check is not
marked and raises STORE_FAULT with the page as its detail. -/
def Obligations.TripMarkMarksEveryCopy : Prop :=
  ∀ (s : State) (rest : List PrioEntry) (b : Badge), Serves s (.mark b) rest →
    let marksOne (r q : Record) : Prop :=
      q = { r with slots := q.slots } ∧ (r.badge ≠ b → q = r)
      ∧ (r.badge = b → (∀ n, r.budget = some n → n ≤ r.marks) → q = r)
      ∧ ∀ n, r.badge = b → r.budget = some n → r.marks < n →
        q.slots = r.slots ||| (1#32 <<< r.marks)
        ∧ (n ≤ 32 → (∀ i, r.slots.getLsbD i = true ↔ i < r.marks) →
            q.marks = r.marks + 1 ∧ ∀ i, q.slots.getLsbD i = true ↔ i < r.marks + 1)
    let marksPage (before after : DirPage) : Prop :=
      after.retired = before.retired
      ∧ ∀ y, before.contents = .programmed y → ∃ z, after.contents = .programmed z
        ∧ z = { y with records := z.records } ∧ z.records.length = y.records.length
        ∧ ∀ (i : Nat) (r q : Record), y.records[i]? = some r → z.records[i]? = some q → marksOne r q
    (∀ p, p ∈ s.store.markedCopies b ↔ ∃ w c, s.store.work = some w ∧ c ∈ w.copies ∧ c.page = some p
      ∧ ∃ pr ∈ c.records, pr.badge = b ∧ pr.fresh = none)
    ∧ ∃ u, ThenArray .tripMark s u ∧ u.store.prio = rest ∧ u.store.pageState = s.store.pageState
      ∧ (∀ e rs x n, s.dir.condition = .usable → s.dir.entryFor b = some e →
          s.store.readPage e = some rs → recordOf b rs = some x → x.budget = some n →
          (x.marks < n → (e.page :: s.store.markedCopies b).Nodup →
            u.dir = { s.dir with marksTaken := min (s.dir.marksTaken + 1) 65535 }
            ∧ (∀ p ∈ e.page :: s.store.markedCopies b, marksPage (s.store.page p) (u.store.page p))
            ∧ ∀ p, p ∉ e.page :: s.store.markedCopies b → u.store.page p = s.store.page p)
          ∧ (n ≤ x.marks → u.dir = { s.dir with marksNotTaken := min (s.dir.marksNotTaken + 1) 65535 }
            ∧ u.store.pages = s.store.pages))
      ∧ (∀ e, s.dir.condition = .usable → s.dir.entryFor b = some e → s.store.readPage e = none →
          u.dir = { s.dir with marksNotTaken := min (s.dir.marksNotTaken + 1) 65535 }
          ∧ u.store.pages = s.store.pages ∧ Raises s u.arbitrate.settle .storeFault e.page.val
          ∧ u.faults.storeDetail = e.page.val
          ∧ (s.faults.first = none → ∃ x, u.faults.first = some x ∧ x.kind = .storeFault
              ∧ x.detail = e.page.val))
      ∧ (s.dir.condition = .unusable ∨ (∃ e rs, s.dir.entryFor b = some e ∧ s.store.readPage e = some rs
            ∧ ∀ x, recordOf b rs = some x → x.budget = none) →
          u.dir = { s.dir with marksNotTaken := min (s.dir.marksNotTaken + 1) 65535 }
          ∧ u.store.pages = s.store.pages)

/-- The end of a PROGRAM: the copy is held, and the last one makes the work log, its MARK queued unless an
abandoned page stands; a page that fails is retired, and the second failure of one copy, or a lack of pages for
those left, ends the work: a commit with its COMMIT_FAILED notice and the cause, a COMPACT with its own. The
detail of STORE_PROGRAM_FAIL is the page, that of COMMIT_FAIL the low 16 bits of the commit number. SPARE_LOW is
raised where the spare sum, the ERASING page counted (log 19), falls below 8 (log 20). The model's own: a page
whose PROGRAM fails keeps what it holds and has no complete mark (log 56), a second failure gives PROGRAM_FAIL
even where the pages have run out too (log 57), and the bare COMPACT_FAILED (log 22). -/
def Obligations.ProgramsEndHeldOrRetired : Prop :=
  ∀ (s : State) (i : Nat) (p : Page) (w : Work) (c : Copy), Works s (.program i p) →
    s.store.work = some w → w.copies[i]? = some c →
    let failed := w.copies.modify i fun c => { c with failures := c.failures + 1 }
    let left := failed.countP fun c => c.page.isNone
    (∀ v : Work, v.heldPages = v.copies.filterMap Copy.page
      ∧ v.unprogrammed = v.copies.countP fun c => c.page.isNone)
    ∧ (∃ u, ThenArray .programComplete s u ∧ u.store.op = none ∧ u.store.stateOf p = .stale .held
      ∧ (∀ x, (s.store.page p).contents = .programmed x →
          (u.store.page p).contents = .programmed { x with complete := true })
      ∧ (∀ q, q ≠ p → u.store.page q = s.store.page q)
      ∧ ∃ v, u.store.work = some v ∧ v.copies = w.copies.modify i (fun c => { c with page := some p })
        ∧ (w.phase = .programming → v.unprogrammed = 0 → v.phase = .logging
            ∧ MarkQueued (s.store.setState p (.stale .held)) s.store.workQ.tail u.store.workQ)
        ∧ (v.unprogrammed ≠ 0 → v.phase = w.phase ∧ u.store.workQ = s.store.workQ.tail))
    ∧ ∃ u, ThenArray .programFailure s u ∧ u.store.op = none
      ∧ u.store.page p = { s.store.page p with retired := true }
      ∧ (∀ q, q ≠ p → u.store.page q = s.store.page q)
      ∧ Raises s u.arbitrate.settle .storeProgramFail p.val
      ∧ (s.faults.first = none → ∃ x, u.faults.first = some x ∧ x.kind = .storeProgramFail ∧ x.detail = p.val)
      ∧ SpareChecked s u (s.store.setState p .retired)
      ∧ (1 ≤ c.failures → WorkFails s u w .programFail)
      ∧ (c.failures = 0 → w.phase ≠ .reading → (s.store.setState p .retired).obtainable < left →
          WorkFails s u w .noPages)
      ∧ (c.failures = 0 → left ≤ (s.store.setState p .retired).obtainable →
          u.store.stateOf p = .retired ∧ u.store.workQ = s.store.workQ
          ∧ u.store.work = some { w with copies := failed })

/-- The end of an ERASE: the page is FREE, or retired with STORE_ERASE_FAIL; a log page is cleared, or the log
position moves on. A commit that waits for pages begins to program when they are FREE; a work whose pages cannot
be had any more ends with NO_PAGES, one in PROGRAMMING too, as R62 says of the pages against R63's words that a
failed erase ends no commit (log 62, DEDUCED); one that logs has its MARK queued once no abandoned page stands,
and ends with LOG_FAIL when no log page is left. What the end of a work leaves is WorkFails. The detail of
STORE_ERASE_FAIL is the page, 1024 plus its number for a log page, that of COMMIT_FAIL the low 16 bits of the
commit number. A failed directory ERASE raises SPARE_LOW where the spare sum falls below 8 (log 20), the sum
counting the ERASING page against R59's other sentence (log 19). The model's own: what a failed log ERASE leaves
on its page is a free value (log 28), a page whose ERASE fails keeps what it holds and its complete mark is not
brought back (log 47), and the bare COMPACT_FAILED (log 22). -/
def Obligations.ErasesEndFreeOrRetired : Prop :=
  ∀ s : State,
    (∀ (st : Store) (p : Fin 8), (st.logPageErased p = true ↔ ∀ i : Fin 64, st.log[p][i] = none)
      ∧ (st.highestLogPage = some p → ∃ i : Fin 64, st.log[p][i] = some st.lastLogged)
      ∧ (st.highestLogPage = none → ∀ i : Fin 64, st.log[p][i] = none))
    ∧ (∀ p, Works s (.eraseDir p) →
      (∃ u, ThenArray .eraseComplete s u ∧ u.store.op = none ∧ u.store.stateOf p = .free
        ∧ u.store.page p = { contents := .erased, retired := false }
        ∧ (∀ q, q ≠ p → u.store.page q = s.store.page q ∧ u.store.stateOf q = s.store.stateOf q)
        ∧ (s.store.work = none → u.store.work = none ∧ u.store.workQ = s.store.workQ)
        ∧ (∀ w, s.store.work = some w → w.phase ≠ .commitWait → u.store.work = some w
          ∧ (w.phase = .logging →
              MarkQueued (s.store.setState p .free) s.store.workQ u.store.workQ)
          ∧ (w.phase ≠ .logging → u.store.workQ = s.store.workQ))
        ∧ ∀ w, s.store.work = some w → w.phase = .commitWait →
          (w.copies.length ≤ (s.store.setState p .free).freePages →
            u.store.work = some { w with phase := .programming }
            ∧ u.store.workQ = s.store.workQ ++ (List.range w.copies.length).map WorkEntry.program)
          ∧ ((s.store.setState p .free).freePages < w.copies.length →
            u.store.work = some w ∧ u.store.workQ = s.store.workQ))
      ∧ ∃ u, ThenArray .eraseFailure s u ∧ u.store.op = none
        ∧ u.store.page p = { s.store.page p with retired := true }
        ∧ Raises s u.arbitrate.settle .storeEraseFail p.val ∧ SpareChecked s u (s.store.setState p .retired)
        ∧ (s.faults.first = none → ∃ x, u.faults.first = some x ∧ x.kind = .storeEraseFail ∧ x.detail = p.val)
        ∧ (s.store.work = none → u.store.stateOf p = .retired)
        ∧ ∀ w, s.store.work = some w → w.phase ≠ .reading →
          ((s.store.setState p .retired).obtainable < w.unprogrammed → WorkFails s u w .noPages)
          ∧ (w.unprogrammed ≤ (s.store.setState p .retired).obtainable → u.store.work = some w
              ∧ u.store.stateOf p = .retired
              ∧ (w.phase = .logging →
                  MarkQueued (s.store.setState p .retired) s.store.workQ u.store.workQ)
              ∧ (w.phase ≠ .logging → u.store.workQ = s.store.workQ)))
    ∧ (∀ p, Works s (.eraseLog p) →
      (∃ u, ThenArray .eraseComplete s u ∧ u.store.op = none ∧ u.store.workQ = s.store.workQ.tail
        ∧ u.store.log[p] = Vector.replicate 64 none
        ∧ ∀ q, q ≠ p → u.store.log[q] = s.store.log[q])
      ∧ ∃ u, ThenArray .logEraseFailure s u ∧ u.store.op = none
        ∧ Raises s u.arbitrate.settle .storeEraseFail (1024 + p.val) ∧ u.store.pages = s.store.pages
        ∧ (s.faults.first = none → ∃ x, u.faults.first = some x ∧ x.kind = .storeEraseFail
            ∧ x.detail = 1024 + p.val)
        ∧ (∀ q, q ≠ p → u.store.log[q] = s.store.log[q])
        ∧ (u.store.highestLogPage ≠ some (p + 1) → u.store.logPage = p + 1 ∧ u.store.logSlot = 0
            ∧ u.store.work = s.store.work
            ∧ (u.store.logPageErased (p + 1) = true → u.store.workQ = s.store.workQ.tail)
            ∧ (u.store.logPageErased (p + 1) = false →
                u.store.workQ = .logErase (p + 1) :: s.store.workQ.tail))
        ∧ (u.store.highestLogPage = some (p + 1) →
            u.store.work = none ∧ u.store.logPage = p + 1 + 1 ∧ u.store.logSlot = 0
            ∧ ∀ w, s.store.work = some w → WorkFails s u w .logFail))

/-- The commit-complete event: the number stands in the log at the log position, which moves to the next slot
or from the last of a page to the next page's first, the held pages are DATA, the replaced ones
are superseded and wait for their erase, the index names the new pages, the batch or the COMPACT ends,
and a scan that still reads begins again at its start, its queued READ being its first (log 60), while one
that has read its last page keeps its reply. SPARE_LOW is raised where the spare sum, the ERASING page counted
(log 19), falls below 8 (log 20). -/
def Obligations.CommitCompleteSwitchesTheIndex : Prop :=
  ∀ (s : State) (w : Work), Works s .logMark → s.store.work = some w →
    ∃ u, ThenArray .commitComplete s u ∧ u.store.op = none ∧ u.store.work = none
      ∧ u.store.log[s.store.logPage][s.store.logSlot] = some w.number
      ∧ (∀ (q : Fin 8) (i : Fin 64), q ≠ s.store.logPage ∨ i ≠ s.store.logSlot →
          u.store.log[q][i] = s.store.log[q][i])
      ∧ (s.store.logSlot.val < 63 →
          u.store.logPage = s.store.logPage ∧ u.store.logSlot = s.store.logSlot + 1)
      ∧ (s.store.logSlot.val = 63 → u.store.logPage = s.store.logPage + 1 ∧ u.store.logSlot = 0)
      ∧ u.store.pages = s.store.pages ∧ u.store.workQ = s.store.workQ.tail
      ∧ u.store.prio = s.store.prio ∧ SpareChecked s u u.store
      ∧ (∀ p ∈ w.released, u.store.stateOf p = .stale .superseded ∧ p ∈ u.store.eraseQ)
      ∧ (∀ p ∈ w.heldPages, p ∉ w.released → u.store.stateOf p = .data)
      ∧ (∀ e ∈ u.dir.index, e ∈ s.dir.index ∧ e.page ∉ w.released ∨ e.page ∈ w.heldPages)
      ∧ (∀ e ∈ s.dir.index, e.page ∉ w.released → e ∈ u.dir.index)
      ∧ (∀ p ∈ w.heldPages, ∀ x, (s.store.page p).contents = .programmed x →
          { low := x.low, high := x.high, page := p, count := x.count, commit := x.commit } ∈ u.dir.index)
      ∧ u.dir.recordCount = (u.dir.index.map IndexEntry.count).sum ∧ u.dir.cursor = none
      ∧ (∀ f start next gathered, s.site.inHand = some { frame := f, wait := .scan start next gathered } →
          u.site = { s.site with inHand := some { frame := f, wait := .scan start start [] } })
      ∧ ((∀ f start next gathered, s.site.inHand ≠ some { frame := f, wait := .scan start next gathered }) →
          u.site = s.site)
      ∧ (w.kind = .commit → u.batch = Batch.startUp
          ∧ u.transfer.entries = s.transfer.entries.filter (fun e => !s.batch.purge.contains e.badge)
          ∧ ∃ n, Reported u.arbitrate.settle (.committed n) ∧ n.number = w.number
            ∧ n.edits = s.batch.edits.length ∧ n.added = w.added ∧ n.removed = w.removed
            ∧ n.replaced = w.replaced ∧ n.recordCount = u.dir.recordCount
            ∧ n.written = w.heldPages.length ∧ n.released = w.released.length
            ∧ n.purged + u.transfer.entries.length = s.transfer.entries.length)
      ∧ (w.kind = .compact → u.dir.condition = .usable ∧ u.batch = s.batch ∧ u.transfer = s.transfer
          ∧ Reported u.arbitrate.settle (.compactDone w.number u.dir.recordCount))

/-- A settings save: its first erase fixes the image, which a retry takes afresh with every change pending,
each entry is followed by the next, its mark makes the image complete, and a failure, whose detail is 2048
plus the area page, is tried once more and then ends the save, and with it what was pending. -/
def Obligations.SettingsSavesRun : Prop :=
  ∀ (s : State) (k : Nat),
    (∀ rest, Runs s → s.site.phase = .open_ → s.store.op = none → s.store.prio = [] →
      s.store.workQ = .save 0 :: rest →
      ∃ t, exec .settingsSaveStart s = .next t ∧ t.store.save.state = .running
        ∧ t.store.area.complete = false
        ∧ (∃ x, t.store.save.image = some x ∧ x.bank = s.banks.active ∧ x.bankNumber = s.banks.number
            ∧ x.holidays = s.banks.holidays ∧ x.zone = s.zone ∧ x.timing = s.timing
            ∧ x.enables = s.notices.enables ∧ x.masks = s.faults.masks ∧ x.majors = s.faults.majors
            ∧ (∀ c : Chan, x.channels[c] = (s.reader c).cfg)
            ∧ ∀ g : Group, x.groups[g] = (s.recallOf g).cfg)
        ∧ t.store.op = some { kind := .saveErase 0, suspensions := 0, suspended := false }
        ∧ t.store.save.pending = (!s.store.save.retry && s.store.save.pending)
        ∧ t.store.save.retry = s.store.save.retry ∧ t.store.save.last = s.store.save.last
        ∧ t.store.pages = s.store.pages)
    ∧ (∀ op next, (op, next) ∈ [(OpKind.saveErase k, k + 1), (.saveProgram k, 64 + k + 1)] → Works s op →
      (∃ u, ThenArray .settingsSaveEntryComplete s u ∧ u.store.op = none
        ∧ u.store.workQ = .save next :: s.store.workQ.tail ∧ u.store.area = s.store.area)
      ∧ ∃ u, ThenArray .settingsSaveFailure s u ∧ u.store.op = none
        ∧ (op = .saveErase k → Raises s u.arbitrate.settle .storeEraseFail (2048 + k))
        ∧ (op = .saveProgram k → Raises s u.arbitrate.settle .storeProgramFail (2048 + k))
        ∧ (s.faults.first = none → ∃ x, u.faults.first = some x ∧ x.detail = 2048 + k
            ∧ (op = .saveErase k → x.kind = .storeEraseFail)
            ∧ (op = .saveProgram k → x.kind = .storeProgramFail))
        ∧ u.store.area = s.store.area ∧ u.store.pages = s.store.pages
        ∧ u.store.pageState = s.store.pageState ∧ u.store.eraseQ = s.store.eraseQ
        ∧ (s.store.save.retry = false → u.store.workQ = s.store.workQ.tail ++ [.save 0]
            ∧ u.store.save.state = .queued ∧ u.store.save.retry = true
            ∧ u.store.save.pending = s.store.save.pending)
        ∧ (s.store.save.retry = true → u.store.workQ = s.store.workQ.tail
            ∧ u.store.save.state = .idle ∧ u.store.save.last = .failed
            ∧ u.store.save.pending = false ∧ u.store.save.retry = false))
    ∧ (∀ image, Works s .saveMark → s.store.save.image = some image →
      ∃ u, ThenArray .settingsSaveComplete s u ∧ u.store.op = none
        ∧ u.store.area = { complete := true, checkMatches := true, image := image }
        ∧ u.store.save.last = .ok ∧ u.store.save.retry = false
        ∧ (s.store.save.pending = false → u.store.save.state = .idle
            ∧ u.store.workQ = s.store.workQ.tail)
        ∧ (s.store.save.pending = true → u.store.save.state = .queued
            ∧ u.store.workQ = s.store.workQ.tail ++ [.save 0] ∧ u.store.save.pending = false))

/-! ### The Group Link Managers -/

/-- The availability of a group by its recall state, its link and its accepting flag, and GROUP STATE:
liveness, the accepting flag and the availability that follows, with the GROUP notice of its cause; a group that
stops accepting ends its orders, whose channels are told OUT_OF_SERVICE, and withdraws its opened cars. A value
that is neither yes nor no is a protocol fault and changes nothing. -/
def Obligations.GroupStateMakesTheLinkLive : Prop :=
  ∀ (s : State) (g : Group) (v : Byte),
    let live : Prop := (s.recallOf g).state = .clear ∧ (s.group g).link = .live
    ((s.recallOf g).state ≠ .clear → s.availability g = .inRecall)
    ∧ ((s.recallOf g).state = .clear → (s.group g).link ≠ .live → s.availability g = .offline)
    ∧ (live → s.availability g = if (s.group g).accepting then .inService else .notAccepting)
    ∧ (Runs s → v = 0 ∨ v = 1 → ∃ t, exec (.groupState g v) s = .next t ∧ (t.group g).link = .live
      ∧ (t.group g).silenceDeadline = s.cal.uptime + 5 ∧ ((t.group g).accepting = true ↔ v = 1)
      ∧ ((s.recallOf g).state = .clear → (t.group g).avail = if v = 1 then .inService else .notAccepting)
      ∧ ((s.recallOf g).state ≠ .clear → (t.group g).avail = .inRecall)
      ∧ (t.group g).cars = (s.group g).cars ∧ (t.group g).rx = .hunting
      ∧ ((s.group g).link ≠ .live → Reported t (groupNotice s t g .linkLive none))
      ∧ ((s.group g).link = .live →
          ((t.group g).avail ≠ (s.group g).avail → Reported t (groupNotice s t g .acceptingChange none))
          ∧ ((t.group g).avail = (s.group g).avail → t.notices = s.notices))
      ∧ ((s.group g).avail = .inService → (t.group g).avail ≠ .inService →
          LeftService s t g ∧ ∀ c, ToldOutOfService s t g c)
      ∧ ((s.group g).avail ≠ .inService ∨ (t.group g).avail = .inService → t.readers = s.readers
          ∧ (t.group g).orders = (s.group g).orders ∧ (t.group g).enables = (s.group g).enables
          ∧ (t.group g).tx = (s.group g).tx))
    ∧ (Runs s → 1 < v.toNat → ∃ t, exec (.groupState g v) s = .next t
      ∧ t.group g = { s.group g with rx := .hunting }
      ∧ Raises s t .groupProtocol (g.val * 256 + 0xFF))

/-- CAR STATE: the row replaced; a departure, or else a car leaving service, withdraws the car, cancels
its SENT enables, the WITHDRAW first and then the CANCELs by ascending tag (log 42, DEDUCED), and tells their
channels DEPARTED or OUT_OF_SERVICE with no landing, dropped under the mark DISCARD; the other orders, the CALLs
among them, the other cars and the other channels stay (the premise that tags are distinct is OrdersRight's); a
value out of range is a protocol fault and changes nothing. -/
def Obligations.CarStateEndsTheEnables : Prop :=
  (∀ (l : Option Landing) (mo : Motion) (d : Door) (inService : Bool),
    let code : Byte := match l with
      | some x => BitVec.ofNat 8 x.val
      | none => 0xFF
    carRowOf code (BitVec.ofNat 8 mo.code) (BitVec.ofNat 8 d.code) (if inService then 1 else 0)
      = some { landing := l, motion := some mo, door := some d, inService := some inService })
  ∧ ∀ (s : State) (g : Group) (car : Car) (l mo d sv : Byte), Runs s →
    let cmd := Instr.carState g (BitVec.ofNat 8 car.val) l mo d sv
    let old := (s.group g).cars[car]
    let ended (o : Order) : Bool := (match o.kind with
      | .enable c _ _ => c == car
      | _ => false) && o.state == .sent
    (∀ row, carRowOf l mo d sv = some row →
      let leaves : Prop := old.motion = some .stopped ∧ (row.motion = some .up ∨ row.motion = some .down)
      let retires : Prop := old.inService = some true ∧ row.inService = some false
      let code : AnswerCode := if leaves then .departed else .outOfService
      ∃ t, exec cmd s = .next t ∧ t = { s with groups := t.groups, readers := t.readers }
        ∧ (t.group g).cars[car] = row
        ∧ (∀ other : Car, other ≠ car → (t.group g).cars[other] = (s.group g).cars[other])
        ∧ (leaves ∨ retires →
            (∃ cancelled : List Order, cancelled.Perm ((s.group g).orders.filter ended)
              ∧ cancelled.Pairwise (fun a b => a.tag.toNat ≤ b.tag.toNat)
              ∧ t.group g = { s.group g with
                  rx := .hunting, cars := (s.group g).cars.set car.val row, orders := (t.group g).orders
                  enables := (s.group g).enables.set car.val { confirmed := 0, expiry := none }
                  tx := (s.group g).tx
                    ++ (if (s.group g).enables[car].confirmed = 0 then [] else [.withdraw car])
                    ++ cancelled.map fun o => .cancel o.tag })
            ∧ (((s.group g).orders.map Order.tag).Nodup → (t.group g).orders = (s.group g).orders.map fun o =>
                if ended o = true then { o with state := .cancelling (s.cal.uptime + 5) } else o)
            ∧ (∀ o ∈ (s.group g).orders, ended o = true →
                { o with state := .cancelling (s.cal.uptime + 5) } ∈ (t.group g).orders
                ∧ ((s.reader o.channel).mark = .owned →
                  t.reader o.channel = { s.reader o.channel with
                    mark := .none, state := .showing
                    displayDeadline := some (s.cal.uptime + (s.reader o.channel).cfg.hold)
                    tx := (s.reader o.channel).tx ++ [.show_ code none none none, .tone .refuse] })
                ∧ ((s.reader o.channel).mark = .discard →
                  t.reader o.channel = answerDropped (s.reader o.channel)))
            ∧ ∀ c, (∀ o ∈ (s.group g).orders, ended o = true → o.channel ≠ c) → t.reader c = s.reader c)
        ∧ (¬ leaves → ¬ retires →
            t = s.mapGroup g fun m => { m with cars := m.cars.set car.val row, rx := .hunting }))
    ∧ (∀ n : Byte, 7 < n.toNat ∨ carRowOf l mo d sv = none →
      ∃ t, exec (.carState g n l mo d sv) s = .next t ∧ t.group g = { s.group g with rx := .hunting }
        ∧ Raises s t .groupProtocol (g.val * 256 + 0xFF))
    ∧ (carRowOf l mo d sv = none ↔ (127 < l.toNat ∧ l ≠ 0xFF) ∨ 2 < mo.toNat ∨ 1 < d.toNat ∨ 1 < sv.toNat)

/-- An ASSIGN for a SENT CALL and an ENABLED for a SENT ENABLE settle the order with GO, shown at its channel or
dropped under the mark DISCARD: the mark
request of its reservation, the journey in the Transfer Table, the car's confirmed set. A journey replaces
its badge's entry in place, or is added, and in a table of 128 the entry of the earliest expiry, the lower
badge among equals, goes first and is counted. -/
def Obligations.AssignAndEnabledSettleWithGo : Prop :=
  ∀ (s : State) (g : Group) (tag : Byte) (o : Order), Runs s → (s.group g).find tag = some o →
    o.state = .sent →
    let shown (t : State) (car : Car) (d tr : Option Landing) : Prop :=
      ((s.reader o.channel).mark = .owned → (s.reader o.channel).state = .pending →
        (t.reader o.channel).state = .showing ∧ (t.reader o.channel).mark = .none
        ∧ (t.reader o.channel).displayDeadline = some (s.cal.uptime + (s.reader o.channel).cfg.hold)
        ∧ (t.reader o.channel).tx = (s.reader o.channel).tx ++
            [.show_ .go (some car) d tr, .tone .accept])
      ∧ ((s.reader o.channel).mark = .discard → t.reader o.channel = answerDropped (s.reader o.channel))
      ∧ ∀ c, c ≠ o.channel → t.reader c = s.reader c
    (∀ legs final a p link path (car : Car), o.kind = .call legs final a p link path →
      ∃ t, exec (.assign g tag (BitVec.ofNat 8 car.val)) s = .next t
        ∧ (t.group g).orders = (s.group g).orders.filter (fun x => x.tag != tag)
        ∧ t.store.prio = s.store.prio ++ (match o.reservation with
            | some b => [.mark b]
            | none => [])
        ∧ shown t car (some final) (routeTransfer legs)
        ∧ (∀ b l, o.badge = some b → routeTransfer legs = some l →
            let entry : TransferEntry :=
              { badge := b, landing := l, final := final, legs := legs.length - 1, setAt := s.cal.uptime
                expiry := s.cal.uptime + s.timing.validity }
            let old := s.transfer.entries
            let stands : Prop := ∃ x ∈ old, x.badge = b
            (stands → t.transfer = { s.transfer with
              entries := old.map fun x => if x.badge = b then entry else x })
            ∧ (¬ stands → old.length < 128 →
                t.transfer = { s.transfer with entries := old ++ [entry] })
            ∧ (¬ stands → 128 ≤ old.length → ∃ v ∈ old,
                (∀ x ∈ old, v.expiry < x.expiry ∨ (v.expiry = x.expiry ∧ v.badge ≤ x.badge))
                ∧ t.transfer = { entries := (old.filter fun x => x.badge != v.badge) ++ [entry]
                                 evictions := min (s.transfer.evictions + 1) 65535 }))
        ∧ (o.badge = none ∨ (routeTransfer legs = none ∧ path = .normal) → t.transfer = s.transfer)
        ∧ (∀ b, o.badge = some b → routeTransfer legs = none → path = .transfer →
            t.transfer.entries = s.transfer.entries.filter fun e => e.badge != b))
    ∧ (∀ car set hold, o.kind = .enable car set hold →
      ∃ t, exec (.enabled g tag) s = .next t
        ∧ (t.group g).orders = (s.group g).orders.filter (fun x => x.tag != tag)
        ∧ (t.group g).enables[car] = { confirmed := (s.group g).enables[car].confirmed ||| set
                                       expiry := some (s.cal.uptime + hold) }
        ∧ t.store.prio = s.store.prio ++ (match o.reservation with
            | some b => [.mark b]
            | none => [])
        ∧ shown t car none none ∧ t.transfer = s.transfer)

/-- REFUSE and CANCELLED: NO_CAR for a SENT order, dropped under the mark DISCARD, the removal of a CANCELLING
one. An ASSIGN or ENABLED for a CANCELLING order changes nothing. A reply that names no order, an order of the
other kind, or a car that is not there, is a fault while the group is IN_SERVICE and nothing otherwise; an
unknown frame is a fault. The detail word, group in the high byte and tag in the low, is read from the table of
R173 against the words of R141 (log 38, DEDUCED). -/
def Obligations.RefusalsRemoveTheOrder : Prop :=
  ∀ (s : State) (g : Group) (tag car : Byte), Runs s →
    let ignored (cmd : Instr) : Prop := exec cmd s = .next (s.mapGroup g fun m => { m with rx := .hunting })
    let unmatched (cmd : Instr) : Prop :=
      ((s.group g).avail = .inService →
        ∃ t, exec cmd s = .next t ∧ t.group g = { s.group g with rx := .hunting }
          ∧ Raises s t .groupProtocol (g.val * 256 + tag.toNat) ∧ t.readers = s.readers ∧ t.transfer = s.transfer
          ∧ (s.faults.first = none → ∃ x, t.faults.first = some x ∧ x.kind = .groupProtocol
              ∧ x.detail = g.val * 256 + tag.toNat))
      ∧ ((s.group g).avail ≠ .inService → ignored cmd)
    (∀ cmd ∈ [Instr.refuse g tag, .cancelled g tag], ∀ o, (s.group g).find tag = some o →
      ∃ t, exec cmd s = .next t
        ∧ (t.group g).orders = (s.group g).orders.filter (fun x => x.tag != tag)
        ∧ t.store = s.store ∧ t.transfer = s.transfer
        ∧ (o.state = .sent → (s.reader o.channel).mark = .owned → (s.reader o.channel).state = .pending →
            (t.reader o.channel).state = .showing ∧ (t.reader o.channel).mark = .none
            ∧ (t.reader o.channel).tx = (s.reader o.channel).tx ++
                [.show_ .noCar none o.dest none, .tone .refuse])
        ∧ (o.state = .sent → (s.reader o.channel).mark = .discard →
            t.reader o.channel = answerDropped (s.reader o.channel))
        ∧ (∀ c, c ≠ o.channel → t.reader c = s.reader c)
        ∧ (o.state ≠ .sent → t.readers = s.readers))
    ∧ (∀ o, (s.group g).find tag = some o → o.state ≠ .sent →
        (o.kind.isEnable = false → car.toNat < 8 → ignored (.assign g tag car))
        ∧ (o.kind.isEnable = true → ignored (.enabled g tag)))
    ∧ (∀ cmd ∈ [Instr.refuse g tag, .cancelled g tag, .enabled g tag, .assign g tag car],
        (s.group g).find tag = none → unmatched cmd)
    ∧ (∀ o, (s.group g).find tag = some o →
        (o.kind.isEnable = true → unmatched (.assign g tag car))
        ∧ (o.kind.isEnable = false → unmatched (.enabled g tag))
        ∧ (o.kind.isEnable = false → 7 < car.toNat → unmatched (.assign g tag car)))
    ∧ ∀ type payload, groupLength type ≠ some payload.length →
        ∃ t, exec (.unknownGroupFrame g type payload) s = .next t
          ∧ t.group g = { s.group g with rx := .hunting }
          ∧ Raises s t .groupProtocol (g.val * 256 + 0xFF)

/-! ### What the commands leave alone -/

/-- The frame of the commands of the lines and of the store: the tower's settings, the calendar and the
inputs stay; a reader's frame does not touch the store's pages, the batch or the port, a group's frame
only its own manager, and an event of the array no order and no reader but through its lookup. The failed
ERASE of a log page draws a free value besides (log 28): the draw counter of State may rise by one. -/
def Obligations.EventsLeaveTheRestAlone : Prop :=
  ∀ s : State, Runs s →
    (∀ (c : Chan) (b : BitVec 40) (k type : Byte) (p : List Byte),
      ∀ cmd ∈ [Instr.badge c b, .key c k, .alive c, .unknownReaderFrame c type p],
      ∃ t, exec cmd s = .next t ∧ SameTower s t ∧ SameStore s t ∧ t.batch = s.batch ∧ t.site = s.site
        ∧ t.faults = s.faults
        ∧ (s.queue = [] ∨ s.engine ≠ .idle → ∀ d, d ≠ c → t.reader d = s.reader d)
        ∧ ∀ g, (t.group g).cars = (s.group g).cars ∧ (t.group g).enables = (s.group g).enables
          ∧ (t.group g).avail = (s.group g).avail)
    ∧ (∀ (g : Group) (tag car v l mo d sv type : Byte) (p : List Byte),
      ∀ cmd ∈ [Instr.groupState g v, .carState g car l mo d sv, .assign g tag car, .enabled g tag,
          .refuse g tag, .cancelled g tag, .unknownGroupFrame g type p],
      ∃ t, exec cmd s = .next t ∧ SameTower s t ∧ SameStore s t ∧ t.batch = s.batch ∧ t.site = s.site
        ∧ t.queue = s.queue ∧ t.engine = s.engine ∧ ∀ h, h ≠ g → t.group h = s.group h)
    ∧ (∀ cmd ∈ [Instr.programComplete, .programFailure, .eraseComplete, .eraseFailure, .commitComplete,
          .settingsSaveStart, .settingsSaveEntryComplete, .settingsSaveComplete, .settingsSaveFailure,
          .tripMark, .scanPageRead true, .scanPageRead false, .planningRead, .compactRead],
      ∃ t, exec cmd s = .next t ∧ SameTower s t ∧ t.readers = s.readers ∧ t.groups = s.groups
        ∧ t.queue = s.queue ∧ t.engine = s.engine)
    ∧ ∃ t, exec .logEraseFailure s = .next t ∧ SameTower { s with free := t.free } t
      ∧ (t.free = s.free ∨ t.free = s.free + 1) ∧ t.readers = s.readers ∧ t.groups = s.groups
      ∧ t.queue = s.queue ∧ t.engine = s.engine

/-- What a step does when no command waits (log 8, the model's choice): a card unpowered or held idles; a
running one lets a millisecond pass, sends the record or frame at the head of each line's queue, its
labels from the map as it stands, lets an idle transmitter take its next frame (log 14), hands a waiting
lookup result to the engine, which decides and goes on to the next request (log 55), answers a scan that has
read its pages (log 26), and lets an idle array begin its next operation. -/
def Obligations.TickMovesTheCard : Prop :=
  ∀ s : State, s.pending = [] →
    (s.power ≠ .running → step s = .next s)
    ∧ (Runs s → ∃ t, step s = .next t
      ∧ t.time = { s.time with ms := min (s.time.ms + 1) 1000 }
      ∧ t.power = s.power ∧ t.cal = s.cal ∧ t.banks = s.banks ∧ t.zone = s.zone ∧ t.timing = s.timing
      ∧ t.recallIn = s.recallIn ∧ t.key = s.key ∧ t.resetIn = s.resetIn ∧ t.batch = s.batch
      ∧ t.faults = s.faults ∧ t.free = s.free ∧ t.pending = []
      ∧ (∀ c, (t.reader c).sending = (s.reader c).tx.head?.map (ReaderRecord.frame s.zone.labelFor)
          ∧ (s.reader c).tx.tail <+: (t.reader c).tx)
      ∧ (∀ g, (t.group g).sending = (s.group g).tx.head?.map GroupMsg.frame
          ∧ (s.group g).tx.tail <+: (t.group g).tx)
      ∧ ((∀ r res, s.engine ≠ .evaluating r (some res)) →
        t.engine = s.engine ∧ t.queue = s.queue ∧ t.transfer = s.transfer
        ∧ (∀ c, t.reader c = { s.reader c with tx := (t.reader c).tx, sending := (t.reader c).sending }
            ∧ (t.reader c).tx = (s.reader c).tx.tail)
        ∧ (∀ g, t.group g = { s.group g with tx := (t.group g).tx, sending := (t.group g).sending }
            ∧ (t.group g).tx = (s.group g).tx.tail)
        ∧ t.store = s.arbitrate.store)
      ∧ (∀ r res, s.engine = .evaluating r (some res) → EngineGoesOn s t s.store.prio
        ∧ ∃ x, Reported t (.decision x) ∧ x.channel = r.channel ∧ x.badge = r.badge
          ∧ x.wait = s.cal.uptime - r.arrival)
      ∧ (s.site.scanned = false → t.dir = s.dir ∧ t.site.inHand = s.site.inHand
        ∧ (∀ x, s.site.sending = some x → t.site.sending = some x ∧ t.site.waiting = s.site.waiting)
        ∧ (∀ x, s.site.sending = none → s.site.waiting = some x →
            t.site.sending = some x ∧ t.site.waiting = none)
        ∧ (∀ n rest, s.site.sending = none → s.site.waiting = none → s.notices.queue = n :: rest →
            t.site.sending = some (n.frame s.site.seq) ∧ t.site.seq = s.site.seq + 1)
        ∧ (s.site.sending = none → s.site.waiting = none → s.notices.queue = [] →
            t.site.sending = none ∧ t.site.seq = s.site.seq))
      ∧ ∀ f records atEnd, s.site.inHand = some { frame := f, wait := .scanned records atEnd } →
        let reply := replyFrame f .ok (u8 records.length ++ bool8 atEnd ++ records.flatMap Record.bytes) false
        t.site.inHand = none ∧ (t.site.sending = some reply ∨ t.site.waiting = some reply)
        ∧ t.dir = { s.dir with cursor := if atEnd then none else (records.getLast?).map Record.badge })

/-! ### Invariants -/

/-- No queue of the card grows past its bound, every event's notices are taken in it, and the calendar
stays in its ranges. -/
def Obligations.QueuesAndCalendarStayInRange : Prop :=
  ∀ s t : State, step s = .next t →
    (NoticesBounded s → QueuesBounded s → NoticesBounded t ∧ QueuesBounded t)
    ∧ (CalendarInRange s → CalendarInRange t)

/-- The fault output line always shows the MAJOR unmasked kinds of an OPEN card, a card unpowered or held
asserts and sends nothing, and no record waits on the line of an OFFLINE channel, nor on that of an UNUSED
one but the blank form (log 35). -/
def Obligations.FaultLineStaysRight : Prop :=
  ∀ s t : State, step s = .next t →
    (LineRight s → SilentWhenDown s → LineRight t ∧ SilentWhenDown t) ∧ (QuietLines s → QuietLines t)

/-- Every group's availability follows from its recall state, its link and its accepting flag, and a
group out of service holds no order and no opened car. -/
def Obligations.AvailabilityStaysRight : Prop :=
  ∀ s t : State, AvailabilityRight s → OutOfServiceEmpty s → step s = .next t →
    AvailabilityRight t ∧ OutOfServiceEmpty t

/-- The Order Lists keep to 32 orders of different tags, the Transfer Table to 128 entries of different
badges, each expiring within the transfer validity of its setting. The premise that no journey stands
before admission opens is kept by a statement of its own (AdmissionsStaySingle). -/
def Obligations.OrdersAndJourneysStayBounded : Prop :=
  ∀ s t : State, OrdersRight s → TransferRight s → QuietUntilOpen s → step s = .next t →
    OrdersRight t ∧ TransferRight t

/-- No channel ever has two admissions in progress, two queued requests among them, the channel of each
waits for its answer or has dropped it, and until admission opens none is in progress. An idle engine leaves
no request in the queue. -/
def Obligations.AdmissionsStaySingle : Prop :=
  ∀ s t : State, step s = .next t →
    (QuietUntilOpen s → OneAdmissionEach s → QuietUntilOpen t ∧ OneAdmissionEach t)
    ∧ (EngineAtWork s → EngineAtWork t)

/-- The Edit Buffer keeps to 64 edits of different badges, the trip marks to their budgets, the array to
one page under PROGRAM or ERASE, and the record count to the sum of the Page Index. The commit counter
never goes back and stands above the number of the running work, so that no number is given twice: that it
keeps over a start-up a number which left no complete page is log 46's. A settings save that runs leaves the
area without a complete image. -/
def Obligations.BatchAndStoreStayRight : Prop :=
  ∀ s t : State, step s = .next t →
    (BatchRight s → BatchRight t) ∧ (MarksWithinBudget s → MarksWithinBudget t)
    ∧ (OnePageAtATime s → OnePageAtATime t) ∧ (CountRight s → CountRight t)
    ∧ s.store.counter ≤ t.store.counter ∧ (NumberSpent s → NumberSpent t)
    ∧ (RunningSaveHasNoImage s → RunningSaveHasNoImage t)

/-- The Page Index stays in its order, and the ranges of a USABLE directory stay a partition of the badge
numbers. First with the premises it rests on: at the scan every header carries badge numbers, and at the
completing MARK of a work the ranges of its new pages, with those of the pages it keeps, form a partition.
Then what keeps the premises: the ranges of a running work's copies, once they are fixed, partition the badge
numbers with those of the index entries it keeps, each programmed copy's page carries its copy's range, and
the rest of WorkRight, which every step keeps of a batch that stays right (BatchAndStoreStayRight) and from
which both premises follow. -/
def Obligations.IndexStaysAPartition : Prop :=
  (∀ s t : State, IndexRight s → (s.site.phase = .scanning → HeadersInRange s.store) → MarkPartitions s →
    step s = .next t → IndexRight t)
  ∧ (∀ s : State, WorkRight s → HeadersInRange s.store ∧ MarkPartitions s)
  ∧ ∀ s t : State, BatchRight s → IndexRight s → WorkRight s → step s = .next t →
    IndexRight t ∧ WorkRight t
end

