-- ==== Sys2Proof/Laws/State.lean ====
section
/-! SUPPORT. The fields of the state after each named update: the update's own field, and the others
unchanged. Each is true by rfl, so that no proof unfolds a record update;
the brackets in (rfl) keep simp from using it inside a Decidable argument without a congruence. -/

namespace Sys2Proof.Machine

section
variable (s : State) (c : Chan) (f : Channel → Channel)

@[simp] theorem mapReader_power : (s.mapReader c f).power = s.power := (rfl)
@[simp] theorem mapReader_time : (s.mapReader c f).time = s.time := (rfl)
@[simp] theorem mapReader_cal : (s.mapReader c f).cal = s.cal := (rfl)
@[simp] theorem mapReader_banks : (s.mapReader c f).banks = s.banks := (rfl)
@[simp] theorem mapReader_zone : (s.mapReader c f).zone = s.zone := (rfl)
@[simp] theorem mapReader_queue : (s.mapReader c f).queue = s.queue := (rfl)
@[simp] theorem mapReader_engine : (s.mapReader c f).engine = s.engine := (rfl)
@[simp] theorem mapReader_transfer : (s.mapReader c f).transfer = s.transfer := (rfl)
@[simp] theorem mapReader_dir : (s.mapReader c f).dir = s.dir := (rfl)
@[simp] theorem mapReader_store : (s.mapReader c f).store = s.store := (rfl)
@[simp] theorem mapReader_batch : (s.mapReader c f).batch = s.batch := (rfl)
@[simp] theorem mapReader_groups : (s.mapReader c f).groups = s.groups := (rfl)
@[simp] theorem mapReader_recallIn : (s.mapReader c f).recallIn = s.recallIn := (rfl)
@[simp] theorem mapReader_key : (s.mapReader c f).key = s.key := (rfl)
@[simp] theorem mapReader_resetIn : (s.mapReader c f).resetIn = s.resetIn := (rfl)
@[simp] theorem mapReader_site : (s.mapReader c f).site = s.site := (rfl)
@[simp] theorem mapReader_notices : (s.mapReader c f).notices = s.notices := (rfl)
@[simp] theorem mapReader_faults : (s.mapReader c f).faults = s.faults := (rfl)
@[simp] theorem mapReader_timing : (s.mapReader c f).timing = s.timing := (rfl)
@[simp] theorem mapReader_free : (s.mapReader c f).free = s.free := (rfl)
@[simp] theorem mapReader_pending : (s.mapReader c f).pending = s.pending := (rfl)

end

section
variable (s : State) (g : Group) (f : GroupMgr → GroupMgr)

@[simp] theorem mapGroup_power : (s.mapGroup g f).power = s.power := (rfl)
@[simp] theorem mapGroup_time : (s.mapGroup g f).time = s.time := (rfl)
@[simp] theorem mapGroup_cal : (s.mapGroup g f).cal = s.cal := (rfl)
@[simp] theorem mapGroup_banks : (s.mapGroup g f).banks = s.banks := (rfl)
@[simp] theorem mapGroup_zone : (s.mapGroup g f).zone = s.zone := (rfl)
@[simp] theorem mapGroup_readers : (s.mapGroup g f).readers = s.readers := (rfl)
@[simp] theorem mapGroup_queue : (s.mapGroup g f).queue = s.queue := (rfl)
@[simp] theorem mapGroup_engine : (s.mapGroup g f).engine = s.engine := (rfl)
@[simp] theorem mapGroup_transfer : (s.mapGroup g f).transfer = s.transfer := (rfl)
@[simp] theorem mapGroup_dir : (s.mapGroup g f).dir = s.dir := (rfl)
@[simp] theorem mapGroup_store : (s.mapGroup g f).store = s.store := (rfl)
@[simp] theorem mapGroup_batch : (s.mapGroup g f).batch = s.batch := (rfl)
@[simp] theorem mapGroup_recallIn : (s.mapGroup g f).recallIn = s.recallIn := (rfl)
@[simp] theorem mapGroup_key : (s.mapGroup g f).key = s.key := (rfl)
@[simp] theorem mapGroup_resetIn : (s.mapGroup g f).resetIn = s.resetIn := (rfl)
@[simp] theorem mapGroup_site : (s.mapGroup g f).site = s.site := (rfl)
@[simp] theorem mapGroup_notices : (s.mapGroup g f).notices = s.notices := (rfl)
@[simp] theorem mapGroup_faults : (s.mapGroup g f).faults = s.faults := (rfl)
@[simp] theorem mapGroup_timing : (s.mapGroup g f).timing = s.timing := (rfl)
@[simp] theorem mapGroup_free : (s.mapGroup g f).free = s.free := (rfl)
@[simp] theorem mapGroup_pending : (s.mapGroup g f).pending = s.pending := (rfl)

end

section
variable (s : State) (g : Group) (f : RecallIn → RecallIn)

@[simp] theorem mapRecall_power : (s.mapRecall g f).power = s.power := (rfl)
@[simp] theorem mapRecall_time : (s.mapRecall g f).time = s.time := (rfl)
@[simp] theorem mapRecall_cal : (s.mapRecall g f).cal = s.cal := (rfl)
@[simp] theorem mapRecall_banks : (s.mapRecall g f).banks = s.banks := (rfl)
@[simp] theorem mapRecall_zone : (s.mapRecall g f).zone = s.zone := (rfl)
@[simp] theorem mapRecall_readers : (s.mapRecall g f).readers = s.readers := (rfl)
@[simp] theorem mapRecall_queue : (s.mapRecall g f).queue = s.queue := (rfl)
@[simp] theorem mapRecall_engine : (s.mapRecall g f).engine = s.engine := (rfl)
@[simp] theorem mapRecall_transfer : (s.mapRecall g f).transfer = s.transfer := (rfl)
@[simp] theorem mapRecall_dir : (s.mapRecall g f).dir = s.dir := (rfl)
@[simp] theorem mapRecall_store : (s.mapRecall g f).store = s.store := (rfl)
@[simp] theorem mapRecall_batch : (s.mapRecall g f).batch = s.batch := (rfl)
@[simp] theorem mapRecall_groups : (s.mapRecall g f).groups = s.groups := (rfl)
@[simp] theorem mapRecall_key : (s.mapRecall g f).key = s.key := (rfl)
@[simp] theorem mapRecall_resetIn : (s.mapRecall g f).resetIn = s.resetIn := (rfl)
@[simp] theorem mapRecall_site : (s.mapRecall g f).site = s.site := (rfl)
@[simp] theorem mapRecall_notices : (s.mapRecall g f).notices = s.notices := (rfl)
@[simp] theorem mapRecall_faults : (s.mapRecall g f).faults = s.faults := (rfl)
@[simp] theorem mapRecall_timing : (s.mapRecall g f).timing = s.timing := (rfl)
@[simp] theorem mapRecall_free : (s.mapRecall g f).free = s.free := (rfl)
@[simp] theorem mapRecall_pending : (s.mapRecall g f).pending = s.pending := (rfl)

end

section
variable (s : State) (f : Store → Store)

@[simp] theorem mapStore_power : (s.mapStore f).power = s.power := (rfl)
@[simp] theorem mapStore_time : (s.mapStore f).time = s.time := (rfl)
@[simp] theorem mapStore_cal : (s.mapStore f).cal = s.cal := (rfl)
@[simp] theorem mapStore_banks : (s.mapStore f).banks = s.banks := (rfl)
@[simp] theorem mapStore_zone : (s.mapStore f).zone = s.zone := (rfl)
@[simp] theorem mapStore_readers : (s.mapStore f).readers = s.readers := (rfl)
@[simp] theorem mapStore_queue : (s.mapStore f).queue = s.queue := (rfl)
@[simp] theorem mapStore_engine : (s.mapStore f).engine = s.engine := (rfl)
@[simp] theorem mapStore_transfer : (s.mapStore f).transfer = s.transfer := (rfl)
@[simp] theorem mapStore_dir : (s.mapStore f).dir = s.dir := (rfl)
@[simp] theorem mapStore_store : (s.mapStore f).store = f s.store := (rfl)
@[simp] theorem mapStore_batch : (s.mapStore f).batch = s.batch := (rfl)
@[simp] theorem mapStore_groups : (s.mapStore f).groups = s.groups := (rfl)
@[simp] theorem mapStore_recallIn : (s.mapStore f).recallIn = s.recallIn := (rfl)
@[simp] theorem mapStore_key : (s.mapStore f).key = s.key := (rfl)
@[simp] theorem mapStore_resetIn : (s.mapStore f).resetIn = s.resetIn := (rfl)
@[simp] theorem mapStore_site : (s.mapStore f).site = s.site := (rfl)
@[simp] theorem mapStore_notices : (s.mapStore f).notices = s.notices := (rfl)
@[simp] theorem mapStore_faults : (s.mapStore f).faults = s.faults := (rfl)
@[simp] theorem mapStore_timing : (s.mapStore f).timing = s.timing := (rfl)
@[simp] theorem mapStore_free : (s.mapStore f).free = s.free := (rfl)
@[simp] theorem mapStore_pending : (s.mapStore f).pending = s.pending := (rfl)

end

section
variable (s : State) (f : Directory → Directory)

@[simp] theorem mapDir_power : (s.mapDir f).power = s.power := (rfl)
@[simp] theorem mapDir_time : (s.mapDir f).time = s.time := (rfl)
@[simp] theorem mapDir_cal : (s.mapDir f).cal = s.cal := (rfl)
@[simp] theorem mapDir_banks : (s.mapDir f).banks = s.banks := (rfl)
@[simp] theorem mapDir_zone : (s.mapDir f).zone = s.zone := (rfl)
@[simp] theorem mapDir_readers : (s.mapDir f).readers = s.readers := (rfl)
@[simp] theorem mapDir_queue : (s.mapDir f).queue = s.queue := (rfl)
@[simp] theorem mapDir_engine : (s.mapDir f).engine = s.engine := (rfl)
@[simp] theorem mapDir_transfer : (s.mapDir f).transfer = s.transfer := (rfl)
@[simp] theorem mapDir_dir : (s.mapDir f).dir = f s.dir := (rfl)
@[simp] theorem mapDir_store : (s.mapDir f).store = s.store := (rfl)
@[simp] theorem mapDir_batch : (s.mapDir f).batch = s.batch := (rfl)
@[simp] theorem mapDir_groups : (s.mapDir f).groups = s.groups := (rfl)
@[simp] theorem mapDir_recallIn : (s.mapDir f).recallIn = s.recallIn := (rfl)
@[simp] theorem mapDir_key : (s.mapDir f).key = s.key := (rfl)
@[simp] theorem mapDir_resetIn : (s.mapDir f).resetIn = s.resetIn := (rfl)
@[simp] theorem mapDir_site : (s.mapDir f).site = s.site := (rfl)
@[simp] theorem mapDir_notices : (s.mapDir f).notices = s.notices := (rfl)
@[simp] theorem mapDir_faults : (s.mapDir f).faults = s.faults := (rfl)
@[simp] theorem mapDir_timing : (s.mapDir f).timing = s.timing := (rfl)
@[simp] theorem mapDir_free : (s.mapDir f).free = s.free := (rfl)
@[simp] theorem mapDir_pending : (s.mapDir f).pending = s.pending := (rfl)

end

section
variable (s : State) (f : Port → Port)

@[simp] theorem mapSite_power : (s.mapSite f).power = s.power := (rfl)
@[simp] theorem mapSite_time : (s.mapSite f).time = s.time := (rfl)
@[simp] theorem mapSite_cal : (s.mapSite f).cal = s.cal := (rfl)
@[simp] theorem mapSite_banks : (s.mapSite f).banks = s.banks := (rfl)
@[simp] theorem mapSite_zone : (s.mapSite f).zone = s.zone := (rfl)
@[simp] theorem mapSite_readers : (s.mapSite f).readers = s.readers := (rfl)
@[simp] theorem mapSite_queue : (s.mapSite f).queue = s.queue := (rfl)
@[simp] theorem mapSite_engine : (s.mapSite f).engine = s.engine := (rfl)
@[simp] theorem mapSite_transfer : (s.mapSite f).transfer = s.transfer := (rfl)
@[simp] theorem mapSite_dir : (s.mapSite f).dir = s.dir := (rfl)
@[simp] theorem mapSite_store : (s.mapSite f).store = s.store := (rfl)
@[simp] theorem mapSite_batch : (s.mapSite f).batch = s.batch := (rfl)
@[simp] theorem mapSite_groups : (s.mapSite f).groups = s.groups := (rfl)
@[simp] theorem mapSite_recallIn : (s.mapSite f).recallIn = s.recallIn := (rfl)
@[simp] theorem mapSite_key : (s.mapSite f).key = s.key := (rfl)
@[simp] theorem mapSite_resetIn : (s.mapSite f).resetIn = s.resetIn := (rfl)
@[simp] theorem mapSite_site : (s.mapSite f).site = f s.site := (rfl)
@[simp] theorem mapSite_notices : (s.mapSite f).notices = s.notices := (rfl)
@[simp] theorem mapSite_faults : (s.mapSite f).faults = s.faults := (rfl)
@[simp] theorem mapSite_timing : (s.mapSite f).timing = s.timing := (rfl)
@[simp] theorem mapSite_free : (s.mapSite f).free = s.free := (rfl)
@[simp] theorem mapSite_pending : (s.mapSite f).pending = s.pending := (rfl)

end

section
variable (s : State) (f : NoticeUnit → NoticeUnit)

@[simp] theorem mapNotices_power : (s.mapNotices f).power = s.power := (rfl)
@[simp] theorem mapNotices_time : (s.mapNotices f).time = s.time := (rfl)
@[simp] theorem mapNotices_cal : (s.mapNotices f).cal = s.cal := (rfl)
@[simp] theorem mapNotices_banks : (s.mapNotices f).banks = s.banks := (rfl)
@[simp] theorem mapNotices_zone : (s.mapNotices f).zone = s.zone := (rfl)
@[simp] theorem mapNotices_readers : (s.mapNotices f).readers = s.readers := (rfl)
@[simp] theorem mapNotices_queue : (s.mapNotices f).queue = s.queue := (rfl)
@[simp] theorem mapNotices_engine : (s.mapNotices f).engine = s.engine := (rfl)
@[simp] theorem mapNotices_transfer : (s.mapNotices f).transfer = s.transfer := (rfl)
@[simp] theorem mapNotices_dir : (s.mapNotices f).dir = s.dir := (rfl)
@[simp] theorem mapNotices_store : (s.mapNotices f).store = s.store := (rfl)
@[simp] theorem mapNotices_batch : (s.mapNotices f).batch = s.batch := (rfl)
@[simp] theorem mapNotices_groups : (s.mapNotices f).groups = s.groups := (rfl)
@[simp] theorem mapNotices_recallIn : (s.mapNotices f).recallIn = s.recallIn := (rfl)
@[simp] theorem mapNotices_key : (s.mapNotices f).key = s.key := (rfl)
@[simp] theorem mapNotices_resetIn : (s.mapNotices f).resetIn = s.resetIn := (rfl)
@[simp] theorem mapNotices_site : (s.mapNotices f).site = s.site := (rfl)
@[simp] theorem mapNotices_notices : (s.mapNotices f).notices = f s.notices := (rfl)
@[simp] theorem mapNotices_faults : (s.mapNotices f).faults = s.faults := (rfl)
@[simp] theorem mapNotices_timing : (s.mapNotices f).timing = s.timing := (rfl)
@[simp] theorem mapNotices_free : (s.mapNotices f).free = s.free := (rfl)
@[simp] theorem mapNotices_pending : (s.mapNotices f).pending = s.pending := (rfl)

end

section
variable (s : State) (f : FaultUnit → FaultUnit)

@[simp] theorem mapFaults_power : (s.mapFaults f).power = s.power := (rfl)
@[simp] theorem mapFaults_time : (s.mapFaults f).time = s.time := (rfl)
@[simp] theorem mapFaults_cal : (s.mapFaults f).cal = s.cal := (rfl)
@[simp] theorem mapFaults_banks : (s.mapFaults f).banks = s.banks := (rfl)
@[simp] theorem mapFaults_zone : (s.mapFaults f).zone = s.zone := (rfl)
@[simp] theorem mapFaults_readers : (s.mapFaults f).readers = s.readers := (rfl)
@[simp] theorem mapFaults_queue : (s.mapFaults f).queue = s.queue := (rfl)
@[simp] theorem mapFaults_engine : (s.mapFaults f).engine = s.engine := (rfl)
@[simp] theorem mapFaults_transfer : (s.mapFaults f).transfer = s.transfer := (rfl)
@[simp] theorem mapFaults_dir : (s.mapFaults f).dir = s.dir := (rfl)
@[simp] theorem mapFaults_store : (s.mapFaults f).store = s.store := (rfl)
@[simp] theorem mapFaults_batch : (s.mapFaults f).batch = s.batch := (rfl)
@[simp] theorem mapFaults_groups : (s.mapFaults f).groups = s.groups := (rfl)
@[simp] theorem mapFaults_recallIn : (s.mapFaults f).recallIn = s.recallIn := (rfl)
@[simp] theorem mapFaults_key : (s.mapFaults f).key = s.key := (rfl)
@[simp] theorem mapFaults_resetIn : (s.mapFaults f).resetIn = s.resetIn := (rfl)
@[simp] theorem mapFaults_site : (s.mapFaults f).site = s.site := (rfl)
@[simp] theorem mapFaults_notices : (s.mapFaults f).notices = s.notices := (rfl)
@[simp] theorem mapFaults_faults : (s.mapFaults f).faults = f s.faults := (rfl)
@[simp] theorem mapFaults_timing : (s.mapFaults f).timing = s.timing := (rfl)
@[simp] theorem mapFaults_free : (s.mapFaults f).free = s.free := (rfl)
@[simp] theorem mapFaults_pending : (s.mapFaults f).pending = s.pending := (rfl)

end

section
variable (s : State) (f : Batch → Batch)

@[simp] theorem mapBatch_power : (s.mapBatch f).power = s.power := (rfl)
@[simp] theorem mapBatch_time : (s.mapBatch f).time = s.time := (rfl)
@[simp] theorem mapBatch_cal : (s.mapBatch f).cal = s.cal := (rfl)
@[simp] theorem mapBatch_banks : (s.mapBatch f).banks = s.banks := (rfl)
@[simp] theorem mapBatch_zone : (s.mapBatch f).zone = s.zone := (rfl)
@[simp] theorem mapBatch_readers : (s.mapBatch f).readers = s.readers := (rfl)
@[simp] theorem mapBatch_queue : (s.mapBatch f).queue = s.queue := (rfl)
@[simp] theorem mapBatch_engine : (s.mapBatch f).engine = s.engine := (rfl)
@[simp] theorem mapBatch_transfer : (s.mapBatch f).transfer = s.transfer := (rfl)
@[simp] theorem mapBatch_dir : (s.mapBatch f).dir = s.dir := (rfl)
@[simp] theorem mapBatch_store : (s.mapBatch f).store = s.store := (rfl)
@[simp] theorem mapBatch_batch : (s.mapBatch f).batch = f s.batch := (rfl)
@[simp] theorem mapBatch_groups : (s.mapBatch f).groups = s.groups := (rfl)
@[simp] theorem mapBatch_recallIn : (s.mapBatch f).recallIn = s.recallIn := (rfl)
@[simp] theorem mapBatch_key : (s.mapBatch f).key = s.key := (rfl)
@[simp] theorem mapBatch_resetIn : (s.mapBatch f).resetIn = s.resetIn := (rfl)
@[simp] theorem mapBatch_site : (s.mapBatch f).site = s.site := (rfl)
@[simp] theorem mapBatch_notices : (s.mapBatch f).notices = s.notices := (rfl)
@[simp] theorem mapBatch_faults : (s.mapBatch f).faults = s.faults := (rfl)
@[simp] theorem mapBatch_timing : (s.mapBatch f).timing = s.timing := (rfl)
@[simp] theorem mapBatch_free : (s.mapBatch f).free = s.free := (rfl)
@[simp] theorem mapBatch_pending : (s.mapBatch f).pending = s.pending := (rfl)

end

/-! ### Reading a channel, a group and a recall input after an update -/

@[simp] theorem reader_mapReader (s : State) (c : Chan) (f : Channel → Channel) :
    (s.mapReader c f).reader c = f (s.reader c) := by
  simp [State.reader, State.mapReader]

theorem reader_mapReader_of_ne (s : State) {c d : Chan} (f : Channel → Channel) (h : d ≠ c) :
    (s.mapReader c f).reader d = s.reader d := by
  simp only [State.reader, State.mapReader]
  exact Vector.getElem_set_ne c.isLt d.isLt fun e => h (Fin.ext e.symm)

@[simp] theorem group_mapGroup (s : State) (g : Group) (f : GroupMgr → GroupMgr) :
    (s.mapGroup g f).group g = f (s.group g) := by
  simp [State.group, State.mapGroup]

theorem group_mapGroup_of_ne (s : State) {g h : Group} (f : GroupMgr → GroupMgr) (ne : h ≠ g) :
    (s.mapGroup g f).group h = s.group h := by
  simp only [State.group, State.mapGroup]
  exact Vector.getElem_set_ne g.isLt h.isLt fun e => ne (Fin.ext e.symm)

@[simp] theorem recallOf_mapRecall (s : State) (g : Group) (f : RecallIn → RecallIn) :
    (s.mapRecall g f).recallOf g = f (s.recallOf g) := by
  simp [State.recallOf, State.mapRecall]

theorem recallOf_mapRecall_of_ne (s : State) {g h : Group} (f : RecallIn → RecallIn) (ne : h ≠ g) :
    (s.mapRecall g f).recallOf h = s.recallOf h := by
  simp only [State.recallOf, State.mapRecall]
  exact Vector.getElem_set_ne g.isLt h.isLt fun e => ne (Fin.ext e.symm)

/-! ### Two updates of one part in a row -/

@[simp] theorem mapReader_mapReader (s : State) (c : Chan) (f h : Channel → Channel) :
    (s.mapReader c f).mapReader c h = s.mapReader c fun ch => h (f ch) := by
  simp [State.mapReader, State.reader]

@[simp] theorem mapGroup_mapGroup (s : State) (g : Group) (f h : GroupMgr → GroupMgr) :
    (s.mapGroup g f).mapGroup g h = s.mapGroup g fun m => h (f m) := by
  simp [State.mapGroup, State.group]

@[simp] theorem mapReader_id (s : State) (c : Chan) : (s.mapReader c fun ch => ch) = s := by
  simp [State.mapReader, State.reader]

@[simp] theorem mapGroup_id (s : State) (g : Group) : (s.mapGroup g fun m => m) = s := by
  simp [State.mapGroup, State.group]

/-- An update that changes nothing of its channel. -/
theorem mapReader_of_fixed (s : State) (c : Chan) (f : Channel → Channel) (h : f (s.reader c) = s.reader c) :
    s.mapReader c f = s := by
  have : s.mapReader c f = s.mapReader c fun ch => ch := by simp only [State.mapReader, h]
  rw [this, mapReader_id]

theorem mapReader_congr (s : State) (c : Chan) (f h : Channel → Channel)
    (e : f (s.reader c) = h (s.reader c)) : s.mapReader c f = s.mapReader c h := by
  simp only [State.mapReader, e]

theorem mapGroup_congr (s : State) (g : Group) (f h : GroupMgr → GroupMgr)
    (e : f (s.group g) = h (s.group g)) : s.mapGroup g f = s.mapGroup g h := by
  simp only [State.mapGroup, e]

/-! ### Reading a page after an update -/

section
variable (st : Store) (p q : Page)

@[simp] theorem page_setPage (d : DirPage) : (st.setPage p d).page p = d := by
  simp [Store.page, Store.setPage]

theorem page_setPage_of_ne (d : DirPage) (h : q ≠ p) : (st.setPage p d).page q = st.page q := by
  simp only [Store.page, Store.setPage]
  exact Vector.getElem_set_ne p.isLt q.isLt fun e => h (Fin.ext e.symm)

@[simp] theorem stateOf_setState (x : PageState) : (st.setState p x).stateOf p = x := by
  simp [Store.stateOf, Store.setState]

theorem stateOf_setState_of_ne (x : PageState) (h : q ≠ p) :
    (st.setState p x).stateOf q = st.stateOf q := by
  simp only [Store.stateOf, Store.setState]
  exact Vector.getElem_set_ne p.isLt q.isLt fun e => h (Fin.ext e.symm)

@[simp] theorem page_setState (x : PageState) : (st.setState p x).page q = st.page q := rfl

@[simp] theorem stateOf_setPage (d : DirPage) : (st.setPage p d).stateOf q = st.stateOf q := rfl

end

end Sys2Proof.Machine
end

