-- ==== Sys2Proof/Laws/Dispatch.lean ====
section
/-! SUPPORT. The effect of each command is its meaning: one equation per constructor, true by rfl. -/

namespace Sys2Proof.Machine

@[simp] theorem exec_powerOn (s : State) : exec (.powerOn) s = execPowerOn s := rfl
@[simp] theorem exec_resetAsserted (s : State) : exec (.resetAsserted) s = execResetAsserted s := rfl
@[simp] theorem exec_resetReleased (s : State) : exec (.resetReleased) s = execResetReleased s := rfl
@[simp] theorem exec_scanEnd (s : State) : exec (.scanEnd) s = execScanEnd s := rfl
@[simp] theorem exec_admissionOpens (s : State) : exec (.admissionOpens) s = execAdmissionOpens s := rfl
@[simp] theorem exec_secondEvent (s : State) : exec (.secondEvent) s = execSecondEvent s := rfl
@[simp] theorem exec_minuteBoundary (s : State) : exec (.minuteBoundary) s = execMinuteBoundary s := rfl
@[simp] theorem exec_batchExpired (s : State) : exec (.batchExpired) s = execBatchExpired s := rfl
@[simp] theorem exec_readerOffline (c : Chan) (s : State) : exec (.readerOffline c) s = execReaderOffline c s := rfl
@[simp] theorem exec_displayDeadline (c : Chan) (s : State) : exec (.displayDeadline c) s = execDisplayDeadline c s := rfl
@[simp] theorem exec_startingDisplayEnd (c : Chan) (s : State) : exec (.startingDisplayEnd c) s = execStartingDisplayEnd c s := rfl
@[simp] theorem exec_interKeyTimeout (c : Chan) (s : State) : exec (.interKeyTimeout c) s = execInterKeyTimeout c s := rfl
@[simp] theorem exec_badgeWaitTimeout (c : Chan) (s : State) : exec (.badgeWaitTimeout c) s = execBadgeWaitTimeout c s := rfl
@[simp] theorem exec_replyDeadline (g : Group) (tag : Byte) (s : State) : exec (.replyDeadline g tag) s = execReplyDeadline g tag s := rfl
@[simp] theorem exec_cancelDeadline (g : Group) (tag : Byte) (s : State) : exec (.cancelDeadline g tag) s = execCancelDeadline g tag s := rfl
@[simp] theorem exec_holdExpiry (g : Group) (car : Car) (s : State) : exec (.holdExpiry g car) s = execHoldExpiry g car s := rfl
@[simp] theorem exec_linkSilent (g : Group) (s : State) : exec (.linkSilent g) s = execLinkSilent g s := rfl
@[simp] theorem exec_rawLevelChange (input : Input) (level : Level) (s : State) : exec (.rawLevelChange input level) s = execRawLevelChange input level s := rfl
@[simp] theorem exec_firstStableLevel (input : Input) (s : State) : exec (.firstStableLevel input) s = execFirstStableLevel input s := rfl
@[simp] theorem exec_lineBecomesActive (g : Group) (s : State) : exec (.lineBecomesActive g) s = execLineBecomesActive g s := rfl
@[simp] theorem exec_lineBecomesInactive (g : Group) (s : State) : exec (.lineBecomesInactive g) s = execLineBecomesInactive g s := rfl
@[simp] theorem exec_serviceKeyChange (s : State) : exec (.serviceKeyChange) s = execServiceKeyChange s := rfl
@[simp] theorem exec_byteGapTimeout (link : Link) (late : Option Byte) (s : State) : exec (.byteGapTimeout link late) s = execByteGapTimeout link late s := rfl
@[simp] theorem exec_frameDiscard (link : Link) (bytes : List Byte) (s : State) : exec (.frameDiscard link bytes) s = execFrameDiscard link bytes s := rfl
@[simp] theorem exec_siteFrameReceive (type : Byte) (r : Req) (s : State) : exec (.siteFrameReceive type r) s = execSiteFrameReceive type r s := rfl
@[simp] theorem exec_transmitComplete (s : State) : exec (.transmitComplete) s = execTransmitComplete s := rfl
@[simp] theorem exec_unknownType (type : Byte) (r : Req) (s : State) : exec (.unknownType type r) s = execUnknownType type r s := rfl
@[simp] theorem exec_identify (r : Req) (s : State) : exec (.identify r) s = execIdentify r s := rfl
@[simp] theorem exec_status (r : Req) (s : State) : exec (.status r) s = execStatus r s := rfl
@[simp] theorem exec_clockSet (r : Req) (s : State) : exec (.clockSet r) s = execClockSet r s := rfl
@[simp] theorem exec_clockRead (r : Req) (s : State) : exec (.clockRead r) s = execClockRead r s := rfl
@[simp] theorem exec_batchOpen (r : Req) (s : State) : exec (.batchOpen r) s = execBatchOpen r s := rfl
@[simp] theorem exec_stagePut (r : Req) (s : State) : exec (.stagePut r) s = execStagePut r s := rfl
@[simp] theorem exec_stageDrop (r : Req) (s : State) : exec (.stageDrop r) s = execStageDrop r s := rfl
@[simp] theorem exec_batchCommit (r : Req) (s : State) : exec (.batchCommit r) s = execBatchCommit r s := rfl
@[simp] theorem exec_batchAbandon (r : Req) (s : State) : exec (.batchAbandon r) s = execBatchAbandon r s := rfl
@[simp] theorem exec_compact (r : Req) (s : State) : exec (.compact r) s = execCompact r s := rfl
@[simp] theorem exec_storeStatus (r : Req) (s : State) : exec (.storeStatus r) s = execStoreStatus r s := rfl
@[simp] theorem exec_recordRead (r : Req) (s : State) : exec (.recordRead r) s = execRecordRead r s := rfl
@[simp] theorem exec_directoryScan (r : Req) (s : State) : exec (.directoryScan r) s = execDirectoryScan r s := rfl
@[simp] theorem exec_profileWrite (r : Req) (s : State) : exec (.profileWrite r) s = execProfileWrite r s := rfl
@[simp] theorem exec_profileRead (r : Req) (s : State) : exec (.profileRead r) s = execProfileRead r s := rfl
@[simp] theorem exec_switchArm (r : Req) (s : State) : exec (.switchArm r) s = execSwitchArm r s := rfl
@[simp] theorem exec_switchDisarm (r : Req) (s : State) : exec (.switchDisarm r) s = execSwitchDisarm r s := rfl
@[simp] theorem exec_holidayWrite (r : Req) (s : State) : exec (.holidayWrite r) s = execHolidayWrite r s := rfl
@[simp] theorem exec_holidayRead (r : Req) (s : State) : exec (.holidayRead r) s = execHolidayRead r s := rfl
@[simp] theorem exec_zoneWrite (r : Req) (s : State) : exec (.zoneWrite r) s = execZoneWrite r s := rfl
@[simp] theorem exec_zoneRead (r : Req) (s : State) : exec (.zoneRead r) s = execZoneRead r s := rfl
@[simp] theorem exec_channelSet (r : Req) (s : State) : exec (.channelSet r) s = execChannelSet r s := rfl
@[simp] theorem exec_channelRead (r : Req) (s : State) : exec (.channelRead r) s = execChannelRead r s := rfl
@[simp] theorem exec_groupSet (r : Req) (s : State) : exec (.groupSet r) s = execGroupSet r s := rfl
@[simp] theorem exec_groupRead (r : Req) (s : State) : exec (.groupRead r) s = execGroupRead r s := rfl
@[simp] theorem exec_groupResume (r : Req) (s : State) : exec (.groupResume r) s = execGroupResume r s := rfl
@[simp] theorem exec_transferRead (r : Req) (s : State) : exec (.transferRead r) s = execTransferRead r s := rfl
@[simp] theorem exec_transferPurge (r : Req) (s : State) : exec (.transferPurge r) s = execTransferPurge r s := rfl
@[simp] theorem exec_noticeSet (r : Req) (s : State) : exec (.noticeSet r) s = execNoticeSet r s := rfl
@[simp] theorem exec_faultRead (r : Req) (s : State) : exec (.faultRead r) s = execFaultRead r s := rfl
@[simp] theorem exec_faultClear (r : Req) (s : State) : exec (.faultClear r) s = execFaultClear r s := rfl
@[simp] theorem exec_faultSet (r : Req) (s : State) : exec (.faultSet r) s = execFaultSet r s := rfl
@[simp] theorem exec_restartArm (r : Req) (s : State) : exec (.restartArm r) s = execRestartArm r s := rfl
@[simp] theorem exec_restart (r : Req) (s : State) : exec (.restart r) s = execRestart r s := rfl
@[simp] theorem exec_timingSet (r : Req) (s : State) : exec (.timingSet r) s = execTimingSet r s := rfl
@[simp] theorem exec_timingRead (r : Req) (s : State) : exec (.timingRead r) s = execTimingRead r s := rfl
@[simp] theorem exec_badge (c : Chan) (badge : BitVec 40) (s : State) : exec (.badge c badge) s = execBadge c badge s := rfl
@[simp] theorem exec_key (s : State) : exec (.key c key) s = execKey c key s := rfl
@[simp] theorem exec_alive (c : Chan) (s : State) : exec (.alive c) s = execAlive c s := rfl
@[simp] theorem exec_unknownReaderFrame (c : Chan) (type : Byte) (payload : List Byte) (s : State) : exec (.unknownReaderFrame c type payload) s = execUnknownReaderFrame c type payload s := rfl
@[simp] theorem exec_lookup (handOver : Bool) (s : State) : exec (.lookup handOver) s = execLookup handOver s := rfl
@[simp] theorem exec_scanPageRead (reply : Bool) (s : State) : exec (.scanPageRead reply) s = execScanPageRead s reply := rfl
@[simp] theorem exec_planningRead (s : State) : exec (.planningRead) s = execPlanningRead s := rfl
@[simp] theorem exec_compactRead (s : State) : exec (.compactRead) s = execCompactRead s := rfl
@[simp] theorem exec_tripMark (s : State) : exec (.tripMark) s = execTripMark s := rfl
@[simp] theorem exec_programComplete (s : State) : exec (.programComplete) s = execProgramComplete s := rfl
@[simp] theorem exec_programFailure (s : State) : exec (.programFailure) s = execProgramFailure s := rfl
@[simp] theorem exec_eraseComplete (s : State) : exec (.eraseComplete) s = execEraseComplete s := rfl
@[simp] theorem exec_eraseFailure (s : State) : exec (.eraseFailure) s = execEraseFailure s := rfl
@[simp] theorem exec_logEraseFailure (s : State) : exec (.logEraseFailure) s = execLogEraseFailure s := rfl
@[simp] theorem exec_commitComplete (s : State) : exec (.commitComplete) s = execCommitComplete s := rfl
@[simp] theorem exec_settingsSaveStart (s : State) : exec (.settingsSaveStart) s = execSettingsSaveStart s := rfl
@[simp] theorem exec_settingsSaveComplete (s : State) : exec (.settingsSaveComplete) s = execSettingsSaveComplete s := rfl
@[simp] theorem exec_settingsSaveFailure (s : State) : exec (.settingsSaveFailure) s = execSettingsSaveFailure s := rfl
@[simp] theorem exec_groupState (g : Group) (accepting : Byte) (s : State) : exec (.groupState g accepting) s = execGroupState g accepting s := rfl
@[simp] theorem exec_carState (g : Group) (car landing motion door inService : Byte) (s : State) : exec (.carState g car landing motion door inService) s = execCarState g car landing motion door inService s := rfl
@[simp] theorem exec_assign (g : Group) (tag car : Byte) (s : State) : exec (.assign g tag car) s = execAssign g tag car s := rfl
@[simp] theorem exec_enabled (g : Group) (tag : Byte) (s : State) : exec (.enabled g tag) s = execEnabled g tag s := rfl
@[simp] theorem exec_refuse (g : Group) (tag : Byte) (s : State) : exec (.refuse g tag) s = execRefuse g tag s := rfl
@[simp] theorem exec_cancelled (g : Group) (tag : Byte) (s : State) : exec (.cancelled g tag) s = execCancelled g tag s := rfl
@[simp] theorem exec_unknownGroupFrame (g : Group) (type : Byte) (payload : List Byte) (s : State) : exec (.unknownGroupFrame g type payload) s = execUnknownGroupFrame g type payload s := rfl
@[simp] theorem exec_lossOfPower (s : State) : exec (.lossOfPower) s = execLossOfPower s := rfl
@[simp] theorem exec_inFrame (link : Link) (byte : Byte) (s : State) : exec (.inFrame link byte) s = execInFrame link s byte := rfl
@[simp] theorem exec_settingsSaveEntryComplete (s : State) : exec (.settingsSaveEntryComplete) s = execSettingsSaveEntryComplete s := rfl

end Sys2Proof.Machine
end

