-- ==== Sys2Proof/Laws/Events.lean ====
section
/-! SUPPORT. Notices, faults, records and saves: what each shared operation of Machine/Ops.lean and
Machine/Channels.lean can change, said once. A lemma named …_touches names every part of the state that
its operation may change. -/

namespace Sys2Proof.Machine

/-! ### The end of an event -/

/-- A state with no notice half raised is settled. -/
theorem settle_of_none_raised (s : State) (h : s.notices.raised = []) : s.settle = s := by
  have e : inClassOrder [] = [] := by simp [inClassOrder, NoticeClass.all]
  cases s with
  | mk power time cal banks zone readers queue engine transfer dir store batch groups recallIn key
      resetIn site notices faults timing free pending =>
    cases notices with
    | mk enables pend q raised =>
      simp only at h
      subst h
      simp [State.settle, State.mapNotices, e]

/-- Settling changes the Notice Unit alone. -/
theorem settle_touches (s : State) : ∃ n, s.settle = { s with notices := n } := ⟨_, rfl⟩

theorem whileRunning_of_running (f : State → State) (s : State) (h : s.power = .running) :
    whileRunning f s = .next (f s).settle := by
  simp [whileRunning, h]

theorem whileRunning_of_down (f : State → State) (s : State) (h : s.power ≠ .running) :
    whileRunning f s = .next s := by
  simp [whileRunning, h]

/-- A command that raises nothing while the card runs. -/
theorem whileRunning_quiet (f : State → State) (s : State) (h : Runs s)
    (quiet : (f s).notices = s.notices) : whileRunning f s = .next (f s) := by
  rw [whileRunning_of_running f s h.1, settle_of_none_raised]
  rw [quiet, h.2]

/-! ### Taking notices -/

/-- What a take keeps: what stands in the queue stays, in its place. -/
theorem take_queue_prefix (u : NoticeUnit) (n : Notice) : u.queue <+: (u.take n).queue := by
  unfold NoticeUnit.take
  split
  · exact List.prefix_append _ _
  · exact List.prefix_refl _

theorem take_raised (u : NoticeUnit) (n : Notice) : (u.take n).raised = u.raised := by
  unfold NoticeUnit.take; split <;> rfl

theorem take_enables (u : NoticeUnit) (n : Notice) : (u.take n).enables = u.enables := by
  unfold NoticeUnit.take; split <;> rfl

theorem take_queue_le (u : NoticeUnit) (n : Notice) (h : u.queue.length ≤ 64) :
    (u.take n).queue.length ≤ 64 := by
  unfold NoticeUnit.take
  split
  · rename_i c; simp; omega
  · exact h

theorem take_pending_mono (u : NoticeUnit) (n : Notice) (c : NoticeClass) (h : u.isPending c = true) :
    (u.take n).isPending c = true := by
  unfold NoticeUnit.take
  split
  · exact h
  · simp only [NoticeUnit.isPending, BitVec.getLsbD_or] at *
    simp [h]

theorem bit_isPending (p : BitVec 8) (c : NoticeClass) : (p ||| c.bit).getLsbD c.code = true := by
  cases c <;> simp [NoticeClass.bit, NoticeClass.code]

theorem foldl_take_queue_le (ns : List Notice) (u : NoticeUnit) (h : u.queue.length ≤ 64) :
    (ns.foldl NoticeUnit.take u).queue.length ≤ 64 := by
  induction ns generalizing u with
  | nil => exact h
  | cons n ns ih => exact ih _ (take_queue_le u n h)

theorem foldl_take_raised (ns : List Notice) (u : NoticeUnit) :
    (ns.foldl NoticeUnit.take u).raised = u.raised := by
  induction ns generalizing u with
  | nil => rfl
  | cons n ns ih => rw [List.foldl_cons, ih, take_raised]

theorem foldl_take_prefix (ns : List Notice) (u : NoticeUnit) :
    u.queue <+: (ns.foldl NoticeUnit.take u).queue := by
  induction ns generalizing u with
  | nil => exact List.prefix_refl _
  | cons n ns ih => exact (take_queue_prefix u n).trans (ih _)

theorem foldl_take_pending (ns : List Notice) (u : NoticeUnit) (c : NoticeClass)
    (h : u.isPending c = true) : (ns.foldl NoticeUnit.take u).isPending c = true := by
  induction ns generalizing u with
  | nil => exact h
  | cons n ns ih => exact ih _ (take_pending_mono u n c h)

theorem foldl_take_enables (ns : List Notice) (u : NoticeUnit) :
    (ns.foldl NoticeUnit.take u).enables = u.enables := by
  induction ns generalizing u with
  | nil => rfl
  | cons n ns ih => rw [List.foldl_cons, ih, take_enables]

/-- R171: every notice taken stands in the queue or is withheld, with its class's flag set. -/
theorem foldl_take_reports (ns : List Notice) (u : NoticeUnit) (n : Notice) (h : n ∈ ns) :
    .notice n ∈ (ns.foldl NoticeUnit.take u).queue
      ∨ ((ns.foldl NoticeUnit.take u).isPending n.body.cls = true
        ∧ (u.enabled n.body.cls = false ∨ 64 ≤ (ns.foldl NoticeUnit.take u).queue.length)) := by
  induction ns generalizing u with
  | nil => cases h
  | cons m ns ih =>
    rw [List.foldl_cons]
    cases h with
    | tail _ h =>
      have e : (u.take m).enabled n.body.cls = u.enabled n.body.cls :=
        congrArg (·.getLsbD n.body.cls.code) (take_enables u m)
      rw [← e]; exact ih _ h
    | head =>
      by_cases c : u.enabled n.body.cls = true ∧ u.queue.length < 64
      · left
        refine (foldl_take_prefix ns _).subset ?_
        simp [NoticeUnit.take, c]
      · right
        refine ⟨foldl_take_pending ns _ _ ?_, ?_⟩
        · simp only [NoticeUnit.take, c, if_false]
          exact bit_isPending _ _
        · have full := (foldl_take_prefix ns (u.take n)).length_le
          have grown := (take_queue_prefix u n).length_le
          cases e : u.enabled n.body.cls
          · exact Or.inl rfl
          · right
            have : ¬ u.queue.length < 64 := fun q => c ⟨e, q⟩
            omega

theorem mem_inClassOrder (ns : List Notice) (n : Notice) (h : n ∈ ns) : n ∈ inClassOrder ns := by
  simp only [inClassOrder, List.mem_flatMap, List.mem_filter]
  exact ⟨n.body.cls, by cases n.body.cls <;> simp [NoticeClass.all], h, by simp⟩

/-- R171: a notice raised in an event at the present uptime is reported at its end. -/
theorem settle_reports (s : State) (n : Notice) (h : n ∈ s.notices.raised) (at_ : n.uptime = s.cal.uptime) :
    Reported s.settle n.body := by
  have e : s.settle.notices.enabled n.body.cls = s.notices.enabled n.body.cls :=
    congrArg (·.getLsbD n.body.cls.code)
      (foldl_take_enables (inClassOrder s.notices.raised) { s.notices with raised := [] })
  rcases foldl_take_reports (inClassOrder s.notices.raised) { s.notices with raised := [] } n
    (mem_inClassOrder _ n h) with q | p
  · left
    have same : n = { uptime := s.settle.cal.uptime, body := n.body } := by cases n; simp_all [State.settle, State.mapNotices]
    rw [← same]; exact q
  · right
    rw [e]; exact p

theorem settle_raised (s : State) : s.settle.notices.raised = [] :=
  foldl_take_raised _ _

theorem settle_queue_le (s : State) (h : s.notices.queue.length ≤ 64) :
    s.settle.notices.queue.length ≤ 64 :=
  foldl_take_queue_le _ _ h

/-! ### Raising -/

theorem raiseNotice_touches (s : State) (b : NoticeBody) :
    s.raiseNotice b = { s with notices :=
      { s.notices with raised := s.notices.raised ++ [{ uptime := s.cal.uptime, body := b }] } } := rfl

theorem mem_raiseNotice (s : State) (b : NoticeBody) :
    { uptime := s.cal.uptime, body := b } ∈ (s.raiseNotice b).notices.raised := by
  simp [State.raiseNotice, State.mapNotices]

/-- Raising a fault changes the Fault Unit and the notices raised. -/
theorem raiseFault_touches (s : State) (k : FaultKind) (d : Nat) :
    ∃ f ns, s.raiseFault k d = { s with
      faults := f, notices := { s.notices with raised := s.notices.raised ++ ns } } := by
  unfold State.raiseFault
  by_cases m : s.faults.masked k = true
  · exact ⟨_, [], by simp [m, State.reworkLine, State.mapFaults]; rfl⟩
  · exact ⟨_, [_], by
      simp only [m, Bool.false_eq_true, if_false, State.reworkLine, State.mapFaults, State.raiseNotice,
        State.mapNotices]
      rfl⟩

/-- R173: the Fault Unit after a raising. -/
theorem raiseFault_faults (s : State) (k : FaultKind) (d : Nat) :
    (s.raiseFault k d).faults =
      { s.faults with
        status := s.faults.status ||| k.bit
        first := s.faults.first <|> some { kind := k, uptime := s.cal.uptime, date := s.date, detail := d }
        storeDetail := if k = .storeFault then d else s.faults.storeDetail
        line := s.site.phase == .open_
          && (s.faults.status ||| k.bit) &&& ~~~s.faults.masks &&& s.faults.majors != 0 } := by
  unfold State.raiseFault
  by_cases m : s.faults.masked k = true <;>
    simp [m, State.reworkLine, State.mapFaults, State.raiseNotice, State.mapNotices]

theorem bit_isSet (st : BitVec 12) (k : FaultKind) : (st ||| k.bit).getLsbD k.code = true := by
  cases k <;> simp [FaultKind.bit, FaultKind.code]

theorem raiseFault_isSet (s : State) (k : FaultKind) (d : Nat) :
    (s.raiseFault k d).faults.isSet k = true := by
  rw [raiseFault_faults]
  exact bit_isSet _ _

/-- R173: a status once set stays set through a raising. -/
theorem raiseFault_isSet_mono (s : State) (k j : FaultKind) (d : Nat) (h : s.faults.isSet j = true) :
    (s.raiseFault k d).faults.isSet j = true := by
  rw [raiseFault_faults]
  simp only [FaultUnit.isSet, BitVec.getLsbD_or] at *
  simp [h]

theorem raiseFault_first (s : State) (k : FaultKind) (d : Nat) (h : s.faults.first = none) :
    (s.raiseFault k d).faults.first
      = some { kind := k, uptime := s.cal.uptime, date := s.date, detail := d } := by
  rw [raiseFault_faults, h]; rfl

theorem raiseFault_line (s : State) (k : FaultKind) (d : Nat) : LineRight (s.raiseFault k d) := by
  obtain ⟨f, ns, e⟩ := raiseFault_touches s k d
  have := raiseFault_faults s k d
  unfold LineRight
  rw [this]
  rw [e]

/-- R173: an unmasked kind's FAULT notice is raised. -/
theorem mem_raiseFault (s : State) (k : FaultKind) (d : Nat) (m : s.faults.masked k = false) :
    { uptime := s.cal.uptime, body := .faultRaised k (s.faults.major k) d (s.faults.isSet k) s.date }
      ∈ (s.raiseFault k d).notices.raised := by
  simp [State.raiseFault, m, State.reworkLine, State.mapFaults, State.raiseNotice, State.mapNotices]

/-- R173: what the end of an event makes of a fault whose status is set in it and whose notice, unless masked,
stands among those raised. -/
theorem settle_raises (s t : State) (k : FaultKind) (d : Nat) (set : t.faults.isSet k = true)
    (notice : s.faults.masked k = false →
      { uptime := t.cal.uptime, body := .faultRaised k (s.faults.major k) d (s.faults.isSet k) t.date }
        ∈ t.notices.raised) :
    Raises s t.settle k d :=
  ⟨set, fun m => settle_reports t _ (notice m) rfl⟩

/-- R173: a fault raised by itself in an event. -/
theorem raiseFault_raises (s : State) (k : FaultKind) (d : Nat) : Raises s (s.raiseFault k d).settle k d := by
  refine settle_raises s _ k d (raiseFault_isSet s k d) fun m => ?_
  obtain ⟨f, ns, e⟩ := raiseFault_touches s k d
  have same : (s.raiseFault k d).cal = s.cal := by rw [e]
  have date : (s.raiseFault k d).date = s.date := by simp only [State.date, same]
  rw [same, date]
  exact mem_raiseFault s k d m

theorem reworkLine_touches (s : State) : ∃ f, s.reworkLine = { s with faults := f } := ⟨_, rfl⟩

/-! ### Records and frames of the lines -/

theorem sendRecord_touches (s : State) (c : Chan) (r : ReaderRecord) :
    ∃ q, s.sendRecord c r = s.mapReader c fun ch => { ch with tx := q } := by
  unfold State.sendRecord
  split
  · exact ⟨(s.reader c).tx, (mapReader_of_fixed s c _ rfl).symm⟩
  · exact ⟨(s.reader c).tx, (mapReader_of_fixed s c _ rfl).symm⟩
  · exact ⟨(s.reader c).tx ++ [r], mapReader_congr s c _ _ rfl⟩

/-- R109: a record is produced on the line of a channel that is neither OFFLINE nor UNUSED. -/
theorem sendRecord_of_on (s : State) (c : Chan) (r : ReaderRecord)
    (h : (s.reader c).state ≠ .offline ∧ (s.reader c).state ≠ .unused) :
    s.sendRecord c r = s.mapReader c fun ch => { ch with tx := ch.tx ++ [r] } := by
  unfold State.sendRecord
  split
  · rename_i e; exact absurd e h.1
  · rename_i e; exact absurd e h.2
  · rfl

theorem sendRecord_of_off (s : State) (c : Chan) (r : ReaderRecord)
    (h : (s.reader c).state = .offline ∨ (s.reader c).state = .unused) :
    s.sendRecord c r = s := by
  unfold State.sendRecord
  rcases h with h | h <;> simp [h]

theorem sendGroup_eq (s : State) (g : Group) (m : GroupMsg) :
    s.sendGroup g m = s.mapGroup g fun x => { x with tx := x.tx ++ [m] } := rfl

/-! ### The settings save -/

/-- R68: a change that queues a save. -/
theorem queueSave_eq (s : State) : s.queueSave = { s with store := saveQueued s.store } := by
  unfold State.queueSave saveQueued
  split <;> rename_i h <;> simp [h, State.mapStore]

/-! ### Answers -/

/-- Showing an answer changes its channel alone. -/
theorem showAnswer_touches (s : State) (c : Chan) (a : Answer) :
    s.showAnswer c a = s.mapReader c fun ch =>
      { ch with
        state := .showing, displayDeadline := some (s.cal.uptime + ch.cfg.hold)
        tx := ch.tx ++ [a.record, .tone a.code.tone] } := by
  unfold State.showAnswer State.sendAnswer State.sendTone
  rw [sendRecord_of_on _ c a.record (by simp)]
  rw [sendRecord_of_on _ c (.tone _) (by simp)]
  simp

theorem deliver_of_none (s : State) (c : Chan) (a : Answer) (h : (s.reader c).mark = .none) :
    s.deliver c a = s := by
  simp [State.deliver, h]

theorem deliver_of_owned (s : State) (c : Chan) (a : Answer) (h : (s.reader c).mark = .owned) :
    s.deliver c a = s.mapReader c fun ch =>
      { ch with
        mark := .none
        state := .showing, displayDeadline := some (s.cal.uptime + ch.cfg.hold)
        tx := ch.tx ++ [a.record, .tone a.code.tone] } := by
  simp [State.deliver, h, showAnswer_touches]

theorem deliver_of_discard (s : State) (c : Chan) (a : Answer) (h : (s.reader c).mark = .discard) :
    s.deliver c a = s.mapReader c fun ch =>
      { ch with mark := .none, state := if ch.state = .pending then .idle else ch.state } := by
  simp [State.deliver, h]

/-- R97: delivering an answer changes its channel alone. -/
theorem deliver_touches (s : State) (c : Chan) (a : Answer) :
    ∃ f, s.deliver c a = s.mapReader c f := by
  cases h : (s.reader c).mark with
  | none => exact ⟨fun ch => ch, by rw [deliver_of_none s c a h]; simp⟩
  | owned => exact ⟨_, deliver_of_owned s c a h⟩
  | discard => exact ⟨_, deliver_of_discard s c a h⟩

/-- The same, as an update of the channels. -/
theorem deliver_readers (s : State) (c : Chan) (a : Answer) :
    ∃ rs, s.deliver c a = { s with readers := rs } := by
  obtain ⟨f, e⟩ := deliver_touches s c a
  exact ⟨_, e⟩

theorem settleMark_touches (s : State) (c : Chan) :
    ∃ f q, s.settleMark c = { s with queue := q }.mapReader c f := by
  unfold State.settleMark
  split
  · split
    · exact ⟨_, _, rfl⟩
    · exact ⟨_, s.queue, rfl⟩
  · exact ⟨fun ch => ch, s.queue, by simp⟩

theorem goOffline_touches (s : State) (c : Chan) :
    ∃ rs q f ns, s.goOffline c = { s with
      readers := rs, queue := q, faults := f
      notices := { s.notices with raised := s.notices.raised ++ ns } } := by
  unfold State.goOffline State.raiseOffline
  obtain ⟨h, q, e⟩ := settleMark_touches
    (s.mapReader c fun ch => { ch with state := .offline, entry := none, displayDeadline := none, tx := [] }) c
  rw [e]
  obtain ⟨f, ns, e2⟩ := raiseFault_touches ({ (s.mapReader c fun ch =>
    { ch with state := .offline, entry := none, displayDeadline := none, tx := [] }) with queue := q }.mapReader c h)
    .readerOffline c.val
  rw [e2]
  exact ⟨_, q, f, _, by
    simp only [State.raiseNotice, State.mapNotices, State.mapReader, List.append_assoc]
    rfl⟩

theorem lineFrame_touches (s : State) (c : Chan) :
    ∃ f ns, s.lineFrame c = { s with
      notices := { s.notices with raised := s.notices.raised ++ ns } }.mapReader c f := by
  unfold State.lineFrame
  split
  · refine ⟨fun ch => { ch with
        silenceDeadline := some (s.cal.uptime + 3), rx := .hunting
        state := if ch.mark = .discard then .pending else .idle },
      [{ uptime := s.cal.uptime, body := .readerOnline c }], ?_⟩
    dsimp only; rw [mapReader_mapReader]
    rfl
  · exact ⟨_, [], by rw [List.append_nil]⟩

theorem lineFrame_of_on (s : State) (c : Chan) (h : (s.reader c).state ≠ .offline) :
    s.lineFrame c = heard s c fun ch => ch := by
  simp [State.lineFrame, h, heard]

theorem endDisplay_of_showing (s : State) (c : Chan) (h : (s.reader c).state = .showing) :
    s.endDisplay c = s.mapReader c fun ch =>
      { ch with state := .idle, displayDeadline := none, tx := ch.tx ++ [.blank] } := by
  unfold State.endDisplay
  rw [sendRecord_of_on _ c _ (by simp [h])]
  simp

theorem endDisplay_touches (s : State) (c : Chan) : ∃ f, s.endDisplay c = s.mapReader c f := by
  unfold State.endDisplay
  obtain ⟨q, e⟩ := sendRecord_touches s c .blank
  rw [e]
  exact ⟨_, by simp; rfl⟩

theorem checkDisplay_touches (s : State) (c : Chan) : ∃ f, s.checkDisplay c = s.mapReader c f := by
  have same : ∃ f, s = s.mapReader c f := ⟨fun ch => ch, by simp⟩
  unfold State.checkDisplay
  dsimp only
  split
  · exact same
  · split
    · exact same
    · split
      · exact endDisplay_touches s c
      · obtain ⟨q, e⟩ := sendRecord_touches s c .blank
        rw [e]
        exact ⟨_, by simp; rfl⟩
      · exact same

end Sys2Proof.Machine
end

