-- ==== Sys2Proof/Laws/Groups.lean ====
section
/-! SUPPORT. The Group Link Managers, the recall states, the Transfer Table and the Admission Engine: the
parts of the state that each shared operation may change, said once. -/

namespace Sys2Proof.Machine

/-- What the handling of orders may change: the managers, the channels, the notices raised. -/
def SameButGroups (s t : State) : Prop :=
  ∃ gs rs ns, t = { s with
    groups := gs, readers := rs, notices := { s.notices with raised := s.notices.raised ++ ns } }

theorem SameButGroups.refl (s : State) : SameButGroups s s :=
  ⟨s.groups, s.readers, [], by rw [List.append_nil]⟩

theorem SameButGroups.trans {s t u : State} (h : SameButGroups s t) (k : SameButGroups t u) :
    SameButGroups s u := by
  obtain ⟨gs, rs, ns, rfl⟩ := h
  obtain ⟨gs', rs', ns', rfl⟩ := k
  exact ⟨gs', rs', ns ++ ns', by simp only [List.append_assoc]⟩

theorem SameButGroups.foldl {α : Type} (f : State → α → State) (h : ∀ s a, SameButGroups s (f s a))
    (as : List α) (s : State) : SameButGroups s (as.foldl f s) := by
  induction as generalizing s with
  | nil => exact SameButGroups.refl s
  | cons a as ih => exact (h s a).trans (ih _)

theorem mapGroup_same (s : State) (g : Group) (f : GroupMgr → GroupMgr) : SameButGroups s (s.mapGroup g f) :=
  ⟨_, s.readers, [], by rw [List.append_nil]; rfl⟩

theorem mapReader_same (s : State) (c : Chan) (f : Channel → Channel) : SameButGroups s (s.mapReader c f) :=
  ⟨s.groups, _, [], by rw [List.append_nil]; rfl⟩

theorem raiseNotice_same (s : State) (b : NoticeBody) : SameButGroups s (s.raiseNotice b) :=
  ⟨s.groups, s.readers, [_], rfl⟩

theorem deliver_same (s : State) (c : Chan) (a : Answer) : SameButGroups s (s.deliver c a) := by
  obtain ⟨f, e⟩ := deliver_touches s c a
  rw [e]; exact mapReader_same s c f

theorem sendGroup_same (s : State) (g : Group) (m : GroupMsg) : SameButGroups s (s.sendGroup g m) :=
  mapGroup_same s g _

theorem placeOrder_same (s : State) (g : Group) (k : OrderKind) (c : Chan) (b r : Option Badge) :
    SameButGroups s (s.placeOrder g k c b r) :=
  (mapGroup_same s g _).trans (sendGroup_same _ g _)

theorem cancelOrder_same (s : State) (g : Group) (o : Order) (code : AnswerCode) :
    SameButGroups s (s.cancelOrder g o code) :=
  ((mapGroup_same s g _).trans (sendGroup_same _ g _)).trans (deliver_same _ _ _)

theorem withdraw_same (s : State) (g : Group) (car : Car) : SameButGroups s (s.withdraw g car) := by
  unfold State.withdraw
  split
  · exact SameButGroups.refl s
  · exact (sendGroup_same s g _).trans (mapGroup_same _ g _)

theorem endEnables_same (s : State) (g : Group) (car : Car) (code : AnswerCode) :
    SameButGroups s (s.endEnables g car code) :=
  ((withdraw_same s g car).trans (mapGroup_same _ g _)).trans
    (SameButGroups.foldl _ (fun s o => cancelOrder_same s g o code) _ _)

theorem leaveService_same (s : State) (g : Group) (after : Avail) :
    SameButGroups s (s.leaveService g after) := by
  unfold State.leaveService
  dsimp only
  refine SameButGroups.trans ?_ (mapGroup_same _ g _)
  refine SameButGroups.trans ?_ (SameButGroups.foldl _ (fun s car => sendGroup_same s g (.withdraw car)) _ _)
  refine SameButGroups.trans ?_ (SameButGroups.foldl _ (fun s (o : Order) => deliver_same s o.channel _) _ _)
  exact mapGroup_same s g _

theorem regroup_same (s : State) (g : Group) (cause : GroupCause) (always : Bool)
    (change : Option RecallChange) : SameButGroups s (s.regroup g cause always change) := by
  unfold State.regroup
  dsimp only
  split
  · exact SameButGroups.refl s
  · refine SameButGroups.trans ?_ (raiseNotice_same _ _)
    refine SameButGroups.trans ?_ (mapGroup_same _ g _)
    split
    · exact leaveService_same s g _
    · exact SameButGroups.refl s

/-- A recall state's change: its own input, and what `regroup` may change. -/
theorem setRecall_touches (s : State) (g : Group) (after : RecallState) :
    SameButGroups (s.mapRecall g fun r => { r with state := after }) (s.setRecall g after)
      ∨ s.setRecall g after = s := by
  unfold State.setRecall
  dsimp only
  split
  · exact Or.inr rfl
  · exact Or.inl (regroup_same _ _ _ _ _)

theorem linkGoesSilent_touches (s : State) (g : Group) :
    ∃ gs rs f ns, s.linkGoesSilent g = { s with
      groups := gs, readers := rs, faults := f
      notices := { s.notices with raised := s.notices.raised ++ ns } } := by
  unfold State.linkGoesSilent
  dsimp only
  obtain ⟨gs, rs, ns, e⟩ := (mapGroup_same s g fun m =>
    { m with link := .silent, cars := Vector.replicate 8 CarRow.unknown }).trans
      (regroup_same _ g .linkSilent true none)
  rw [e]
  split
  · obtain ⟨f, ms, e2⟩ := raiseFault_touches { s with
      groups := gs, readers := rs, notices := { s.notices with raised := s.notices.raised ++ ns } }
      .groupOffline g.val
    rw [e2]
    exact ⟨gs, rs, f, ns ++ ms, by simp only [List.append_assoc]⟩
  · exact ⟨gs, rs, s.faults, ns, rfl⟩

/-! ### The Admission Engine -/

/-- The Transfer Table beside them: what a decision may change, the engine apart. -/
theorem takeDecision_touches (s : State) (r : Request) (res : Option LookupResult) :
    ∃ gs rs ns tt, s.takeDecision r res = { s with
      groups := gs, readers := rs, transfer := tt, engine := .idle
      notices := { s.notices with raised := s.notices.raised ++ ns } } := by
  have expired : ∃ tt, s.meetExpired r = { s with transfer := tt } := by
    unfold State.meetExpired State.dropExpired
    split
    · split
      · split
        · exact ⟨_, rfl⟩
        · exact ⟨_, rfl⟩
      · exact ⟨_, rfl⟩
    · exact ⟨_, rfl⟩
  have secured : ∀ (u : State) j, SameButGroups u (u.raiseSecurity r j) := fun u j => by
    unfold State.raiseSecurity
    split
    · exact raiseNotice_same _ _
    · exact SameButGroups.refl u
  have dropped : ∀ (u : State) j, ∃ tt, u.dropEntry r j = { u with transfer := tt } := fun u j => by
    unfold State.dropEntry
    split
    · exact ⟨_, rfl⟩
    · exact ⟨_, rfl⟩
  have carried : ∀ (u : State) x, SameButGroups u (u.carryOut r x) := fun u x => by
    unfold State.carryOut
    split
    · exact deliver_same _ _ _
    · exact placeOrder_same _ _ _ _ _ _
  unfold State.takeDecision
  dsimp only
  obtain ⟨tt, e1⟩ := expired
  rw [e1]
  generalize { s with transfer := tt }.judge r res = j
  obtain ⟨gs1, rs1, ns1, e2⟩ := (secured { s with transfer := tt } j).trans
    (raiseNotice_same _ (.decision ({ s with transfer := tt }.decisionNotice r j)))
  rw [e2]
  obtain ⟨tt2, e3⟩ := dropped _ j
  rw [e3]
  obtain ⟨gs2, rs2, ns2, e4⟩ := carried _ j.ruling
  rw [e4]
  exact ⟨gs2, rs2, ns1 ++ ns2, tt2, by simp only [List.append_assoc]⟩

/-- R60, R61: a request joins the priority queue, and a running erase may be suspended for it. -/
theorem placePrio_touches (s : State) (e : PrioEntry) :
    ∃ op capped, s.placePrio e = { s with store :=
      { s.store with prio := s.store.prio ++ [e], op := op, capped := capped } } := by
  unfold State.placePrio State.mapStore
  dsimp only
  split
  · split
    · exact ⟨_, _, rfl⟩
    · exact ⟨s.store.op, s.store.capped, rfl⟩
  · exact ⟨s.store.op, s.store.capped, rfl⟩

/-- What the engine may change as it takes requests. -/
def SameButEngine (s t : State) : Prop :=
  ∃ gs rs ns tt q en op capped more, t = { s with
    groups := gs, readers := rs, transfer := tt, queue := q, engine := en
    notices := { s.notices with raised := s.notices.raised ++ ns }
    store := { s.store with prio := s.store.prio ++ more, op := op, capped := capped } }

theorem SameButEngine.refl (s : State) : SameButEngine s s :=
  ⟨s.groups, s.readers, [], s.transfer, s.queue, s.engine, s.store.op, s.store.capped, [], by
    rw [List.append_nil, List.append_nil]⟩

theorem SameButEngine.trans {s t u : State} (h : SameButEngine s t) (k : SameButEngine t u) :
    SameButEngine s u := by
  obtain ⟨gs, rs, ns, tt, q, en, op, cp, more, rfl⟩ := h
  obtain ⟨gs', rs', ns', tt', q', en', op', cp', more', rfl⟩ := k
  exact ⟨gs', rs', ns ++ ns', tt', q', en', op', cp', more ++ more', by
    simp only [List.append_assoc]⟩

theorem SameButGroups.toEngine {s t : State} (h : SameButGroups s t) : SameButEngine s t := by
  obtain ⟨gs, rs, ns, rfl⟩ := h
  exact ⟨gs, rs, ns, s.transfer, s.queue, s.engine, s.store.op, s.store.capped, [], by
    simp only [List.append_nil]⟩

theorem takeDecision_sameEngine (s : State) (r : Request) (res : Option LookupResult) :
    SameButEngine s (s.takeDecision r res) := by
  obtain ⟨gs, rs, ns, tt, e⟩ := takeDecision_touches s r res
  exact ⟨gs, rs, ns, tt, s.queue, .idle, s.store.op, s.store.capped, [], by
    rw [e]; simp only [List.append_nil]⟩

theorem placePrio_sameEngine (s : State) (e : PrioEntry) : SameButEngine s (s.placePrio e) := by
  obtain ⟨op, cp, h⟩ := placePrio_touches s e
  exact ⟨s.groups, s.readers, [], s.transfer, s.queue, s.engine, op, cp, [e], by
    rw [h]; simp only [List.append_nil]⟩

theorem withQueue_sameEngine (s : State) (q : List Request) : SameButEngine s { s with queue := q } :=
  ⟨s.groups, s.readers, [], s.transfer, q, s.engine, s.store.op, s.store.capped, [], by
    simp only [List.append_nil]⟩

theorem withEngine_sameEngine (s : State) (en : Engine) : SameButEngine s { s with engine := en } :=
  ⟨s.groups, s.readers, [], s.transfer, s.queue, en, s.store.op, s.store.capped, [], by
    simp only [List.append_nil]⟩

theorem engineTake_sameEngine (n : Nat) (s : State) : SameButEngine s (s.engineTake n) := by
  induction n generalizing s with
  | zero => exact SameButEngine.refl s
  | succ n ih =>
    unfold State.engineTake
    split
    · exact SameButEngine.refl s
    · split
      · exact SameButEngine.refl s
      · dsimp only
        split
        · exact SameButEngine.trans
            (SameButEngine.trans (withQueue_sameEngine s _) (takeDecision_sameEngine _ _ _)) (ih _)
        · split
          · exact SameButEngine.trans
              (SameButEngine.trans (withQueue_sameEngine s _) (takeDecision_sameEngine _ _ _)) (ih _)
          · refine SameButEngine.trans ?_ (placePrio_sameEngine _ _)
            exact ⟨s.groups, s.readers, [], s.transfer, _, _, s.store.op, s.store.capped, [], by
              simp only [List.append_nil]; rfl⟩

theorem engineNext_sameEngine (s : State) : SameButEngine s s.engineNext := engineTake_sameEngine _ s

/-- An engine at work takes nothing. -/
theorem engineNext_of_busy (s : State) (h : s.engine ≠ .idle) : s.engineNext = s := by
  unfold State.engineNext State.engineTake
  cases e : s.engine with
  | idle => exact absurd e h
  | evaluating r res => rfl

/-- An empty queue gives nothing. -/
theorem engineNext_of_empty (s : State) (h : s.queue = []) : s.engineNext = s := by
  unfold State.engineNext State.engineTake
  cases e : s.engine with
  | idle => simp [pick, h]
  | evaluating r res => rfl

theorem engineResult_sameEngine (s : State) (res : LookupResult) : SameButEngine s (s.engineResult res) := by
  unfold State.engineResult
  split
  · exact (takeDecision_sameEngine _ _ _).trans (engineNext_sameEngine _)
  · exact SameButEngine.refl s

theorem mapReader_sameEngine (s : State) (c : Chan) (f : Channel → Channel) :
    SameButEngine s (s.mapReader c f) := (mapReader_same s c f).toEngine

theorem showAnswer_sameEngine (s : State) (c : Chan) (a : Answer) : SameButEngine s (s.showAnswer c a) := by
  rw [showAnswer_touches]; exact mapReader_sameEngine _ _ _

theorem sendRecord_sameEngine (s : State) (c : Chan) (r : ReaderRecord) :
    SameButEngine s (s.sendRecord c r) := by
  obtain ⟨q, e⟩ := sendRecord_touches s c r
  rw [e]; exact mapReader_sameEngine _ _ _

theorem offer_sameEngine (s : State) (c : Chan) (b : Option Badge) (ask : Ask) :
    SameButEngine s (s.offer c b ask) := by
  unfold State.offer
  split
  · exact ((withQueue_sameEngine s _).trans (mapReader_sameEngine _ _ _)).trans (engineNext_sameEngine _)
  · exact (mapReader_sameEngine _ _ _).trans (showAnswer_sameEngine _ _ _)

theorem lineFrame_sameEngine (s : State) (c : Chan) : SameButEngine s (s.lineFrame c) := by
  obtain ⟨f, ns, e⟩ := lineFrame_touches s c
  rw [e]
  refine SameButEngine.trans (t := { s with
    notices := { s.notices with raised := s.notices.raised ++ ns } }) ?_ (mapReader_sameEngine _ _ _)
  exact SameButGroups.toEngine ⟨s.groups, s.readers, ns, rfl⟩

theorem endDisplay_sameEngine (s : State) (c : Chan) : SameButEngine s (s.endDisplay c) := by
  obtain ⟨f, e⟩ := endDisplay_touches s c
  rw [e]; exact mapReader_sameEngine _ _ _

theorem endEntry_sameEngine (s : State) (c : Chan) (e : Entry) : SameButEngine s (s.endEntry c e) := by
  unfold State.endEntry
  dsimp only
  split
  · exact SameButEngine.refl s
  · split
    · exact offer_sameEngine _ _ _ _
    · split
      · exact offer_sameEngine _ _ _ _
      · exact (mapReader_sameEngine _ _ _).trans (showAnswer_sameEngine _ _ _)

theorem setEntry_tone_sameEngine (s : State) (c : Chan) (e : Entry) (t : Tone) :
    SameButEngine s ((s.setEntry c e).sendTone c t) :=
  (mapReader_sameEngine _ _ _).trans (sendRecord_sameEngine _ _ _)

theorem idleBadge_sameEngine (s : State) (c : Chan) (b : Badge) : SameButEngine s (s.idleBadge c b) := by
  unfold State.idleBadge
  split
  · exact setEntry_tone_sameEngine _ _ _ _
  · exact (sendRecord_sameEngine _ _ _).trans (offer_sameEngine _ _ _ _)
  · exact SameButEngine.refl s

theorem showStarting_sameEngine (s : State) (c : Chan) : SameButEngine s (s.showStarting c) :=
  ((mapReader_sameEngine _ _ _).trans (sendRecord_sameEngine _ _ _)).trans (sendRecord_sameEngine _ _ _)

/-- A badge changes what the engine may change. -/
theorem takeBadge_sameEngine (s : State) (c : Chan) (b : Badge) : SameButEngine s (s.takeBadge c b) := by
  unfold State.takeBadge
  dsimp only
  split
  · exact SameButEngine.refl s
  · exact SameButEngine.refl s
  · exact showStarting_sameEngine _ _
  · exact sendRecord_sameEngine _ _ _
  · split
    · exact sendRecord_sameEngine _ _ _
    · exact idleBadge_sameEngine _ _ _
  · split
    · exact sendRecord_sameEngine _ _ _
    · exact (endDisplay_sameEngine _ _).trans (idleBadge_sameEngine _ _ _)
  · split
    · split
      · exact sendRecord_sameEngine _ _ _
      · unfold State.entryBadge
        split <;> exact setEntry_tone_sameEngine _ _ _ _
    · exact SameButEngine.refl s

theorem lobbyKey_sameEngine (s : State) (c : Chan) (k : KeyKind) : SameButEngine s (s.lobbyKey c k) := by
  unfold State.lobbyKey
  dsimp only
  split
  · exact setEntry_tone_sameEngine _ _ _ _
  · exact sendRecord_sameEngine _ _ _
  · exact (endDisplay_sameEngine _ _).trans (setEntry_tone_sameEngine _ _ _ _)
  · exact sendRecord_sameEngine _ _ _
  · exact (endDisplay_sameEngine _ _).trans (sendRecord_sameEngine _ _ _)
  · split
    · exact SameButEngine.refl s
    · split
      · unfold State.entryChar
        split
        · exact setEntry_tone_sameEngine _ _ _ _
        · exact sendRecord_sameEngine _ _ _
      · exact (sendRecord_sameEngine _ _ _).trans (endEntry_sameEngine _ _ _)
      · exact (mapReader_sameEngine _ _ _).trans (sendRecord_sameEngine _ _ _)
      · exact sendRecord_sameEngine _ _ _
  · exact SameButEngine.refl s

/-- A key changes what the engine may change. -/
theorem takeKey_sameEngine (s : State) (c : Chan) (k : Byte) : SameButEngine s (s.takeKey c k) := by
  unfold State.takeKey
  dsimp only
  split
  · exact SameButEngine.refl s
  · exact SameButEngine.refl s
  · exact showStarting_sameEngine _ _
  · exact sendRecord_sameEngine _ _ _
  · split
    · exact lobbyKey_sameEngine _ _ _
    · exact sendRecord_sameEngine _ _ _

/-! ### Frames of the group controllers -/

/-- What a reply or a report of a group controller may change. -/
theorem takeReply_touches (s : State) (g : Group) (tag car : Byte) (t : State)
    (h : t ∈ [s.takeAssign g tag car, s.takeEnabled g tag, s.takeRefusal g tag]) :
    ∃ gs rs tt f ns op capped more, t = { s with
      groups := gs, readers := rs, transfer := tt, faults := f
      notices := { s.notices with raised := s.notices.raised ++ ns }
      store := { s.store with prio := s.store.prio ++ more, op := op, capped := capped } } := by
  have unmatched : ∃ f ns, s.unmatched g tag = { s with
      faults := f, notices := { s.notices with raised := s.notices.raised ++ ns } } := by
    unfold State.unmatched
    split
    · exact raiseFault_touches _ _ _
    · exact ⟨s.faults, [], by rw [List.append_nil]⟩
  have asked : ∀ (u : State) b, SameButEngine u (u.requestMark b) := fun u b => by
    unfold State.requestMark
    split
    · exact placePrio_sameEngine _ _
    · exact SameButEngine.refl u
  have journeyed : ∀ (u : State) b p ls d, SameButEngine u (u.journey b p ls d) := fun u b p ls d => by
    unfold State.journey
    split
    · exact SameButEngine.refl u
    · split
      · exact ⟨u.groups, u.readers, [], _, u.queue, u.engine, u.store.op, u.store.capped, [], by
          simp only [List.append_nil]; rfl⟩
      · split
        · exact ⟨u.groups, u.readers, [], _, u.queue, u.engine, u.store.op, u.store.capped, [], by
            simp only [List.append_nil]; rfl⟩
        · exact SameButEngine.refl u
  have quiet : ∃ gs rs tt f ns op capped more, s = { s with
      groups := gs, readers := rs, transfer := tt, faults := f
      notices := { s.notices with raised := s.notices.raised ++ ns }
      store := { s.store with prio := s.store.prio ++ more, op := op, capped := capped } } :=
    ⟨s.groups, s.readers, s.transfer, s.faults, [], s.store.op, s.store.capped, [], by
      simp only [List.append_nil]⟩
  have faulty : ∃ gs rs tt f ns op capped more, s.unmatched g tag = { s with
      groups := gs, readers := rs, transfer := tt, faults := f
      notices := { s.notices with raised := s.notices.raised ++ ns }
      store := { s.store with prio := s.store.prio ++ more, op := op, capped := capped } } := by
    obtain ⟨f, ns, e⟩ := unmatched
    exact ⟨s.groups, s.readers, s.transfer, f, ns, s.store.op, s.store.capped, [], by
      rw [e]; simp only [List.append_nil]⟩
  have settled : ∀ u, SameButEngine s u → u.queue = s.queue → u.engine = s.engine →
      ∃ gs rs tt f ns op capped more, u = { s with
        groups := gs, readers := rs, transfer := tt, faults := f
        notices := { s.notices with raised := s.notices.raised ++ ns }
        store := { s.store with prio := s.store.prio ++ more, op := op, capped := capped } } := by
    rintro u ⟨gs, rs, ns, tt, q, en, op, cp, more, rfl⟩ (hq : q = s.queue) (he : en = s.engine)
    subst hq he
    exact ⟨gs, rs, tt, s.faults, ns, op, cp, more, rfl⟩
  have markQ : ∀ (u : State) b, (u.requestMark b).queue = u.queue ∧ (u.requestMark b).engine = u.engine :=
    fun u b => by
      unfold State.requestMark
      split
      · obtain ⟨op, cp, e⟩ := placePrio_touches u (.mark _)
        rw [e]; exact ⟨rfl, rfl⟩
      · exact ⟨rfl, rfl⟩
  have deliverQ : ∀ (u : State) c a, (u.deliver c a).queue = u.queue ∧ (u.deliver c a).engine = u.engine :=
    fun u c a => by
      obtain ⟨f, e⟩ := deliver_touches u c a
      rw [e]; exact ⟨rfl, rfl⟩
  have journeyQ : ∀ (u : State) b p ls d,
      (u.journey b p ls d).queue = u.queue ∧ (u.journey b p ls d).engine = u.engine := fun u b p ls d => by
    unfold State.journey
    split
    · exact ⟨rfl, rfl⟩
    · split
      · exact ⟨rfl, rfl⟩
      · split <;> exact ⟨rfl, rfl⟩
  simp only [List.mem_cons, List.not_mem_nil, or_false] at h
  rcases h with h | h | h
  · subst h
    unfold State.takeAssign
    split
    · exact faulty
    · split
      · exact faulty
      · split
        · split
          · exact quiet
          · refine settled _ ?_ ?_ ?_
            · exact (((mapGroup_same s g _).toEngine.trans (asked _ _)).trans
                (deliver_same _ _ _).toEngine).trans (journeyed _ _ _ _ _)
            · rw [(journeyQ _ _ _ _ _).1, (deliverQ _ _ _).1, (markQ _ _).1]; rfl
            · rw [(journeyQ _ _ _ _ _).2, (deliverQ _ _ _).2, (markQ _ _).2]; rfl
        · exact faulty
  · subst h
    unfold State.takeEnabled
    split
    · exact faulty
    · split
      · exact faulty
      · split
        · exact quiet
        · refine settled _ ?_ ?_ ?_
          · exact (((mapGroup_same s g _).trans (mapGroup_same _ g _)).toEngine.trans (asked _ _)).trans
              (deliver_same _ _ _).toEngine
          · rw [(deliverQ _ _ _).1, (markQ _ _).1]; rfl
          · rw [(deliverQ _ _ _).2, (markQ _ _).2]; rfl
  · subst h
    unfold State.takeRefusal
    split
    · exact faulty
    · split
      · exact settled _ (mapGroup_same s g _).toEngine rfl rfl
      · refine settled _ ((mapGroup_same s g _).trans (deliver_same _ _ _)).toEngine ?_ ?_
        · rw [(deliverQ _ _ _).1]; rfl
        · rw [(deliverQ _ _ _).2]; rfl

/-! ### The arbiter of the queue -/

/-- R112: the request the arbiter picks is the first in the taking order. -/
theorem pick_eq_head (q : List Request) : pick q = (takingOrder q).head? := by
  unfold pick takingOrder
  rw [List.head?_append, List.head?_filter, List.head?_filter]
  cases e : q.find? Request.isCar with
  | some r => simp
  | none =>
    have none_ := List.find?_eq_none.mp e
    cases q with
    | nil => rfl
    | cons r rest =>
      have h : r.isCar = false := by simpa using none_ r List.mem_cons_self
      simp [h]

/-! ### Tags -/

/-- The tag a new order is given is held by no order of a list of fewer than 256. -/
theorem nextTag_free (m : GroupMgr) (h : m.orders.length < 256) (o : Order) (ho : o ∈ m.orders) :
    o.tag ≠ m.nextTag := by
  have held : ∃ k ∈ (List.range 256).map (fun k => m.tagCounter + 1 + BitVec.ofNat 8 k),
      (m.orders.any fun o => o.tag == k) = false := by
    by_contra none
    push Not at none
    have sub : ((List.range 256).map fun k => m.tagCounter + 1 + BitVec.ofNat 8 k)
        ⊆ m.orders.map Order.tag := by
      intro k hk
      have := none k hk
      simp only [ne_eq, Bool.not_eq_false, List.any_eq_true, beq_iff_eq] at this
      obtain ⟨x, hx, e⟩ := this
      exact List.mem_map.mpr ⟨x, hx, e⟩
    have nodup : ((List.range 256).map fun k => m.tagCounter + 1 + BitVec.ofNat 8 k).Nodup := by
      refine List.Nodup.map_on ?_ List.nodup_range
      intro a ha b hb e
      have e2 : BitVec.ofNat 8 a = BitVec.ofNat 8 b := by
        have := congrArg (fun x => x - (m.tagCounter + 1)) e
        simpa [BitVec.add_comm, BitVec.add_sub_cancel] using this
      have e3 := congrArg BitVec.toNat e2
      simp only [BitVec.toNat_ofNat, List.mem_range] at e3 ha hb
      omega
    have := (nodup.subperm sub).length_le
    simp at this
    omega
  obtain ⟨k, hk, free⟩ := held
  have found : ∃ t, ((List.range 256).map fun k => m.tagCounter + 1 + BitVec.ofNat 8 k).find?
      (fun t => !(m.orders.any fun o => o.tag == t)) = some t := by
    cases e : ((List.range 256).map fun k => m.tagCounter + 1 + BitVec.ofNat 8 k).find?
        (fun t => !(m.orders.any fun o => o.tag == t)) with
    | some t => exact ⟨t, rfl⟩
    | none =>
      have := List.find?_eq_none.mp e k hk
      simp [free] at this
  obtain ⟨t, ht⟩ := found
  have : m.nextTag = t := by
    unfold GroupMgr.nextTag
    rw [ht]; rfl
  rw [this]
  have := List.find?_some ht
  simp only [Bool.not_eq_true', List.any_eq_false, beq_iff_eq] at this
  exact this o ho

end Sys2Proof.Machine
end

