-- ==== Sys2Proof/Laws/Port.lean ====
section
/-! SUPPORT. The Site Link Port: what taking a request and answering it do, said once for every request
of the table. -/

namespace Sys2Proof.Machine

/-- The state in which a request has been taken and its general checks passed. -/
abbrev taken (s : State) : State := { s with site := portTaken s.site }

theorem reply_eq (s : State) (f : SiteFrame) (x : Result) (d : List Byte) :
    s.reply f x d = { s with site := portReplied s.site (replyFrame f x d false) } := by
  unfold State.reply State.handOver portReplied State.mapSite
  dsimp only
  split <;> rename_i h <;> simp [h]

theorem handOver_eq (s : State) (t : SiteTx) :
    s.handOver t = { s with site := portReplied s.site t } := by
  unfold State.handOver portReplied State.mapSite
  dsimp only
  split <;> rename_i h <;> simp [h]

theorem takeFrame_of_ready (s : State) (f : SiteFrame) (h : PortReady s f) :
    ∃ s1, s.takeFrame f = some s1 ∧ s1.mapSite (fun p => { p with restartArm := false }) = taken s := by
  obtain ⟨-, can, q⟩ := h
  unfold State.takeFrame taken portTaken
  rw [if_pos can]
  split
  · rename_i e; exact ⟨_, rfl, by simp [State.mapSite, e]⟩
  · rename_i a rest e
    rw [e] at q
    have : a = f := by simpa using q
    exact ⟨_, by rw [if_pos this], by simp [State.mapSite, e]⟩

/-- R163: a request taken at once: the general checks, and then its owner. -/
theorem siteRequest_ready (type : Byte) (r : Req) (early fits : Bool) (owner : SiteFrame → State → State)
    (s : State) (h : PortReady s { type := type, req := r }) :
    siteRequest type r early fits owner s = .next
      (if s.site.phase ≠ .open_ ∧ !early then answered s { type := type, req := r } .starting []
       else if !fits then answered s { type := type, req := r } .length []
       else (owner { type := type, req := r } (taken s)).settle) := by
  obtain ⟨s1, e1, e2⟩ := takeFrame_of_ready s _ h
  unfold siteRequest
  rw [whileRunning_of_running _ _ h.1.1]
  simp only [e1, e2]
  have quiet : ∀ x : Result, (taken s).refuse { type := type, req := r } x
      = answered s { type := type, req := r } x [] := fun x => by
    simp only [State.refuse, reply_eq]; rfl
  have still : ∀ x : Result, (answered s { type := type, req := r } x []).settle
      = answered s { type := type, req := r } x [] := fun x =>
    settle_of_none_raised _ h.1.2
  split
  · rw [quiet, still]
  · split
    · rw [quiet, still]
    · rfl

/-- With admission open and a fitting payload, the owner carries the request out. -/
theorem siteRequest_owner (type : Byte) (r : Req) (early : Bool) (owner : SiteFrame → State → State)
    (s : State) (h : PortOpen s { type := type, req := r }) :
    siteRequest type r early true owner s
      = .next (owner { type := type, req := r } (taken s)).settle := by
  rw [siteRequest_ready _ _ _ _ _ _ h.1]
  simp [h.2]

/-- R163: the same, for a request taken in every phase. -/
theorem siteRequest_early (type : Byte) (r : Req) (owner : SiteFrame → State → State)
    (s : State) (h : PortReady s { type := type, req := r }) :
    siteRequest type r true true owner s
      = .next (owner { type := type, req := r } (taken s)).settle := by
  rw [siteRequest_ready _ _ _ _ _ _ h]
  simp

theorem siteRequest_starting (type : Byte) (r : Req) (fits : Bool) (owner : SiteFrame → State → State)
    (s : State) (h : PortReady s { type := type, req := r }) (p : s.site.phase ≠ .open_) :
    siteRequest type r false fits owner s
      = .next (answered s { type := type, req := r } .starting []) := by
  rw [siteRequest_ready _ _ _ _ _ _ h]
  simp [p]

theorem siteRequest_length (type : Byte) (r : Req) (early : Bool) (owner : SiteFrame → State → State)
    (s : State) (h : PortOpen s { type := type, req := r }) :
    siteRequest type r early false owner s
      = .next (answered s { type := type, req := r } .length []) := by
  rw [siteRequest_ready _ _ _ _ _ _ h.1]
  simp [h.2]

/-- An owner that only answers: nothing else has changed. -/
theorem settle_taken_reply (s : State) (f : SiteFrame) (x : Result) (d : List Byte) (h : Runs s) :
    ((taken s).reply f x d).settle = answered s f x d := by
  rw [reply_eq]
  exact settle_of_none_raised (answered s f x d) h.2

theorem settle_taken_refuse (s : State) (f : SiteFrame) (x : Result) (h : Runs s) :
    ((taken s).refuse f x).settle = answered s f x [] :=
  settle_taken_reply s f x [] h

theorem settle_taken_replyOk (s : State) (f : SiteFrame) (d : List Byte) (h : Runs s) :
    ((taken s).replyOk f d).settle = answered s f .ok d :=
  settle_taken_reply s f .ok d h

@[simp] theorem taken_keyOn (s : State) : (taken s).keyOn = s.keyOn := (rfl)
@[simp] theorem taken_reader (s : State) (c : Chan) : (taken s).reader c = s.reader c := (rfl)
@[simp] theorem taken_group (s : State) (g : Group) : (taken s).group g = s.group g := (rfl)
@[simp] theorem taken_recallOf (s : State) (g : Group) : (taken s).recallOf g = s.recallOf g := (rfl)

/-! ### The queue and the transmitter -/

theorem receiveFrame_queue_le (s : State) (f : SiteFrame) (h : s.site.queue.length ≤ 4) :
    (s.receiveFrame f).site.queue.length ≤ 4 := by
  unfold State.receiveFrame
  dsimp only
  split
  · simp only [mapSite_site, List.length_append, List.length_cons, List.length_nil]; omega
  · obtain ⟨u, ns, e⟩ := raiseFault_touches (s.mapSite fun p => { p with rx := .hunting })
      .siteOverrun f.type.toNat
    rw [e]; exact h

/-- R161, R172: the transmitter changes the port and the Notice Queue alone. -/
theorem transmitNext_touches (s : State) :
    ∃ p n, s.transmitNext = { s with site := p, notices := n } := by
  unfold State.transmitNext
  split
  · exact ⟨_, _, rfl⟩
  · split
    · exact ⟨_, _, rfl⟩
    · split
      · exact ⟨_, _, rfl⟩
      · exact ⟨_, _, rfl⟩

end Sys2Proof.Machine
end

