-- ==== Sys2Proof/Laws/Store.lean ====
section
/-! SUPPORT. The Directory Store: the parts of the state that its operations may change, and the settings
save, said once. -/

namespace Sys2Proof.Machine

/-- What the events of the store may change: the store, the directory, the batch, the faults and the
notices raised. -/
def SameButStore (s t : State) : Prop :=
  ∃ st d b f ns, t = { s with
    store := st, dir := d, batch := b, faults := f
    notices := { s.notices with raised := s.notices.raised ++ ns } }

theorem SameButStore.refl (s : State) : SameButStore s s :=
  ⟨s.store, s.dir, s.batch, s.faults, [], by rw [List.append_nil]⟩

theorem SameButStore.trans {s t u : State} (h : SameButStore s t) (k : SameButStore t u) :
    SameButStore s u := by
  obtain ⟨st, d, b, f, ns, rfl⟩ := h
  obtain ⟨st', d', b', f', ns', rfl⟩ := k
  exact ⟨st', d', b', f', ns ++ ns', by simp only [List.append_assoc]⟩

theorem mapStore_sameStore (s : State) (f : Store → Store) : SameButStore s (s.mapStore f) :=
  ⟨_, s.dir, s.batch, s.faults, [], by rw [List.append_nil]; rfl⟩

theorem mapDir_sameStore (s : State) (f : Directory → Directory) : SameButStore s (s.mapDir f) :=
  ⟨s.store, _, s.batch, s.faults, [], by rw [List.append_nil]; rfl⟩

theorem mapBatch_sameStore (s : State) (f : Batch → Batch) : SameButStore s (s.mapBatch f) :=
  ⟨s.store, s.dir, _, s.faults, [], by rw [List.append_nil]; rfl⟩

theorem raiseNotice_sameStore (s : State) (b : NoticeBody) : SameButStore s (s.raiseNotice b) :=
  ⟨s.store, s.dir, s.batch, s.faults, [_], rfl⟩

theorem raiseFault_sameStore (s : State) (k : FaultKind) (d : Nat) : SameButStore s (s.raiseFault k d) := by
  obtain ⟨f, ns, e⟩ := raiseFault_touches s k d
  exact ⟨s.store, s.dir, s.batch, f, ns, e⟩

theorem placePrio_sameStore (s : State) (e : PrioEntry) : SameButStore s (s.placePrio e) := by
  obtain ⟨op, cp, h⟩ := placePrio_touches s e
  exact ⟨_, s.dir, s.batch, s.faults, [], by rw [h, List.append_nil]⟩

/-! ### Reads -/

/-- A page read for a block: the state is unchanged when the page passes its check. -/
theorem readFor_of_some (s : State) (e : IndexEntry) (rs : List Record) (h : s.store.readPage e = some rs) :
    s.readFor e = (s, some rs) := by
  simp [State.readFor, h]

theorem readFor_of_none (s : State) (e : IndexEntry) (h : s.store.readPage e = none) :
    s.readFor e = (s.raiseFault .storeFault e.page.val, none) := by
  simp [State.readFor, h]

theorem readFor_touches (s : State) (e : IndexEntry) :
    ∃ f ns, (s.readFor e).1 = { s with
      faults := f, notices := { s.notices with raised := s.notices.raised ++ ns } } := by
  cases h : s.store.readPage e with
  | none => rw [readFor_of_none s e h]; exact raiseFault_touches _ _ _
  | some rs => rw [readFor_of_some s e rs h]; exact ⟨s.faults, [], by rw [List.append_nil]⟩

theorem readFor_sameStore (s : State) (e : IndexEntry) : SameButStore s (s.readFor e).1 := by
  obtain ⟨f, ns, h⟩ := readFor_touches s e
  exact ⟨s.store, s.dir, s.batch, f, ns, h⟩

/-- A lookup raises at most STORE_FAULT and changes nothing else. -/
theorem lookup_touches (s : State) (b : Badge) :
    ∃ f ns, (s.lookup b).1 = { s with
      faults := f, notices := { s.notices with raised := s.notices.raised ++ ns } } := by
  have same : ∃ f ns, s = { s with
      faults := f, notices := { s.notices with raised := s.notices.raised ++ ns } } :=
    ⟨s.faults, [], by rw [List.append_nil]⟩
  unfold State.lookup
  split
  · exact same
  · split
    · exact same
    · rename_i e _
      have := readFor_touches s e
      split
      · rename_i e1; rw [e1] at this; exact this
      · rename_i e1
        rw [e1] at this
        split <;> exact this

/-! ### The array -/

/-- R60: what starting an operation may change of the store. -/
theorem arbitrate_touches (s : State) :
    ∃ op ps sts eq, s.arbitrate = { s with store :=
      { s.store with op := op, pages := ps, pageState := sts, eraseQ := eq } } := by
  have same : ∃ op ps sts eq, s = { s with store :=
      { s.store with op := op, pages := ps, pageState := sts, eraseQ := eq } } :=
    ⟨s.store.op, s.store.pages, s.store.pageState, s.store.eraseQ, rfl⟩
  have erase : ∃ op ps sts eq, s.mapStore Store.beginErase = { s with store :=
      { s.store with op := op, pages := ps, pageState := sts, eraseQ := eq } } := by
    unfold State.mapStore Store.beginErase
    split
    · exact same
    · exact ⟨_, _, _, _, rfl⟩
  unfold State.arbitrate
  split
  · exact same
  · split
    · split
      · exact ⟨_, s.store.pages, s.store.pageState, s.store.eraseQ, rfl⟩
      · exact same
    · split
      · exact same
      · split
        · exact erase
        · split
          · unfold State.beginProgram
            split
            · exact same
            · split
              · exact same
              · exact ⟨_, _, _, s.store.eraseQ, rfl⟩
          · exact erase
        · exact ⟨_, s.store.pages, s.store.pageState, s.store.eraseQ, rfl⟩
        · exact ⟨_, s.store.pages, s.store.pageState, s.store.eraseQ, rfl⟩
        · exact same
        · exact ⟨_, s.store.pages, s.store.pageState, s.store.eraseQ, rfl⟩

theorem arbitrate_sameStore (s : State) : SameButStore s s.arbitrate := by
  obtain ⟨op, ps, sts, eq, h⟩ := arbitrate_touches s
  exact ⟨_, s.dir, s.batch, s.faults, [], by rw [h, List.append_nil]⟩

/-- R60: a PROGRAM at the head that finds no page FREE lets the erase queue's head begin. -/
theorem arbitrate_of_no_free (s : State) {i : Nat} {rest : List WorkEntry} (hp : s.site.phase = .open_)
    (ho : s.store.op = none) (hq : s.store.prio = []) (hw : s.store.workQ = .program i :: rest)
    (hf : s.store.lowestFree = none) : s.arbitrate = s.mapStore Store.beginErase := by
  simp [State.arbitrate, hp, ho, hq, hw, hf]

/-- With an entry in the priority queue the array takes nothing of its own accord. -/
theorem arbitrate_of_prio (s : State) (h : s.store.prio ≠ []) : s.arbitrate = s := by
  have e : s.store.prio.isEmpty = false := by
    cases hp : s.store.prio with
    | nil => exact absurd hp h
    | cons a as => rfl
  unfold State.arbitrate
  split
  · rfl
  · split
    · rename_i op _
      simp [e]
    · simp [e]

theorem endOp_sameStore (s : State) : SameButStore s s.endOp := mapStore_sameStore _ _
theorem dropWork_sameStore (s : State) : SameButStore s s.dropWork := mapStore_sameStore _ _
theorem dropPrio_sameStore (s : State) : SameButStore s s.dropPrio := mapStore_sameStore _ _
theorem mapWork_sameStore (s : State) (f : Work → Work) : SameButStore s (s.mapWork f) :=
  mapStore_sameStore _ _

theorem checkSpare_sameStore (s : State) (n : Nat) : SameButStore s (s.checkSpare n) := by
  unfold State.checkSpare
  split
  · exact raiseFault_sameStore _ _ _
  · exact SameButStore.refl s

theorem queueLogMark_sameStore (s : State) : SameButStore s s.queueLogMark := by
  unfold State.queueLogMark
  split
  · split
    · exact mapStore_sameStore _ _
    · exact SameButStore.refl s
  · exact SameButStore.refl s

/-- R62: the end by COMMIT_FAIL. -/
theorem failWork_sameStore (s : State) (cause : FailCause) : SameButStore s (s.failWork cause) := by
  unfold State.failWork
  split
  · exact SameButStore.refl s
  · have step := (mapStore_sameStore s fun st =>
      { (st.toStale (Work.heldPages ‹Work›) .abandoned) with
        workQ := st.workQ.filter fun x => !x.ofWork
        work := none }).trans (raiseFault_sameStore _ .commitFail (Work.number ‹Work› % 65536))
    dsimp only
    split
    · exact step.trans (raiseNotice_sameStore _ _)
    · exact (step.trans (raiseNotice_sameStore _ _)).trans (mapBatch_sameStore _ _)

/-- R62: after it no work runs. -/
theorem failWork_work (s : State) (cause : FailCause) : (s.failWork cause).store.work = none := by
  unfold State.failWork
  split
  · assumption
  · rename_i w _
    dsimp only
    obtain ⟨f, ns, e⟩ := raiseFault_touches (s.mapStore fun st =>
      { (st.toStale w.heldPages .abandoned) with
        workQ := st.workQ.filter fun x => !x.ofWork
        work := none }) .commitFail (w.number % 65536)
    rw [e]
    split <;> rfl

theorem checkLack_sameStore (s : State) : SameButStore s s.checkLack := by
  unfold State.checkLack
  split
  · split
    · exact failWork_sameStore _ _
    · exact SameButStore.refl s
  · exact SameButStore.refl s

theorem checkWait_sameStore (s : State) : SameButStore s s.checkWait := by
  unfold State.checkWait
  split
  · split
    · exact (mapStore_sameStore _ _).trans (mapWork_sameStore _ _)
    · exact SameButStore.refl s
  · exact SameButStore.refl s

theorem checkProgrammed_sameStore (s : State) : SameButStore s s.checkProgrammed := by
  unfold State.checkProgrammed
  split
  · split
    · exact (mapWork_sameStore _ _).trans (queueLogMark_sameStore _)
    · exact SameButStore.refl s
  · exact SameButStore.refl s

theorem startCopies_sameStore (s : State) : SameButStore s s.startCopies :=
  (((mapWork_sameStore s _).trans (checkLack_sameStore _)).trans (checkWait_sameStore _)).trans
    (checkProgrammed_sameStore _)

/-! ### The marks, the COMPACT reads and the ends of operations -/

theorem markTargets_touches (s : State) (b : Badge) : SameButStore s (s.markTargets b).1 := by
  unfold State.markTargets
  split
  · exact SameButStore.refl s
  · split
    · exact SameButStore.refl s
    · rename_i e _
      have := readFor_sameStore s e
      split
      · rename_i h; rw [h] at this; exact this
      · rename_i h
        rw [h] at this
        split
        · exact this
        · split
          · exact this
          · split <;> exact this

theorem serveMark_sameStore (s : State) (b : Badge) : SameButStore s (s.serveMark b) := by
  have := markTargets_touches s b
  unfold State.serveMark
  split
  · rename_i h; rw [h] at this; exact this.trans (mapDir_sameStore _ _)
  · rename_i h; rw [h] at this
    exact (this.trans (mapStore_sameStore _ _)).trans (mapDir_sameStore _ _)

theorem compactNext_sameStore (s : State) : SameButStore s s.compactNext := by
  unfold State.compactNext
  split
  · split
    · exact (mapWork_sameStore _ _).trans (startCopies_sameStore _)
    · exact placePrio_sameStore _ _
  · exact SameButStore.refl s

theorem serveCompact_sameStore (s : State) : SameButStore s s.serveCompact := by
  unfold State.serveCompact
  split
  · split
    · exact SameButStore.refl s
    · rename_i e rest _
      have := readFor_sameStore s e
      dsimp only
      refine this.trans ?_
      unfold State.compactPage
      split
      · split
        · exact failWork_sameStore _ _
        · exact (mapWork_sameStore _ _).trans (compactNext_sameStore _)
      · exact (mapWork_sameStore _ _).trans (compactNext_sameStore _)
  · exact SameButStore.refl s

theorem programDone_sameStore (s : State) (i : Nat) (p : Page) : SameButStore s (s.programDone i p) :=
  ((((mapStore_sameStore s _).trans (endOp_sameStore _)).trans (dropWork_sameStore _)).trans
    (mapWork_sameStore _ _)).trans (checkProgrammed_sameStore _)

theorem programFailed_sameStore (s : State) (i : Nat) (p : Page) :
    SameButStore s (s.programFailed i p) := by
  have step := ((((mapStore_sameStore s fun st => st.retire p).trans (endOp_sameStore _)).trans
    (raiseFault_sameStore _ .storeProgramFail p.val)).trans
    (checkSpare_sameStore _ s.store.spareSum)).trans
    (mapWork_sameStore _ fun w => { w with copies := w.copies.modify i fun c =>
      { c with failures := c.failures + 1 } })
  unfold State.programFailed
  dsimp only
  split
  · split
    · exact step.trans (failWork_sameStore _ _)
    · exact step.trans (checkLack_sameStore _)
  · exact step

theorem eraseDone_sameStore (s : State) (p : Page) : SameButStore s (s.eraseDone p) :=
  (((mapStore_sameStore s _).trans (endOp_sameStore _)).trans (checkWait_sameStore _)).trans
    (queueLogMark_sameStore _)

theorem eraseFailed_sameStore (s : State) (p : Page) : SameButStore s (s.eraseFailed p) :=
  (((((mapStore_sameStore s _).trans (endOp_sameStore _)).trans (raiseFault_sameStore _ _ _)).trans
    (checkSpare_sameStore _ _)).trans (checkLack_sameStore _)).trans (queueLogMark_sameStore _)

theorem logEraseDone_sameStore (s : State) (p : Fin 8) : SameButStore s (s.logEraseDone p) :=
  ((mapStore_sameStore s _).trans (endOp_sameStore _)).trans (dropWork_sameStore _)

theorem queueSave_sameStore (s : State) : SameButStore s s.queueSave := by
  rw [queueSave_eq]
  exact ⟨_, s.dir, s.batch, s.faults, [], by rw [List.append_nil]⟩

theorem beginSave_sameStore (s : State) : SameButStore s s.beginSave := mapStore_sameStore _ _

theorem saveEntryDone_sameStore (s : State) (k : Nat) : SameButStore s (s.saveEntryDone k) :=
  (mapStore_sameStore s _).trans (endOp_sameStore _)

theorem saveDone_sameStore (s : State) : SameButStore s s.saveDone := by
  have step := ((mapStore_sameStore s fun st =>
    { st with area := { complete := true, checkMatches := true, image := st.save.image.getD st.area.image }
              save := { st.save with state := .idle, last := .ok, retry := false, image := none } }).trans
    (endOp_sameStore _)).trans (dropWork_sameStore _)
  unfold State.saveDone
  dsimp only
  split
  · exact (step.trans (mapStore_sameStore _ _)).trans (queueSave_sameStore _)
  · exact step

theorem saveFailed_sameStore (s : State) (erase : Bool) (p : Nat) : SameButStore s (s.saveFailed erase p) := by
  have step := ((endOp_sameStore s).trans (dropWork_sameStore _)).trans
    (raiseFault_sameStore _ (if erase then .storeEraseFail else .storeProgramFail) (2048 + p))
  unfold State.saveFailed
  dsimp only
  generalize (if erase = true then FaultKind.storeEraseFail else FaultKind.storeProgramFail) = k at step ⊢
  split
  · exact step.trans (mapStore_sameStore _ _)
  · exact step.trans (mapStore_sameStore _ _)

/-! ### The Commit Log and start-up -/

/-- R64, R66: what the queueing of the Commit Log MARK does to the work queue. -/
theorem queueLogMark_marks (s : State) (w : Work) (hw : s.store.work = some w) (h : w.phase = .logging) :
    MarkQueued s.store s.store.workQ s.queueLogMark.store.workQ := by
  have abandoned : s.store.countPages PageState.isAbandoned = 0 ↔
      ¬ ∃ p, s.store.stateOf p = .stale .abandoned ∨ s.store.stateOf p = .erasing .abandoned := by
    have kind (x : PageState) : x.isAbandoned = true ↔ x = .stale .abandoned ∨ x = .erasing .abandoned := by
      rcases x with _ | _ | k | k | _ | _ <;>
        first | (cases k <;> simp [PageState.isAbandoned]) | simp [PageState.isAbandoned]
    simp only [Store.countPages, List.countP_eq_zero, kind, Store.stateOf]
    constructor
    · rintro all ⟨p, hp⟩
      exact all _ (Vector.mem_toList_iff.mpr (Vector.getElem_mem p.isLt)) hp
    · intro none_ x hx hk
      obtain ⟨i, hi, e⟩ := Vector.mem_iff_getElem.mp (Vector.mem_toList_iff.mp hx)
      exact none_ ⟨⟨i, hi⟩, e ▸ hk⟩
  have erased : (!s.store.logPageErased s.store.logPage) = true ↔
      ∃ i : Fin 64, s.store.log[s.store.logPage][i] ≠ none := by
    simp only [Store.logPageErased, Bool.not_eq_true', List.all_eq_false]
    constructor
    · rintro ⟨x, hx, hn⟩
      obtain ⟨i, hi, e⟩ := Vector.mem_iff_getElem.mp (Vector.mem_toList_iff.mp hx)
      refine ⟨⟨i, hi⟩, fun k => hn ?_⟩
      rw [← e]; exact Option.isNone_iff_eq_none.mpr k
    · rintro ⟨i, hi⟩
      exact ⟨_, Vector.mem_toList_iff.mpr (Vector.getElem_mem i.isLt), fun k => hi (Option.isNone_iff_eq_none.mp k)⟩
  have waits : (w.phase = .logging ∧ (!s.store.workQ.contains .logMark) = true
      ∧ s.store.countPages PageState.isAbandoned = 0) ↔
      ¬ (WorkEntry.logMark ∈ s.store.workQ
        ∨ ∃ p, s.store.stateOf p = .stale .abandoned ∨ s.store.stateOf p = .erasing .abandoned) := by
    rw [abandoned]
    simp [h, not_or]
  unfold State.queueLogMark
  rw [hw]
  refine ⟨fun k => ?_, fun k first => ?_, fun k first => ?_⟩
  · exact congrArg (fun t : State => t.store.workQ) (if_neg fun c => waits.mp c k)
  · refine (congrArg (fun t : State => t.store.workQ) (if_pos (waits.mpr k))).trans ?_
    exact congrArg _ (if_pos ⟨first.1, erased.mpr first.2⟩)
  · refine (congrArg (fun t : State => t.store.workQ) (if_pos (waits.mpr k))).trans ?_
    exact congrArg _ (if_neg fun c => first ⟨c.1, erased.mp c.2⟩)

/-- R3, R68: an operation cut short leaves the Settings Area as it stands. -/
@[simp] theorem cut_area (s : State) : s.cut.store.area = s.store.area := by
  have marks (ps : List Page) (b : Badge) (st : Store) :
      (ps.foldl (fun st p => st.markPage b p) st).area = st.area := by
    induction ps generalizing st with
    | nil => rfl
    | cons p rest ih => exact (ih _).trans rfl
  have mark : s.cutMark.store.area = s.store.area := by
    unfold State.cutMark
    split
    · split
      · split
        · exact marks _ _ _
        · rfl
      · rfl
    · rfl
  have op (s : State) : s.cutOp.store.area = s.store.area := by
    unfold State.cutOp
    repeat' split
    all_goals rfl
  exact (op _).trans mark
/-- R65, R92: the scan never sets the counter back, and sets it above every number it finds. -/
theorem scanned_counter (st : Store) (kept : List IndexEntry) :
    (st.scanned kept).counter = max st.counter (st.headerNumbers.foldl max st.lastLogged + 1) := rfl

@[simp] theorem afterCut_counter (st : Store) : st.afterCut.counter = st.counter := rfl

/-- A log page that holds nothing holds nothing after an ERASE that failed or was cut short. -/
theorem cutLogPage_of_an_erased_page (free : Nat) :
    cutLogPage free (Vector.replicate 64 none) = Vector.replicate 64 none := by
  have slot (i : Nat) : (if Config.logSlotKept free i then
      (Vector.replicate 64 (none : Option Nat)).toList.getD i none else none) = none := by
    have h : (Vector.replicate 64 (none : Option Nat)).toList.getD i none = none := by
      rw [List.getD_eq_getElem?_getD, Vector.toList_replicate, List.getElem?_replicate]
      split <;> rfl
    rw [h, ite_self]
  simp only [cutLogPage, slot]
  decide +kernel

end Sys2Proof.Machine
end

