-- ==== Sys2Proof/Laws/Lines.lean ====
section
/-! SUPPORT. The lines and the tick: what sending a record, collecting a byte, answering a scan and marking
a record do, said once. -/

namespace Sys2Proof.Machine

/-! ### What is sent (R10, R109, R136) -/

section
variable (z : ZoneMap) (ch : Channel) (m : GroupMgr)

@[simp] theorem transmit_tx : (ch.transmit z).tx = ch.tx.tail := (rfl)
@[simp] theorem transmit_sending : (ch.transmit z).sending = ch.tx.head?.map (ReaderRecord.frame z.labelFor) := (rfl)
@[simp] theorem transmit_state : (ch.transmit z).state = ch.state := (rfl)
@[simp] theorem transmit_cfg : (ch.transmit z).cfg = ch.cfg := (rfl)
@[simp] theorem transmit_mark : (ch.transmit z).mark = ch.mark := (rfl)
@[simp] theorem transmit_entry : (ch.transmit z).entry = ch.entry := (rfl)
@[simp] theorem groupTransmit_tx : m.transmit.tx = m.tx.tail := (rfl)
@[simp] theorem groupTransmit_sending : m.transmit.sending = m.tx.head?.map GroupMsg.frame := (rfl)
@[simp] theorem groupTransmit_link : m.transmit.link = m.link := (rfl)
@[simp] theorem groupTransmit_avail : m.transmit.avail = m.avail := (rfl)
@[simp] theorem groupTransmit_orders : m.transmit.orders = m.orders := (rfl)
@[simp] theorem groupTransmit_enables : m.transmit.enables = m.enables := (rfl)

end

theorem drainLines_reader (s : State) (c : Chan) : s.drainLines.reader c = (s.reader c).transmit s.zone := by
  simp only [State.drainLines, State.reader, vmap, Fin.getElem_fin, Vector.getElem_mk, List.getElem_toArray,
    List.getElem_map, Vector.getElem_toList]

theorem drainLines_group (s : State) (g : Group) : s.drainLines.group g = (s.group g).transmit := by
  simp only [State.drainLines, State.group, vmap, Fin.getElem_fin, Vector.getElem_mk, List.getElem_toArray,
    List.getElem_map, Vector.getElem_toList]

/-- With no record queued nothing is sent. -/
theorem transmit_of_empty (z : ZoneMap) (ch : Channel) (h : ch.tx = []) :
    ch.transmit z = { ch with sending := none } := by
  simp only [Channel.transmit, h, List.tail_nil, List.head?_nil, Option.map_none]

/-! ### What a receiver collects (R159) -/

/-- A receiver goes IN_FRAME at SYNC, collects the byte or stays as it is. -/
theorem take_cases (x : Receiver) (l : Link) (b : Byte) (now : Nat) :
    x.take l b now = x ∨ (x = .hunting ∧ x.take l b now = .inFrame now [])
      ∨ ∃ last got, x = .inFrame last got ∧ now ≤ last + Link.gapLimit l
          ∧ x.take l b now = .inFrame now (got ++ [b]) := by
  cases x with
  | hunting =>
    by_cases h : b = 0xC3
    · exact .inr (.inl ⟨rfl, if_pos h⟩)
    · exact .inl (if_neg h)
  | inFrame last got =>
    by_cases h : now ≤ last + Link.gapLimit l ∧ frameEnds l (got ++ [b]) = false
    · exact .inr (.inr ⟨last, got, rfl, h.1, if_pos h⟩)
    · exact .inl (if_neg h)

/-- What a receiver holds never ends a frame. -/
theorem take_unended (x : Receiver) (l : Link) (b : Byte) (now : Nat)
    (h : ∀ last got, x = .inFrame last got → frameEnds l got = false) :
    ∀ last got, x.take l b now = .inFrame last got → frameEnds l got = false := by
  intro last got k
  cases x with
  | hunting =>
    simp only [Receiver.take] at k
    split at k
    · cases k; cases l <;> rfl
    · cases k
  | inFrame last' got' =>
    simp only [Receiver.take] at k
    split at k
    · rename_i hb; cases k; exact hb.2
    · exact h last got k

/-! ### The answer to a scan (R52, R54) -/

/-- Answering a scan may change the Site Port and the scan cursor alone. -/
theorem answerScan_touches (s : State) :
    ∃ p c, s.answerScan = { s with site := p, dir := { s.dir with cursor := c } } := by
  unfold State.answerScan
  split
  · exact ⟨_, _, reply_eq _ _ _ _⟩
  · exact ⟨s.site, s.dir.cursor, rfl⟩

theorem answerScan_of_none (s : State) (h : s.site.scanned = false) : s.answerScan = s := by
  unfold State.answerScan
  split
  · rename_i k; simp [Port.scanned, k] at h
  · rfl

/-! ### Trip marks (R46) -/

/-- Marking a record changes its slots alone. -/
theorem mark_touches (r : Record) : ∃ x, r.mark = { r with slots := x } := by
  unfold Record.mark
  split
  · split
    · exact ⟨_, rfl⟩
    · exact ⟨r.slots, rfl⟩
  · exact ⟨r.slots, rfl⟩

/-- A record whose marks have reached its budget takes no further mark. -/
theorem mark_of_spent (r : Record) (n : Nat) (hb : r.budget = some n) (h : n ≤ r.marks) : r.mark = r := by
  unfold Record.mark
  rw [hb]
  exact if_neg (by omega)

theorem countP_or_le {α : Type} (p q : α → Bool) (xs : List α) :
    xs.countP (fun x => p x || q x) ≤ xs.countP p + xs.countP q := by
  induction xs with
  | nil => exact Nat.le_refl 0
  | cons a xs ih =>
    simp only [List.countP_cons]
    cases p a <;> cases q a <;> simp <;> omega

/-- One slot more raises the count of marks by one at most. -/
theorem countP_one_slot (k : Nat) : ((List.range 32).countP fun i => (1#32 <<< k).getLsbD i) ≤ 1 := by
  by_cases h : k < 32
  · have all : ∀ k : Fin 32, ((List.range 32).countP fun i => (1#32 <<< k.val).getLsbD i) ≤ 1 := by decide +kernel
    exact all ⟨k, h⟩
  · rw [BitVec.shiftLeft_eq_zero (by omega)]
    decide

/-- Marks within the budget stay within it. -/
theorem mark_within_budget (r : Record) (n : Nat) (hb : r.budget = some n) (h : r.marks ≤ n) :
    r.mark.marks ≤ n := by
  by_cases hs : n ≤ r.marks
  · rw [mark_of_spent r n hb hs]; exact h
  · have lt : r.marks < n := by omega
    have e : r.mark = { r with slots := r.slots ||| (1#32 <<< r.marks) } := by
      unfold Record.mark; rw [hb]; exact if_pos lt
    rw [e]
    have now : r.marks = (List.range 32).countP fun i => r.slots.getLsbD i := by
      simp only [Record.marks, hb, Option.isSome_some, if_true]
    have one := countP_one_slot r.marks
    have le := countP_or_le (fun i => r.slots.getLsbD i) (fun i => (1#32 <<< r.marks).getLsbD i) (List.range 32)
    generalize r.marks = k at now one le lt ⊢
    simp only [Record.marks, hb, Option.isSome_some, if_true, BitVec.getLsbD_or]
    omega

end Sys2Proof.Machine
end

