-- ==== Sys2Proof/WellFormed.lean ====
section
/-! DEFINITION. Which terms of Instr stand for an event that can reach the card: a frame's payload
is within its link's largest, an unknown frame is unknown, a discarded frame is one the receive
rules discard. exec answers on the others too; it does not ask this check. -/

namespace Sys2Proof

open Machine

/-- A Site Link payload within the link's largest (10.1). -/
def Req.fits (r : Req) : Bool := r.payload.length ≤ Link.maxPayload .site

/-- R159, R160, R163: the term stands for an event of its row. -/
def Instr.wellFormed : Instr → Bool
  | .siteFrameReceive _ r => r.fits
  | .unknownType type r => r.fits && !siteRequestTypes.contains type
  | .identify r | .status r | .clockSet r | .clockRead r | .batchOpen r | .stagePut r | .stageDrop r
  | .batchCommit r | .batchAbandon r | .compact r | .storeStatus r | .recordRead r
  | .directoryScan r | .profileWrite r | .profileRead r | .switchArm r | .switchDisarm r
  | .holidayWrite r | .holidayRead r | .zoneWrite r | .zoneRead r | .channelSet r | .channelRead r
  | .groupSet r | .groupRead r | .groupResume r | .transferRead r | .transferPurge r | .noticeSet r
  | .faultRead r | .faultClear r | .faultSet r | .restartArm r | .restart r | .timingSet r
  | .timingRead r => r.fits
  | .frameDiscard link bytes => (discardCause link bytes).isSome
  | .unknownReaderFrame c type payload =>
    payload.length ≤ Link.maxPayload (.reader c) && readerLength type != some payload.length
  | .unknownGroupFrame g type payload =>
    payload.length ≤ Link.maxPayload (.group g) && groupLength type != some payload.length
  | .powerOn | .resetAsserted | .resetReleased | .scanEnd | .admissionOpens | .secondEvent
  | .minuteBoundary | .batchExpired | .readerOffline _ | .displayDeadline _ | .startingDisplayEnd _
  | .interKeyTimeout _ | .badgeWaitTimeout _ | .replyDeadline _ _ | .cancelDeadline _ _
  | .holdExpiry _ _ | .linkSilent _ | .rawLevelChange _ _ | .firstStableLevel _
  | .lineBecomesActive _ | .lineBecomesInactive _ | .serviceKeyChange | .byteGapTimeout _ _
  | .transmitComplete | .badge _ _ | .key _ _ | .alive _ | .lookup _ | .scanPageRead _
  | .planningRead | .compactRead | .tripMark | .programComplete | .programFailure | .eraseComplete
  | .eraseFailure | .logEraseFailure | .commitComplete | .settingsSaveStart | .settingsSaveComplete
  | .settingsSaveFailure | .groupState _ _ | .carState _ _ _ _ _ _ | .assign _ _ _ | .enabled _ _
  | .refuse _ _ | .cancelled _ _ | .lossOfPower | .inFrame _ _ | .settingsSaveEntryComplete => true

end Sys2Proof
end

