-- ==== Sys2Proof/Tests/Slice0.lean ====
section
/-! SUPPORT. The model's own tests: the ill-formed terms that the well-formedness check refuses, a small
card on which the hypotheses of each statement are met together (with what the command then does), and
one short scenario from reset. -/

namespace Sys2Proof.Tests

open Sys2Proof Sys2Proof.Machine

set_option Elab.async false

/-! ### WellFormed -/

theorem test_payloadTooLong_refused :
    (Instr.status { tag := 0, payload := List.replicate 1025 0 }).wellFormed = false := by decide +kernel

theorem test_payloadLargest_fits :
    (Instr.status { tag := 0, payload := List.replicate 1024 0 }).wellFormed = true := by decide +kernel

theorem test_receivedFrameTooLong_refused :
    (Instr.siteFrameReceive 0x02 { tag := 0, payload := List.replicate 1025 0 }).wellFormed = false := by
  decide +kernel

theorem test_listedTypeAsUnknown_refused :
    (Instr.unknownType 0x02 { tag := 0, payload := [] }).wellFormed = false := by decide

theorem test_validFrameAsDiscard_refused :
    (Instr.frameDiscard .site ((frameBytes 0x02 0 []).drop 1)).wellFormed = false := by decide +kernel

theorem test_knownReaderFrameAsUnknown_refused :
    (Instr.unknownReaderFrame 0 0x61 [0x39]).wellFormed = false
      ∧ (Instr.unknownReaderFrame 0 0x70 (List.replicate 33 0)).wellFormed = false := by decide

theorem test_knownGroupFrameAsUnknown_refused :
    (Instr.unknownGroupFrame 0 0x5C [1]).wellFormed = false
      ∧ (Instr.unknownGroupFrame 0 0x70 (List.replicate 257 0)).wellFormed = false := by decide +kernel

theorem test_noWordSpellsACommand : decodeTableWord 8 0 = none := by decide

/-! ### A small card -/

/-- What a command answers, as a state; the state before where it stops. -/
def after (c : Instr) (s : State) : State :=
  match exec c s with
  | .next t => t
  | _ => s

def afterAll (cs : List Instr) (s : State) : State := cs.foldl (fun s c => after c s) s

/-- A request is answered so, and the batch, the calendar and the arm stay. -/
def refuses (c : Instr) (s : State) (f : SiteFrame) (x : Result) (d : List Byte) : Bool :=
  match exec c s with
  | .next t => decide (t.site = (answered s f x d).site ∧ t.batch = s.batch ∧ t.cal = s.cal
      ∧ t.banks.arm = s.banks.arm ∧ t.store.workQ = s.store.workQ)
  | _ => false

def req (p : List Byte) : Req := { tag := 5, payload := p }

def frame (type : Byte) (p : List Byte) : SiteFrame := { type := type, req := req p }

def landingOf (secure transfer : Bool) (c : Byte) : LandingEntry :=
  { present := true, label := [c], secure := secure, transfer := transfer }

/-- Landings 0 (L, public, transfer), 1 (secure), 2 (public); G0 serves 0 and 1, G1 serves 0 and 2. -/
def map3 : ZoneMap :=
  { landings := ((ZoneMap.default.landings.set 0 (landingOf false true 0x4C)).set 1
      (landingOf true false 0x31)).set 2 (landingOf false false 0x32)
    groups := (ZoneMap.default.groups.set 0 { present := true, serviceCar := false, served := 3 }).set 1
      { present := true, serviceCar := false, served := 5 } }

def holder : Record :=
  { badge := 7, status := .active, profile := 8, home := some 1, accessible := false, priority := false
    expiry := none, budget := some 1, slots := 0 }

def page0 : PageImage :=
  { low := 1, high := topBadge, count := 1, commit := 0, complete := true, records := [holder] }

def entry0 : IndexEntry := { low := 1, high := topBadge, page := 0, count := 1, commit := 0 }

/-- Profile 8 grants landing 1 at all hours of all days. -/
def profile8 : Profile :=
  { serviceCar := false, clauses := [{ landings := 2, days := 0xFF, start := 0, stop := 0 }] }

def manager : GroupMgr := { GroupMgr.startUp with link := .live, accepting := true, avail := .inService }

def reader (p : Place) : Channel :=
  { Channel.startUp with cfg := { place := p, hold := 5 }, state := .idle, silenceDeadline := some 3 }

def unusedReader : Channel := { Channel.startUp with state := .unused, silenceDeadline := some 3 }

/-- An open card with its key ON: channel 3 in the lobby of landing 0, channel 4 in car A of G0, badge 7
in the directory, G0 and G1 in service. -/
def card : State :=
  { State.reset with
    site := { Port.startUp with phase := .open_ }
    zone := map3
    banks := { State.reset.banks with active := State.reset.banks.active.set 8 profile8 }
    readers := ((Vector.replicate 32 unusedReader).set 3 (reader (.lobby 0))).set 4 (reader (.car 0 0))
    dir := { Directory.startUp with index := [entry0], recordCount := 1 }
    store := { Store.factory with
      pages := Store.factory.pages.set 0 { contents := .programmed page0, retired := false }
      pageState := Store.factory.pageState.set 0 .data }
    groups := Vector.replicate 6 manager
    recallIn := Vector.replicate 6
      { cfg := { polarity := .activeHigh, mode := .level }
        line := { raw := .low, stable := some .low, since := none }, state := .clear, fixed := true }
    key := { raw := .high, stable := some .high, since := none }
    notices := NoticeUnit.startUp }

/-- The card with its key OFF. -/
def locked : State := { card with key := { raw := .low, stable := some .low, since := none } }

/-- The request of channel 3 for landing 1 by badge 7. -/
def want1 : Request := { channel := 3, badge := some 7, ask := .lobby (some 1) 0, arrival := 0 }

def pendingReader : Channel := { reader (.lobby 0) with state := .pending, mark := .owned }

/-- The card with channel 3 PENDING and OWNED. -/
def waiting : State := card.mapReader 3 fun _ => pendingReader

def call1 : Order :=
  { tag := 0, kind := .call [{ group := 0, src := 0, dst := 1 }] 1 false false none .normal, channel := 3
    badge := some 7, reservation := some 7, state := .sent, sentAt := 0 }

def enable1 : Order :=
  { call1 with tag := 1, kind := .enable 0 2 10, channel := 4 }

/-- The card with a CALL for channel 3 and an ENABLE for channel 4 placed at G0, car A opened. -/
def ordered : State :=
  (waiting.mapReader 4 fun _ => { reader (.car 0 0) with state := .pending, mark := .owned }).mapGroup 0
    fun m => { m with
      orders := [call1, enable1], tagCounter := 1
      enables := m.enables.set 0 { confirmed := 4, expiry := some 1 } }

/-! ### The invariants and the step -/

theorem test_invariants_of_the_card :
    NoticesBounded card ∧ QueuesBounded card ∧ CalendarInRange card ∧ LineRight card
      ∧ AvailabilityRight card ∧ OutOfServiceEmpty card ∧ OrdersRight card ∧ TransferRight card
      ∧ SilentWhenDown card := by decide +kernel

/-- What a step answers with these commands waiting. -/
def stepped (cs : List Instr) (s : State) : State :=
  match step { s with pending := cs } with
  | .next t => t
  | _ => s

theorem test_step_runs_the_front :
    ((stepped [.alive 3, .secondEvent] card).reader 3).silenceDeadline = some 3
      ∧ (stepped [.alive 3, .secondEvent] card).pending = [.secondEvent]
      ∧ (stepped [.secondEvent] card).cal.uptime = 1 := by decide +kernel

theorem test_the_empty_queue_is_a_tick : (stepped [] card).time.ms = 1 := by decide +kernel

theorem test_crc_of_the_nine_digits :
    crc16 [0x31, 0x32, 0x33, 0x34, 0x35, 0x36, 0x37, 0x38, 0x39] = 0x29B1#16 := by decide +kernel

/-- RESTART's reply, whole: SYNC, length, TYPE with its high bit, TAG, OK. -/
theorem test_reply_bytes :
    ((replyFrame (frame 0x31 []) .ok [] true).bytes).take 6 = [0xC3, 0x00, 0x01, 0xB1, 0x05, 0x00] := by
  decide +kernel

/-! ### Start-up -/

theorem test_powerOn :
    let s : State := { card with power := .off }
    s.power = .off ∧ (after .powerOn s).site = Port.startUp
      ∧ (after .powerOn s).store.area.complete = false := by decide +kernel

theorem test_resetReleased :
    let s : State := { card with
      power := .held, resetIn := { raw := .low, stable := some .high, since := some 0 } }
    s.power = .held ∧ (after .resetReleased s).power = .running
      ∧ (after .resetReleased s).site.phase = .scanning := by decide +kernel

theorem test_restart_ends_in_a_start_up :
    let s : State := { card with site :=
      { card.site with sending := some (replyFrame (frame 0x31 []) .ok [] true) } }
    Runs s ∧ (after .transmitComplete s).site = Port.startUp := by decide +kernel

theorem test_lossOfPower :
    card.power ≠ .off ∧ (after .lossOfPower card).power = .off
      ∧ (after .lossOfPower card).store.op = none := by decide +kernel

theorem test_resetAsserted :
    let s : State := { card with resetIn := { raw := .high, stable := some .low, since := some 900 } }
    s.power = .running ∧ Within s (900 + 100) ∧ (after .resetAsserted s).power = .held := by decide +kernel

theorem test_scanEnd :
    Runs State.reset ∧ State.reset.site.phase = .scanning
      ∧ (after .scanEnd State.reset).site.phase = .loading
      ∧ (after .scanEnd State.reset).dir.index = [{ entry0 with count := 0 }] := by decide +kernel

/-- A card about to open, its area with an accepted image or the factory's. -/
def loading (x : SettingsArea) : State :=
  { State.reset with site := { Port.startUp with phase := .loading }
                     store := { Store.factory with area := x } }

theorem test_admissionOpens_with_the_defaults :
    let s := loading Store.factory.area
    Runs s ∧ s.site.phase = .loading ∧ (∀ c, (s.reader c).mark = .none)
      ∧ s.store.area.accepted = none ∧ (after .admissionOpens s).site.phase = .open_
      ∧ (after .admissionOpens s).faults.isSet .settingsLost = true
      ∧ (after .admissionOpens s).faults.major .spareLow = true
      ∧ (after .admissionOpens s).faults.major .siteFrame = false := by decide +kernel

theorem test_admissionOpens_with_an_image :
    let x : Settings := { card.settings with bankNumber := 9 }
    let s := loading { complete := true, checkMatches := true, image := x }
    Runs s ∧ s.site.phase = .loading ∧ (∀ c, (s.reader c).mark = .none)
      ∧ s.store.area.accepted = some x ∧ (after .admissionOpens s).banks.number = 9
      ∧ ((after .admissionOpens s).reader 3).state = .idle := by decide +kernel

/-! ### The clock and the deadlines -/

def dated : State := { card with cal := { card.cal with state := .set, second := 59, weekMinute := 10079 } }

theorem test_secondEvent :
    Runs card ∧ card.cal.state = .unset ∧ (after .secondEvent card).cal.uptime = 1
      ∧ (after .secondEvent { card with cal := { card.cal with uptime := 4294967295 } }).cal.uptime
          = 4294967295 := by decide +kernel

theorem test_secondEvent_set :
    let s : State := { card with cal := { card.cal with state := .set, second := 58 } }
    Runs s ∧ s.cal.state = .set ∧ s.cal.second < 59 ∧ (after .secondEvent s).cal.second = 59
      ∧ (after .secondEvent s).cal.weekMinute = 0 := by decide +kernel

theorem test_minuteBoundary_midnight :
    Runs dated ∧ dated.cal.state = .set ∧ dated.cal.second = 59
      ∧ (after .minuteBoundary dated).cal.weekMinute = 0 ∧ (after .minuteBoundary dated).cal.day = 1 := by
  decide +kernel

theorem test_minuteBoundary_switch_and_day_limit :
    let s : State := { dated with
      cal := { dated.cal with day := 65535 }, banks := { dated.banks with arm := .at 0, number := 65535 } }
    Runs s ∧ s.banks.arm = .at 0 ∧ (after .secondEvent s).banks.arm = .none
      ∧ (after .secondEvent s).banks.number = 0 ∧ (after .secondEvent s).cal.day = 65535
      ∧ (after .secondEvent s).cal.dayLimitReported = true := by decide +kernel

theorem test_minuteBoundary_expires_journeys :
    let e : TransferEntry := { badge := 7, landing := 0, final := 1, legs := 1, setAt := 0, expiry := 1 }
    let s : State := { dated with
      banks := { dated.banks with arm := .nextMinute }, transfer := { entries := [e], evictions := 0 } }
    s.banks.arm = .nextMinute ∧ (after .minuteBoundary s).transfer.entries = []
      ∧ (after .minuteBoundary s).banks.number = 1 := by decide +kernel

theorem test_clause_over_midnight :
    let c : Clause := { landings := 1, days := 1, start := 1320, stop := 360 }
    c.opens [] 0 1320 = true ∧ c.opens [] 0 1319 = false ∧ c.opens [] 1 (1440 + 359) = true
      ∧ c.opens [] 1 (1440 + 360) = false ∧ c.opens [0] 1 (1440 + 359) = false := by decide

theorem test_clause_within_a_day :
    let c : Clause := { landings := 1, days := 1, start := 480, stop := 1080 }
    c.opens [] 0 480 = true ∧ c.opens [] 0 1079 = true ∧ c.opens [] 0 1080 = false := by decide

theorem test_routes :
    card.route false 0 1 = .route [{ group := 0, src := 0, dst := 1 }]
      ∧ card.route false 2 1 = .route [{ group := 1, src := 2, dst := 0 }, { group := 0, src := 0, dst := 1 }]
      ∧ card.route false 1 1 = .sameLanding ∧ card.route false 0 127 = .noRoute
      ∧ (card.mapGroup 0 fun m => { m with avail := .notAccepting }).route false 0 1 = .outOfService := by
  decide +kernel

theorem test_batchExpired :
    let s : State := { card with batch :=
      { Batch.startUp with state := .open_, edits := [{ badge := 9, kind := .drop }], deadline := some 1 } }
    Runs s ∧ s.batch.state = .open_ ∧ s.site.isPlanning = false ∧ NextSecond s 1
      ∧ (after .batchExpired s).batch = Batch.startUp
      ∧ (after .batchExpired s).notices.queue = [.notice { uptime := 1, body := .batchExpired 1 }] := by
  decide +kernel

theorem test_readerOffline :
    let s := waiting.mapReader 3 fun ch => { ch with silenceDeadline := some 1 }
    Runs s ∧ (s.reader 3).state = .pending ∧ NextSecond s 1
      ∧ ((after (.readerOffline 3) s).reader 3).state = .offline
      ∧ ((after (.readerOffline 3) s).reader 3).mark ≠ .owned := by decide +kernel

theorem test_displayDeadline :
    let s := card.mapReader 3 fun ch => { ch with state := .showing, displayDeadline := some 1 }
    Runs s ∧ (s.reader 3).mark = .none ∧ NextSecond s 1 ∧ s.cal.uptime + 1 < 3
      ∧ ((after (.displayDeadline 3) s).reader 3).state = .idle
      ∧ ((after (.displayDeadline 3) s).reader 3).tx = [.blank] := by decide +kernel

/-- A line silent by the second of the display's end drops the display. -/
theorem test_displayDeadline_on_a_silent_line :
    let s := card.mapReader 3 fun ch =>
      { ch with state := .showing, displayDeadline := some 1, silenceDeadline := some 1 }
    Runs s ∧ (s.reader 3).mark = .none ∧ NextSecond s 1
      ∧ ((after (.displayDeadline 3) s).reader 3).state = .offline
      ∧ ((after (.displayDeadline 3) s).reader 3).tx = [] := by decide +kernel

/-- R98: an UNUSED channel's deadline passes in the same second and takes nothing from the queue. -/
theorem test_readerOffline_beside_unused_channels :
    let s : State := { waiting with cal := { waiting.cal with uptime := 2 }, queue := [{ want1 with channel := 5 }] }
    Runs s ∧ NextSecond s 3 ∧ (s.reader 4).silenceDeadline = some 3 ∧ (s.reader 6).silenceDeadline = some 3
      ∧ (let u := s.mapReader 4 fun _ => unusedReader
         (after (.readerOffline 3) u).queue = u.queue
          ∧ ((after (.readerOffline 3) u).reader 3).mark = .discard
          ∧ ((after (.readerOffline 3) u).reader 6).state = .unused) := by decide +kernel

theorem test_startingDisplayEnd :
    let s := card.mapReader 3 fun ch =>
      { ch with state := .starting, displayDeadline := some 1, silenceDeadline := some 0 }
    Runs s ∧ (s.reader 3).mark = .none ∧ NextSecond s 1
      ∧ ((after (.startingDisplayEnd 3) s).reader 3).state = .starting
      ∧ ((after (.startingDisplayEnd 3) s).reader 3).displayDeadline = none := by decide +kernel

/-- The card with an entry at channel 3 whose timer can end now. -/
def entering (t : EntryTimer) (chars : List Byte) : State :=
  card.mapReader 3 fun ch => { ch with
    state := .entry, entry := some { badge := some 7, chars := chars, timer := t, deadline := 1000 } }

theorem test_interKeyTimeout_to_an_idle_engine :
    let s := entering .interKey [0x31]
    Runs s ∧ (s.reader 3).state = .entry ∧ (s.reader 3).cfg.place = .lobby 0 ∧ Within s 1000
      ∧ s.zone.resolve [0x31] = some 1 ∧ s.queue = [] ∧ s.engine = .idle ∧ s.dir.condition = .usable
      ∧ (after (.interKeyTimeout 3) s).engine = .evaluating want1 none
      ∧ (after (.interKeyTimeout 3) s).store.prio = [.engineRead 7] := by decide +kernel

theorem test_interKeyTimeout_of_an_unknown_label :
    let s := entering .interKey [0x39]
    s.zone.resolve [0x39] = none ∧ ((after (.interKeyTimeout 3) s).reader 3).state = .showing
      ∧ ((after (.interKeyTimeout 3) s).reader 3).displayDeadline = some 5 := by decide +kernel

theorem test_badgeWaitTimeout_at_an_engine_at_work :
    let s : State := { entering .badgeWait [] with engine := .evaluating { want1 with channel := 5 } none }
    Runs s ∧ s.engine ≠ .idle ∧ s.queue.length < 64
      ∧ (after (.badgeWaitTimeout 3) s).queue = [{ want1 with ask := .lobby none 0 }]
      ∧ ((after (.badgeWaitTimeout 3) s).reader 3).mark = .owned := by decide +kernel

theorem test_badgeWaitTimeout_at_a_full_queue :
    let s : State := { entering .badgeWait [] with
      engine := .evaluating want1 none, queue := List.replicate 64 { want1 with channel := 5 } }
    64 ≤ s.queue.length ∧ ((after (.badgeWaitTimeout 3) s).reader 3).tx =
      [.show_ .busy none none none, .tone .busy] := by decide +kernel

theorem test_replyDeadline :
    let s := { ordered with time := { seconds := 1, ms := 0 } }
    Runs s ∧ (s.group 0).find 0 = some call1 ∧ call1.sentAt + 1500 ≤ (s.time.seconds + 1) * 1000
      ∧ s.cal.uptime + 1 < (s.group 0).silenceDeadline
      ∧ ((after (.replyDeadline 0 0) s).group 0).find 0 = some { call1 with state := .cancelling 6 }
      ∧ ((after (.replyDeadline 0 0) s).reader 3).mark = .none := by decide +kernel

theorem test_cancelDeadline :
    let o := { call1 with state := .cancelling 1 }
    let s := card.mapGroup 0 fun m => { m with orders := [o] }
    Runs s ∧ (s.group 0).find 0 = some o ∧ NextSecond s 1
      ∧ ((after (.cancelDeadline 0 0) s).group 0).orders = [] := by decide +kernel

theorem test_holdExpiry :
    Runs ordered ∧ (ordered.group 0).enables[(0 : Car)].confirmed ≠ 0
      ∧ (ordered.group 0).enables[(0 : Car)].expiry = some 1 ∧ NextSecond ordered 1
      ∧ ((after (.holdExpiry 0 0) ordered).group 0).tx = [.withdraw 0] := by decide +kernel

theorem test_linkSilent :
    let s := ordered.mapGroup 0 fun m => { m with silenceDeadline := 1 }
    Runs s ∧ (s.group 0).link ≠ .silent ∧ NextSecond s 1 ∧ (s.group 0).avail = .inService
      ∧ (s.zoneGroup 0).present = true
      ∧ ((after (.linkSilent 0) s).group 0).orders = []
      ∧ (after (.linkSilent 0) s).faults.isSet .groupOffline = true := by decide +kernel

/-! ### Inputs, receivers, transmitter -/

theorem test_rawLevelChange :
    card.watches .key = true ∧ (card.input .key).raw ≠ .low
      ∧ (after (.rawLevelChange .key .low) card).key = { raw := .low, stable := some .high, since := some 0 }
      ∧ (after (.rawLevelChange .key .high) (after (.rawLevelChange .key .low) card)).key = card.key
      ∧ ({ card with power := .held } : State).watches .key = false := by decide +kernel

theorem test_firstStableLevel :
    let s : State := { card with key := Debounce.startUp .high }
    let u := card.mapRecall 0 fun x => { x with line := Debounce.startUp .high, fixed := false }
    Runs s ∧ Within s (0 + 100) ∧ (after (.firstStableLevel .key) s).keyOn = true
      ∧ u.site.phase = .open_ ∧ (u.recallOf 0).fixed = false
      ∧ ((after (.firstStableLevel (.recallLine 0)) u).recallOf 0).state = .inRecall := by decide +kernel

/-- The first level fixes CLEAR and puts the group into service, or before the opening is only kept. -/
theorem test_firstStableLevel_hands_the_change_on :
    let s : State := (card.mapRecall 0 fun x =>
      { x with line := Debounce.startUp .low, state := .inRecall, fixed := false }).mapGroup 0 fun m =>
        { m with avail := .inRecall }
    let t := after (.firstStableLevel (.recallLine 0)) s
    let u : State := { s with site := { s.site with phase := .loading } }
    let v := after (.firstStableLevel (.recallLine 0)) u
    Runs s ∧ Within s (0 + 100) ∧ (t.recallOf 0).state = .clear ∧ (t.group 0).avail = .inService
      ∧ t.notices.queue.length = 1 ∧ (v.recallOf 0).line.stable = some .low ∧ (v.recallOf 0).fixed = false
      ∧ (v.recallOf 0).state = .inRecall ∧ v.notices = u.notices := by decide +kernel

theorem test_serviceKeyChange :
    let s : State := { card with key := { raw := .low, stable := some .high, since := some 900 } }
    Runs s ∧ Within s (900 + 100) ∧ Level.high ≠ s.key.raw
      ∧ (after .serviceKeyChange s).keyOn = false := by decide +kernel

def lineTurned (raw stable : Level) (mode : RecallMode) (x : RecallState) : State :=
  card.mapRecall 0 fun r => { r with
    cfg := { r.cfg with mode := mode }, line := { raw := raw, stable := some stable, since := some 0 }, state := x }

theorem test_lineBecomesActive :
    let s := lineTurned .high .low .level .clear
    Runs s ∧ Within s (0 + 100) ∧ (s.recallOf 0).fixed = true ∧ (s.group 0).avail = .inService
      ∧ (s.recallOf 0).cfg.polarity.active .high = true
      ∧ ((after (.lineBecomesActive 0) s).recallOf 0).state = .inRecall
      ∧ ((after (.lineBecomesActive 0) s).group 0).avail = .inRecall
      ∧ ((after (.lineBecomesActive 0) (lineTurned .high .low .latched .held)).recallOf 0).state
          = .inRecall := by decide +kernel

theorem test_lineBecomesInactive :
    let s := lineTurned .low .high .latched .inRecall
    Runs s ∧ (s.recallOf 0).cfg.polarity.active .low = false
      ∧ ((after (.lineBecomesInactive 0) s).recallOf 0).state = .held
      ∧ ((after (.lineBecomesInactive 0) (lineTurned .low .high .level .inRecall)).recallOf 0).state
          = .clear := by decide +kernel

theorem test_inFrame_and_byteGap :
    Runs card ∧ card.rxOf (.group 0) = .hunting
      ∧ (after (.inFrame (.group 0) 0xC3) card).rxOf (.group 0) = .inFrame 0 []
      ∧ (after (.inFrame (.group 0) 0x00) card).rxOf (.group 0) = .hunting
      ∧ Within (after (.inFrame .site 0xC3) card) (0 + Link.gapLimit .site)
      ∧ (after (.byteGapTimeout .site none) (after (.inFrame .site 0xC3) card)).rxOf .site = .hunting
      ∧ (after (.byteGapTimeout .site (some 0xC3)) (after (.inFrame .site 0xC3) card)).rxOf .site
          = .inFrame 20 [] := by decide +kernel

/-- The gap is counted from the last byte collected; a late byte and the last CRC byte change nothing. -/
theorem test_inFrame_collects :
    let s : State := { card.setRx .site (.inFrame 0 [0]) with time := { seconds := 0, ms := 15 } }
    let t := after (.inFrame .site 0) s
    t.rxOf .site = .inFrame 15 [0, 0] ∧ (after (.byteGapTimeout .site none) t).time.ms = 35
      ∧ (after (.inFrame .site 0) { s with time := { seconds := 0, ms := 21 } }).rxOf .site = .inFrame 0 [0]
      ∧ frameEnds .site [0, 0, 0x81, 5, 0, 0] = true
      ∧ (after (.inFrame .site 0) (card.setRx .site (.inFrame 0 [0, 0, 0x81, 5, 0]))).rxOf .site
          = .inFrame 0 [0, 0, 0x81, 5, 0] := by decide +kernel

theorem test_frameDiscard :
    discardCause .site [0x04, 0x01] = some .length ∧ discardCause .site [0x04, 0x00] = none
      ∧ discardCause (.reader 3) [0, 0, 0x62, 0, 0, 0] = some .crc
      ∧ (after (.frameDiscard .site [0x04, 0x01]) card).faults.isSet .siteFrame = true
      ∧ ((after (.frameDiscard .site [0x04, 0x01]) card).faults.first.map FirstFault.kind)
          = some .clockUnset := by decide +kernel

theorem test_siteFrameReceive :
    let full : State := { card with site := { card.site with queue := List.replicate 4 (frame 0x02 []) } }
    Runs card ∧ card.site.queue.length < 4 ∧ 4 ≤ full.site.queue.length
      ∧ (after (.siteFrameReceive 0x02 (req [])) card).site.queue = [frame 0x02 []]
      ∧ (after (.siteFrameReceive 0x02 (req [])) full).faults.isSet .siteOverrun = true := by decide +kernel

theorem test_transmitComplete :
    let n : QueuedNotice := .notice { uptime := 0, body := .readerOnline 3 }
    let w := replyFrame (frame 0x02 []) .ok [] false
    let s : State := { card with notices := { card.notices with queue := [n], pending := 1 <<< 6 } }
    let u : State := { s with site := { s.site with sending := some w, waiting := some w } }
    Runs s ∧ Runs u ∧ (after .transmitComplete s).site.sending = some (n.frame 0)
      ∧ (after .transmitComplete s).site.seq = 1
      ∧ (after .transmitComplete s).notices.queue = [.summary .clock]
      ∧ (after .transmitComplete u).site.waiting = none
      ∧ (after .transmitComplete card).site.sending = none := by decide +kernel

/-! ### Requests -/

theorem test_status_in_start_up :
    let s := State.reset
    PortReady s (frame 0x02 [])
      ∧ refuses (.status (req [])) s (frame 0x02 []) .ok s.statusBytes = true := by
  decide +kernel

theorem test_identify_answers :
    PortReady State.reset (frame 0x01 [])
      ∧ ((after (.identify (req [])) State.reset).site.sending.map SiteTx.type) = some 0x81 := by
  decide +kernel

theorem test_reads :
    PortOpen card (frame 0x04 []) ∧ PortOpen card (frame 0x10 []) ∧ PortOpen card (frame 0x15 [0, 255])
      ∧ PortOpen card (frame 0x15 [1, 8]) ∧ PortOpen card (frame 0x1D []) ∧ PortOpen card (frame 0x21 [31])
      ∧ PortOpen card (frame 0x25 [5]) ∧ PortOpen card (frame 0x28 [0, 0, 0, 0, 0])
      ∧ ((after (.clockRead (req [])) card).site.sending.map fun t => t.payload.length) = some 13
      ∧ ((after (.zoneRead (req [])) card).site.sending.map fun t => t.payload.length) = some 615
      ∧ ((after (.profileRead (req [0, 8])) card).site.sending.map fun t => t.payload.length)
          = some 26 := by decide +kernel

theorem test_more_reads :
    ((after (.timingRead (req [])) card).site.sending.map SiteTx.payload)
        = some [0, 40, 15, 10, 2, 88, 0, 30]
      ∧ ((after (.holidayRead (req [])) card).site.sending.map SiteTx.payload) = some [0, 0]
      ∧ ((after (.faultRead (req [])) card).site.sending.map fun t => t.payload.take 7)
          = some [0, 0x04, 0x00, 0, 0, 0x0B, 0xA8]
      ∧ ((after (.transferRead (req [0, 0, 0, 0, 0])) card).site.sending.map fun t => t.payload.take 2)
          = some [0, 0] := by decide +kernel

theorem test_reads_of_parts :
    ((after (.channelRead (req [3])) card).site.sending.map fun t => t.payload.take 1) = some [0]
      ∧ ((after (.groupRead (req [0])) card).site.sending.map fun t => t.payload.take 1) = some [0]
      ∧ ((after (.storeStatus (req [])) card).site.sending.map fun t => t.payload.take 1) = some [0] := by
  decide +kernel

theorem test_general_checks :
    PortReady State.reset (frame 0x05 []) ∧ PortReady State.reset (frame 0x04 [])
      ∧ State.reset.site.phase ≠ .open_ ∧ PortOpen card (frame 0x33 [1]) ∧ PortOpen card (frame 0x29 [0])
      ∧ refuses (.unknownType 0x05 (req [])) State.reset (frame 0x05 []) .unknownType [] = true
      ∧ refuses (.clockRead (req [])) State.reset (frame 0x04 []) .starting [] = true
      ∧ refuses (.timingRead (req [1])) card (frame 0x33 [1]) .length [] = true
      ∧ refuses (.transferPurge (req [0])) card (frame 0x29 [0]) .length [] = true := by
  decide +kernel

theorem test_key_off :
    let p := List.replicate 614 (0 : Byte)
    locked.keyOn = false ∧ PortOpen locked (frame 0x1C p) ∧ PortOpen locked (frame 0x18 [0])
      ∧ PortOpen locked (frame 0x24 [0, 0, 0]) ∧ PortOpen locked (frame 0x14 [240, 0, 0])
      ∧ refuses (.zoneWrite (req p)) locked (frame 0x1C p) .guarded [] = true
      ∧ refuses (.holidayWrite (req [0])) locked (frame 0x18 [0]) .guarded [] = true
      ∧ refuses (.profileWrite (req [240, 0, 0])) locked (frame 0x14 [240, 0, 0]) .guarded [] = true := by decide +kernel

theorem test_key_off_more :
    let t := List.replicate 7 (0 : Byte)
    let f := List.replicate 4 (0 : Byte)
    PortOpen locked (frame 0x32 t) ∧ PortOpen locked (frame 0x2F f)
      ∧ refuses (.groupSet (req [0, 0, 0])) locked (frame 0x24 [0, 0, 0]) .guarded [] = true
      ∧ refuses (.timingSet (req t)) locked (frame 0x32 t) .guarded [] = true
      ∧ refuses (.faultSet (req f)) locked (frame 0x2F f) .guarded [] = true := by
  decide +kernel

/-- Week-minute 10079 and second 59 are taken, 10080 and 60 are not. -/
theorem test_clockSet :
    let p : List Byte := [0, 9, 0x27, 0x5F, 59]
    PortOpen card (frame 0x03 p) ∧ field p 2 2 = 10079 ∧ field p 4 1 = 59
      ∧ (after (.clockSet (req p)) card).cal =
          { state := .set, day := 9, weekMinute := 10079, second := 59, dayLimitReported := false, uptime := 0 }
      ∧ refuses (.clockSet (req [0, 9, 0x27, 0x60, 59])) card (frame 0x03 [0, 9, 0x27, 0x60, 59]) .range [] = true
      ∧ refuses (.clockSet (req [0, 9, 0, 0, 60])) card (frame 0x03 [0, 9, 0, 0, 60]) .range [] = true := by decide +kernel

theorem test_switchArm :
    PortOpen card (frame 0x16 [1, 0x27, 0x5F])
      ∧ (after (.switchArm (req [1, 0x27, 0x5F])) card).banks.arm = .at 10079
      ∧ (after (.switchArm (req [0, 0, 0])) card).banks.arm = .nextMinute
      ∧ refuses (.switchArm (req [1, 0x27, 0x60])) card (frame 0x16 [1, 0x27, 0x60]) .range [] = true
      ∧ refuses (.switchArm (req [2, 0, 0])) card (frame 0x16 [2, 0, 0]) .range [] = true := by
  decide +kernel

theorem test_switchDisarm :
    let s : State := { card with banks := { card.banks with arm := .nextMinute } }
    PortOpen s (frame 0x17 []) ∧ s.banks.arm ≠ .none ∧ (after (.switchDisarm (req [])) s).banks.arm = .none
      ∧ refuses (.switchDisarm (req [])) card (frame 0x17 []) .notArmed [] = true := by
  decide +kernel

def aClause (stop : List Byte) : List Byte := List.replicate 17 0xFF ++ [0, 0] ++ stop

theorem test_profileWrite :
    let good := [8, 1, 1] ++ aClause [0x05, 0x9F]
    let bad := [8, 1, 1] ++ aClause [0x05, 0xA0]
    PortOpen card (frame 0x14 good) ∧ good.length = 3 + 21 * byteAt good 2 ∧ byteAt good 0 < 240
      ∧ (clauseOf good 0).stop = 1439
      ∧ ((after (.profileWrite (req good)) card).banks.shadow.toList.getD 8 Profile.default).serviceCar = true
      ∧ refuses (.profileWrite (req bad)) card (frame 0x14 bad) .range [0] = true
      ∧ refuses (.profileWrite (req [8, 2, 0])) card (frame 0x14 [8, 2, 0]) .range [255] = true := by decide +kernel

theorem test_profileWrite_of_nine_clauses :
    let p := [8, 0, 9] ++ (List.replicate 9 (aClause [0, 0])).flatten
    PortOpen card (frame 0x14 p) ∧ p.length = 3 + 21 * byteAt p 2 ∧ 8 < byteAt p 2
      ∧ refuses (.profileWrite (req p)) card (frame 0x14 p) .range [8] = true := by
  decide +kernel

theorem test_holidayWrite :
    PortOpen card (frame 0x18 [2, 0, 1, 0, 2]) ∧ card.keyOn = true
      ∧ (after (.holidayWrite (req [2, 0, 1, 0, 2])) card).banks.holidays = [1, 2]
      ∧ (after (.holidayWrite (req [0])) card).store.workQ = [.save 0]
      ∧ refuses (.holidayWrite (req [2, 0, 2, 0, 2])) card (frame 0x18 [2, 0, 2, 0, 2]) .range [1] = true := by decide +kernel

theorem test_holidayWrite_of_65_days :
    let p : List Byte := 65 :: List.replicate 130 0
    PortOpen card (frame 0x18 p) ∧ p.length = 1 + 2 * byteAt p 0 ∧ 64 < byteAt p 0
      ∧ refuses (.holidayWrite (req p)) card (frame 0x18 p) .range [64] = true := by
  decide +kernel

theorem test_timingSet :
    let p : List Byte := [0, 255, 1, 0, 0, 0xFF, 0xFF]
    PortOpen card (frame 0x32 p) ∧ p.length = 7 ∧ card.keyOn = true
      ∧ (after (.timingSet (req p)) card).timing =
          { badgeWait := 20, interKey := 50, carHold := 3, validity := 120, batchIdle := 300 } := by
  decide +kernel

theorem test_noticeSet :
    let s : State := { card with notices := { card.notices with pending := 1 } }
    PortOpen s (frame 0x2C [0xFF]) ∧ s.notices.enabled .admission = false
      ∧ s.notices.isPending .admission = true
      ∧ (after (.noticeSet (req [0xFF])) s).notices.queue = [.summary .admission] := by decide +kernel

/-- Two classes made ENABLED with one place left: the lower class takes it. -/
theorem test_noticeSet_with_one_place :
    let s : State := { card with notices := { card.notices with
      enables := 0xFC, pending := 3, queue := List.replicate 63 (.summary .fault) } }
    let t := after (.noticeSet (req [0xFF])) s
    t.notices.queue.getLast? = some (.summary .admission) ∧ t.notices.queue.length = 64
      ∧ t.notices.isPending .admission = false ∧ t.notices.isPending .security = true := by decide +kernel

theorem test_faultSet :
    PortOpen card (frame 0x2F [0x0F, 0xFF, 0x0F, 0xFF])
      ∧ (after (.faultSet (req [0x0F, 0xFF, 0x0F, 0xFF])) card).faults.masks = 0xFFF
      ∧ (after (.faultSet (req [0, 0, 0x0F, 0xFF])) card).faults.line = true
      ∧ refuses (.faultSet (req [0x10, 0, 0, 0])) card (frame 0x2F [0x10, 0, 0, 0]) .range [] = true := by decide +kernel

theorem test_faultClear :
    let s : State := { card with cal := { card.cal with state := .set } }
    PortOpen s (frame 0x2E [0x04, 0x00]) ∧ s.persisting .clockUnset = none
      ∧ (after (.faultClear (req [0x04, 0x00])) s).faults.status = 0
      ∧ (after (.faultClear (req [0x04, 0x00])) s).faults.first = none
      ∧ (after (.faultClear (req [0x04, 0x00])) card).faults.isSet .clockUnset = true
      ∧ refuses (.faultClear (req [0x10, 0x00])) card (frame 0x2E [0x10, 0x00]) .range [] = true := by decide +kernel

theorem test_restart :
    let s := after (.restartArm (req [])) card
    let idle : State := { s with site := { s.site with sending := none } }
    PortOpen card (frame 0x30 []) ∧ s.site.restartArm = true ∧ PortOpen idle (frame 0x31 [])
      ∧ ((after (.restart (req [])) idle).site.sending.map SiteTx.restart) = some true
      ∧ refuses (.restart (req [])) card (frame 0x31 []) .notArmed [] = true := by
  decide +kernel

/-! ### Requests: the map, the channels, the groups, the Transfer Table, the batch -/

theorem test_zoneWrite :
    let p := List.replicate 614 (0 : Byte)
    PortOpen card (frame 0x1C p) ∧ p.length = 614
      ∧ (∀ n ∈ [1, 2, 3, 4, 5, 6, 7, 8, 9], zoneCheckItem p (zoneOf p) n = none)
      ∧ ((after (.zoneWrite (req p)) card).zone.landing 1).present = false := by decide +kernel

theorem test_zoneWrite_refused :
    let p := (0x08 : Byte) :: List.replicate 613 0
    PortOpen card (frame 0x1C p) ∧ zoneCheckItem p (zoneOf p) 1 = some 0
      ∧ refuses (.zoneWrite (req p)) card (frame 0x1C p) .range [1, 0] = true := by
  decide +kernel

theorem test_zoneWrite_onto_a_silent_link :
    let s : State := { card.mapGroup 0 (fun m => { m with link := .silent }) with zone := ZoneMap.default }
    let p := card.zone.bytes
    (s.zoneGroup 0).present = false ∧ ((zoneOf p).group 0).present = true ∧ (s.group 0).link = .silent
      ∧ (after (.zoneWrite (req p)) s).faults.isSet .groupOffline = true := by decide +kernel

/-- The notice names the group; a SILENT link of a group the map leaves absent raises nothing. -/
theorem test_zoneWrite_notices :
    let s : State :=
      { card with zone := ZoneMap.default, groups := Vector.replicate 6 { manager with link := .silent } }
    let t := after (.zoneWrite (req card.zone.bytes)) s
    let u := after (.zoneWrite (req (List.replicate 614 0))) s
    t.notices.queue = [.notice { uptime := 0, body := .faultRaised .groupOffline true 0 false none },
        .notice { uptime := 0, body := .faultRaised .groupOffline true 1 true none }]
      ∧ (s.group 2).link = .silent ∧ ((zoneOf card.zone.bytes).group 2).present = false
      ∧ u.faults = s.faults ∧ u.notices = s.notices := by decide +kernel

theorem test_channelSet_ranges :
    PortOpen card (frame 0x20 [32, 0, 5])
      ∧ refuses (.channelSet (req [32, 0, 5])) card (frame 0x20 [32, 0, 5]) .range [1] = true
      ∧ refuses (.channelSet (req [31, 3, 5])) card (frame 0x20 [31, 3, 5]) .range [2] = true
      ∧ refuses (.channelSet (req [31, 1, 128, 5])) card (frame 0x20 [31, 1, 128, 5]) .range [3] = true
      ∧ refuses (.channelSet (req [31, 2, 6, 0, 5])) card (frame 0x20 [31, 2, 6, 0, 5]) .range [3] = true
      ∧ refuses (.channelSet (req [31, 2, 5, 8, 5])) card (frame 0x20 [31, 2, 5, 8, 5]) .range [4] = true := by decide +kernel

theorem test_channelSet :
    let moved := after (.channelSet (req [3, 2, 5, 7, 255])) waiting
    let same := after (.channelSet (req [3, 1, 0, 0])) card
    PortOpen card (frame 0x20 [3, 1, 0, 0]) ∧ (same.reader 3).cfg.hold = 2 ∧ (same.reader 3).state = .idle
      ∧ (moved.reader 3).cfg = { place := .car 5 7, hold := 15 } ∧ (moved.reader 3).state = .pending
      ∧ (moved.reader 3).mark = .discard
      ∧ ((after (.channelSet (req [3, 0, 5])) card).reader 3).state = .unused
      ∧ ((after (.channelSet (req [0, 1, 127, 5])) card).reader 0).state = .idle := by decide +kernel

theorem test_channelSet_on_a_dead_line :
    let s : State := { card with cal := { card.cal with uptime := 3 } }
    (s.reader 0).lineLive s.cal.uptime = false
      ∧ ((after (.channelSet (req [0, 1, 127, 5])) s).reader 0).state = .offline
      ∧ (after (.channelSet (req [0, 1, 127, 5])) s).faults.isSet .readerOffline = true := by decide +kernel

theorem test_groupSet :
    PortOpen card (frame 0x24 [0, 1, 0]) ∧ card.keyOn = true
      ∧ ((after (.groupSet (req [0, 1, 0])) card).recallOf 0).state = .inRecall
      ∧ ((after (.groupSet (req [0, 1, 0])) card).group 0).avail = .inRecall
      ∧ ((after (.groupSet (req [5, 0, 1])) card).recallOf 5).cfg.mode = .latched := by decide +kernel

theorem test_groupResume :
    let s := lineTurned .low .low .latched .held
    PortOpen s (frame 0x26 [0]) ∧ ((after (.groupResume (req [0])) s).recallOf 0).state = .clear
      ∧ refuses (.groupResume (req [0])) card (frame 0x26 [0]) .notArmed [] = true
      ∧ refuses (.groupResume (req [6])) card (frame 0x26 [6]) .range [] = true
      ∧ (let u := lineTurned .high .high .level .inRecall
         refuses (.groupResume (req [0])) u (frame 0x26 [0]) .lineActive [] = true) := by
  decide +kernel

theorem test_transferPurge :
    let e : TransferEntry := { badge := 7, landing := 0, final := 1, legs := 1, setAt := 0, expiry := 0 }
    let s : State := { card with transfer := { entries := [e], evictions := 0 } }
    PortOpen s (frame 0x29 [0, 0, 0, 0, 7])
      ∧ (after (.transferPurge (req [0, 0, 0, 0, 7])) s).transfer.entries = []
      ∧ refuses (.transferPurge (req [0, 0, 0, 0, 8])) s (frame 0x29 [0, 0, 0, 0, 8]) .notFound [] = true
      ∧ refuses (.transferPurge (req [0, 0, 0, 0, 0])) s (frame 0x29 [0, 0, 0, 0, 0]) .range [] = true := by decide +kernel

def opened : State :=
  { card with batch := { Batch.startUp with state := .open_, deadline := some 30 } }

theorem test_batchOpen :
    PortOpen card (frame 0x08 []) ∧ card.batch.state = .closed ∧ card.store.work = none
      ∧ (after (.batchOpen (req [])) card).batch = opened.batch
      ∧ refuses (.batchOpen (req [])) opened (frame 0x08 []) .busy [] = true
      ∧ (let s : State := { card with dir := { card.dir with condition := .unusable } }
         refuses (.batchOpen (req [])) s (frame 0x08 []) .storeFault [] = true) := by
  decide +kernel

theorem test_batchAbandon :
    PortOpen opened (frame 0x0C []) ∧ (after (.batchAbandon (req [])) opened).batch = Batch.startUp
      ∧ refuses (.batchAbandon (req [])) card (frame 0x0C []) .notOpen [] = true
      ∧ (let s : State := { card with batch := { card.batch with state := .committing } }
         refuses (.batchAbandon (req [])) s (frame 0x0C []) .busy [] = true) := by
  decide +kernel

/-- Badge 9, ACTIVE, profile 8, no home, no expiry, no budget. -/
def put9 (profile : Byte) : List Byte := [0, 0, 0, 0, 9, 0, profile, 0, 0xFF, 0, 0, 0, 0]

theorem test_stagePut :
    let s := after (.stagePut (req (put9 8))) opened
    PortOpen opened (frame 0x09 (put9 8)) ∧ recordFailure (put9 8) = none ∧ s.batch.edits.length = 1
      ∧ (s.site.sending.map SiteTx.payload) = some [0, 1, 0]
      ∧ refuses (.stagePut (req (put9 8))) card (frame 0x09 (put9 8)) .notOpen [] = true
      ∧ (recordFailure [0, 0, 0, 0, 0, 0, 8, 0, 0xFF, 0, 0, 0, 0]) = some 1
      ∧ (let u : State := { opened with batch := s.batch }
         ((after (.stagePut (req (put9 8))) u).site.sending.map SiteTx.payload) = some [0, 1, 1]) := by
  decide +kernel

theorem test_stagePut_at_a_full_buffer :
    let e (n : Nat) : Edit := { badge := n + 100, kind := .drop }
    let s : State := { opened with batch := { opened.batch with edits := (List.range 64).map e } }
    64 ≤ s.batch.edits.length ∧ (∀ x ∈ s.batch.edits, x.badge ≠ 9)
      ∧ refuses (.stagePut (req (put9 8))) s (frame 0x09 (put9 8)) .full [] = true := by
  decide +kernel

theorem test_stage_with_the_key_off :
    let s : State := { locked with batch := opened.batch }
    let u : State := { s with batch := { s.batch with edits :=
      [{ badge := 9, kind := .put { holder with badge := 9, profile := 240 } }] } }
    s.keyOn = false ∧ refuses (.stagePut (req (put9 240))) s (frame 0x09 (put9 240)) .guarded [] = true
      ∧ refuses (.stageDrop (req [0, 0, 0, 0, 9])) u (frame 0x0A [0, 0, 0, 0, 9]) .guarded [] = true
      ∧ (after (.stageDrop (req [0, 0, 0, 0, 9])) s).store.prio = [.portRead 9]
      ∧ (let v : State := { s with dir := { s.dir with condition := .unusable } }
         refuses (.stageDrop (req [0, 0, 0, 0, 9])) v (frame 0x0A [0, 0, 0, 0, 9]) .storeFault [] = true) := by decide +kernel

theorem test_stageDrop :
    (after (.stageDrop (req [0, 0, 0, 0, 9])) opened).batch.edits = [{ badge := 9, kind := .drop }]
      ∧ refuses (.stageDrop (req [0, 0, 0, 0, 0])) opened (frame 0x0A [0, 0, 0, 0, 0]) .range [1] = true := by decide +kernel

/-- The card with a batch of one edit open, badge 9 to be added. -/
def staged : State :=
  { opened with batch := { opened.batch with edits :=
      [{ badge := 9, kind := .put { holder with badge := 9, budget := none } }] } }

theorem test_batchCommit :
    PortOpen staged (frame 0x0B []) ∧ staged.batch.edits ≠ [] ∧ staged.store.counter ≤ 4294967295
      ∧ (after (.batchCommit (req [])) staged).store.prio = [.planRead]
      ∧ (after (.batchCommit (req [])) opened).batch = Batch.startUp
      ∧ refuses (.batchCommit (req [])) card (frame 0x0B []) .notOpen [] = true := by
  decide +kernel

theorem test_compact :
    PortOpen card (frame 0x0F []) ∧ card.batch.state = .closed ∧ card.store.work = none
      ∧ max 1 ((card.dir.recordCount + 63) / 64) ≤ card.store.available ∧ card.dir.index ≠ []
      ∧ (after (.compact (req [])) card).store.prio = [.compactRead]
      ∧ (after (.compact (req [])) card).store.counter = 2
      ∧ refuses (.compact (req [])) opened (frame 0x0F []) .busy [] = true := by
  decide +kernel

theorem test_compact_without_pages :
    let s : State := { card with store :=
      { card.store with pageState := (Vector.replicate 544 PageState.retired).set 0 .data } }
    s.store.available < max 1 ((s.dir.recordCount + 63) / 64)
      ∧ refuses (.compact (req [])) s (frame 0x0F []) .noPages [0, 1, 0, 0] = true := by
  decide +kernel

theorem test_recordRead :
    PortOpen card (frame 0x0D [0, 0, 0, 0, 7])
      ∧ (after (.recordRead (req [0, 0, 0, 0, 7])) card).store.prio = [.portRead 7]
      ∧ refuses (.recordRead (req [0, 0, 0, 0, 0])) card (frame 0x0D [0, 0, 0, 0, 0]) .range [] = true := by decide +kernel

theorem test_directoryScan :
    let s : State := { card with dir := { card.dir with cursor := some 7 } }
    PortOpen card (frame 0x0E [0, 0, 0, 0, 1])
      ∧ (after (.directoryScan (req [0, 0, 0, 0, 1])) card).store.prio = [.scanRead]
      ∧ ((after (.directoryScan (req [0, 0, 0, 0, 0])) s).site.inHand.map InHand.wait) = some (.scan 8 8 [])
      ∧ refuses (.directoryScan (req [0, 0, 0, 0, 0])) card (frame 0x0E [0, 0, 0, 0, 0]) .notFound [] = true := by decide +kernel

/-- A read placed while an erase runs suspends it. -/
theorem test_recordRead_suspends_an_erase :
    let s : State := { card with store := { card.store with
      op := some { kind := .saveErase 3, suspensions := 15, suspended := false } } }
    let t := after (.recordRead (req [0, 0, 0, 0, 7])) s
    PortOpen s (frame 0x0D [0, 0, 0, 0, 7])
      ∧ t.store.op = some { kind := .saveErase 3, suspensions := 16, suspended := true } ∧ t.store.capped = 1
      ∧ t.queue = s.queue ∧ t.engine = s.engine := by decide +kernel

/-! ### Reader lines -/

def shows (s : State) : State :=
  s.mapReader 3 fun ch => { ch with state := .showing, displayDeadline := some 4 }

theorem test_badge :
    Runs card ∧ ((after (.badge 3 7) card).reader 3).state = .entry
      ∧ ((after (.badge 3 7) card).reader 3).tx = [.tone .key]
      ∧ ((after (.badge 3 0) card).reader 3).tx = [.tone .refuse]
      ∧ ((after (.badge 3 7) (shows card)).reader 3).tx = [.blank, .tone .key] := by decide +kernel

theorem test_badge_at_a_car :
    Runs card ∧ (card.reader 4).cfg.place = .car 0 0
      ∧ (after (.badge 4 7) card).store.prio = [.engineRead 7]
      ∧ ((after (.badge 4 7) card).reader 4).mark = .owned
      ∧ ((after (.key 4 0x31) card).reader 4).tx = [.tone .refuse]
      ∧ (let s : State := { card with engine := .evaluating want1 none }
         (after (.badge 4 7) s).queue =
           [{ channel := 4, badge := some 7, ask := .car 0 0 none, arrival := 0 }])
      ∧ (let s : State := { card with engine := .evaluating want1 none, queue := List.replicate 64 want1 }
         ((after (.badge 4 7) s).reader 4).state = .showing) := by decide +kernel

theorem test_key :
    let e := entering .interKey [0x31]
    ((after (.key 3 0x31) card).reader 3).state = .entry
      ∧ ((after (.key 3 0x18) e).reader 3).entry = none
      ∧ (after (.key 3 0x0D) e).engine = .evaluating want1 none
      ∧ ((after (.key 3 0x0D) (entering .interKey [0x39])).reader 3).state = .showing
      ∧ ((after (.key 3 0x31) (entering .interKey [0x31, 0x31, 0x31])).reader 3).tx = [.tone .refuse]
      ∧ ((after (.key 3 0x31) (shows card)).reader 3).tx = [.blank, .tone .key]
      ∧ ((after (.key 3 0x18) (shows card)).reader 3).state = .idle := by decide +kernel

/-- ENTER without characters at an idle engine, by a badge and by none, and ENTER at a full queue. -/
theorem test_enter :
    let none_ := (entering .badgeWait []).mapReader 3 fun ch =>
      { ch with entry := ch.entry.map fun e => { e with badge := none } }
    let full : State := { entering .interKey [0x31] with
      engine := .evaluating want1 none, queue := List.replicate 64 want1 }
    (after (.key 3 0x0D) (entering .badgeWait [])).engine =
        .evaluating { want1 with ask := .lobby none 0 } none
      ∧ (after (.key 3 0x0D) none_).engine = .idle
      ∧ ((after (.key 3 0x0D) none_).reader 3).tx.take 1 = [.tone .key]
      ∧ (after (.key 3 0x0D) { entering .interKey [0x31] with
          dir := { card.dir with condition := .unusable } }).engine = .idle
      ∧ ((after (.key 3 0x0D) full).reader 3).tx =
        [.tone .key, .show_ .busy none none none, .tone .busy] := by decide +kernel

theorem test_key_while_pending_starting_unused_offline :
    let off := card.mapReader 3 fun ch => { ch with state := .offline }
    let mark := card.mapReader 3 fun ch => { ch with state := .offline, mark := .discard }
    ((after (.key 3 0x31) waiting).reader 3).tx = [.tone .busy]
      ∧ ((after (.badge 0 7) card).reader 0).tx = []
      ∧ ((after (.key 3 0x31) State.reset).reader 3).tx = [.show_ .starting none none none, .tone .refuse]
      ∧ ((after (.badge 3 7) off).reader 3).state = .entry
      ∧ ((after (.badge 3 7) mark).reader 3).state = .pending := by decide +kernel

theorem test_alive_and_unknown_frames :
    let off := card.mapReader 3 fun ch => { ch with state := .offline }
    ((after (.alive 3) off).reader 3).state = .idle
      ∧ readerLength 0x61 ≠ some 2
      ∧ ((after (.unknownReaderFrame 3 0x61 [1, 2]) card).reader 3).tx = []
      ∧ ((after (.unknownReaderFrame 3 0x61 [0x31]) card).reader 3).state = .entry := by decide +kernel

/-! ### The engine and the store -/

theorem test_standings :
    card.standing (some (.found holder 0 0 0)) = .good
      ∧ card.standing (some (.found { holder with expiry := some 5 } 0 0 0)) = .clockUnset
      ∧ ({ card with cal := { card.cal with state := .set, day := 5 } } : State).standing
          (some (.found { holder with expiry := some 5 } 0 0 0)) = .good
      ∧ ({ card with cal := { card.cal with state := .set, day := 6 } } : State).standing
          (some (.found { holder with expiry := some 5 } 0 0 0)) = .expired
      ∧ card.permitted .good (some (.found holder 0 0 0)) = 7 ∧ card.permitted .none none = 5
      ∧ card.tripsLeft 7 (some (.found holder 0 0 0)) = true
      ∧ card.tripsLeft 7 (some (.found holder 1 0 0)) = false := by decide +kernel

theorem test_stages :
    let ok := some (LookupResult.found holder 0 0 0)
    (card.judge want1 ok).ruling = .order 0 call1.kind (some 7)
      ∧ (card.judge { want1 with badge := none } none).ruling = .answer (.denied .badgeRequired) (some 1)
      ∧ (card.judge { want1 with badge := none, ask := .lobby (some 2) 0 } none).ruling =
          .order 1 (.call [{ group := 1, src := 0, dst := 2 }] 2 false false none .normal) none
      ∧ (card.judge { want1 with ask := .lobby (some 127) 0 } ok).ruling
          = .answer (.denied .notPermitted) (some 127)
      ∧ (card.judge want1 (some (.found holder 1 0 0))).ruling = .answer (.denied .noTrips) (some 1)
      ∧ (card.judge want1 (some (.absent 0))).ruling = .answer (.denied .unknown) (some 1) := by
  decide +kernel

theorem test_stages_of_a_car :
    let ok := some (LookupResult.found holder 0 0 0)
    let r : Request := { channel := 4, badge := some 7, ask := .car 0 0 none, arrival := 0 }
    card.addition 0 none .good ok = 2
      ∧ (card.judge r ok).ruling = .order 0 (.enable 0 2 10) (some 7)
      ∧ (card.judge r (some (.absent 0))).ruling = .answer (.denied .unknown) none
      ∧ ((card.mapGroup 0 fun m => { m with avail := .offline }).judge r ok).ruling
          = .answer .outOfService none := by decide +kernel

def reading (e : PrioEntry) (s : State) : State := { s with store := { s.store with prio := [e] } }

theorem test_lookup_for_the_engine :
    let s := reading (.engineRead 7) { waiting with engine := .evaluating want1 none }
    let t := after (.lookup true) s
    Serves s (.engineRead 7) [] ∧ s.dir.entryFor 7 = some entry0 ∧ s.store.readPage entry0 = some [holder]
      ∧ (after (.lookup false) s).engine = .evaluating want1 (some (.found holder 0 0 0))
      ∧ (t.group 0).orders = [call1] ∧ t.engine = .idle ∧ s.queue = [] := by decide +kernel

theorem test_lookup_denied :
    let s : State := { waiting with engine := .evaluating want1 (some (.absent 0)) }
    let t := after (.lookup true) s
    Runs s ∧ s.queue = [] ∧ (t.reader 3).state = .showing ∧ (t.reader 3).mark = .none := by decide +kernel

theorem test_lookup_for_the_port :
    let s := reading (.portRead 7) { card with site :=
      { card.site with inHand := some { frame := frame 0x0D [0, 0, 0, 0, 7], wait := .recordRead 7 } } }
    Serves s (.portRead 7) []
      ∧ ((after (.lookup true) s).site.sending.map fun t => t.payload.take 6) = some [0, 0, 0, 0, 0, 7] := by
  decide +kernel

theorem test_arbiter :
    let s : State := { card with store := { card.store with workQ := [.logErase 1] } }
    let u : State := { card with store := { card.store with eraseQ := [9] } }
    s.arbitrate.store.op = some { kind := .eraseLog 1, suspensions := 0, suspended := false }
      ∧ (u.arbitrate.store.stateOf 9).isErasing = true ∧ card.arbitrate.store.op = none := by decide +kernel

/-- An ERASE is suspended up to 16 times, the erase that reaches the 16th counted. -/
theorem test_suspensions :
    let s (n : Nat) : State := { card with store := { card.store with
      op := some { kind := .saveErase 3, suspensions := n, suspended := false } } }
    let t (n : Nat) := (s n).placePrio (.mark 7)
    (t 3).store.op = some { kind := .saveErase 3, suspensions := 4, suspended := true }
      ∧ (t 3).store.capped = 0 ∧ (t 15).store.capped = 1 ∧ (t 16).store.op = (s 16).store.op
      ∧ (t 16).store.prio = [.mark 7] := by decide +kernel

def headed (workQ : List WorkEntry) (eraseQ : List Page) : State :=
  { card with store := { card.store with
    pageState := Vector.replicate 544 .data, workQ := workQ, eraseQ := eraseQ } }

/-- A PROGRAM that finds no page FREE lets the erase queue run. -/
theorem test_arbiter_without_a_free_page :
    ((headed [.program 0] [9]).arbitrate.store.op.map ArrayOp.kind) = some (.eraseDir 9)
      ∧ (headed [.program 0] []).arbitrate.store.op = none
      ∧ (headed [.save 0] []).arbitrate.store.op = none
      ∧ ((headed [.save 63] []).arbitrate.store.op.map ArrayOp.kind) = some (.saveErase 63) := by
  have data (e : List Page) (p : Page) : (headed [.program 0] e).store.stateOf p = .data :=
    Vector.getElem_replicate _
  have free (e : List Page) : (headed [.program 0] e).store.lowestFree = none := by
    unfold Store.lowestFree
    simp only [data, PageState.isFree]
    exact List.find?_eq_none.mpr fun _ _ => nofun
  have none_ (e : List Page) := arbitrate_of_no_free (headed [.program 0] e) rfl rfl rfl rfl (free e)
  rw [none_, none_]
  decide +kernel

theorem test_arbiter_after_the_erases_of_a_save :
    ((headed [.save 64] []).arbitrate.store.op.map ArrayOp.kind) = some (.saveProgram 0)
      ∧ ((headed [.save (63 + imagePageCount + 1)] []).arbitrate.store.op.map ArrayOp.kind)
        = some .saveMark := by
  have h : 1 ≤ imagePageCount := by unfold imagePageCount; omega
  have a : ¬ 63 + imagePageCount + 1 < 64 := by omega
  have b : ¬ 63 + imagePageCount + 1 < 64 + imagePageCount := by omega
  simp [headed, State.arbitrate, card, State.mapStore, ArrayOp.begin_, Store.factory, Nat.succ_le_iff.mp h, a, b]

def scanning_ (low : Badge) (done : List Record) : State :=
  reading .scanRead { card with site :=
    { card.site with inHand := some { frame := frame 0x0E [0, 0, 0, 0, 1], wait := .scan 1 low done } } }

theorem test_scanPageRead :
    let s := scanning_ 1 []
    Serves s .scanRead [] ∧ s.dir.entryFor 1 = some entry0
      ∧ ((after (.scanPageRead true) s).site.sending.map fun t => t.payload.take 3) = some [0, 1, 1]
      ∧ ((after (.scanPageRead true) (scanning_ 1 (List.replicate 16 holder))).dir.cursor) = some 7 := by
  decide +kernel

def planning : State := after (.batchCommit (req [])) staged

theorem test_planningRead :
    let t := after .planningRead planning
    Serves planning .planRead []
      ∧ (t.site.sending.map SiteTx.payload) = some [1, 0, 0, 0, 1, 1, 1] ∧ t.batch.state = .committing
      ∧ t.store.op = some { kind := .program 0 1, suspensions := 0, suspended := false } := by decide +kernel

theorem test_compactRead :
    let s := after (.compact (req [])) card
    let t := after .compactRead s
    Serves s .compactRead []
      ∧ (t.store.work.map fun w => (w.phase, w.copies.length, w.released)) = some (.programming, 1, [0])
      ∧ t.store.op = some { kind := .program 0 1, suspensions := 0, suspended := false } := by decide +kernel

theorem test_tripMark :
    let s := reading (.mark 7) card
    Serves s (.mark 7) [] ∧ holder.marks < 1 ∧ (after .tripMark s).dir.marksTaken = 1
      ∧ ((after .tripMark s).store.page 0).contents = .programmed { page0 with records := [holder.mark] }
      ∧ (after .tripMark (reading (.mark 7) (after .tripMark s))).dir.marksNotTaken = 1 := by decide +kernel

/-- The commit of `staged` with its PROGRAM running. -/
def programming : State := after .planningRead planning

theorem test_programComplete :
    let t := after .programComplete programming
    Works programming (.program 0 1) ∧ t.store.stateOf 1 = .stale .held
      ∧ (t.store.work.map Work.phase) = some .logging
      ∧ t.store.op = some { kind := .logMark, suspensions := 0, suspended := false } :=
  ⟨⟨by decide +kernel, 0, by decide +kernel⟩, by decide +kernel, by decide +kernel, by decide +kernel⟩

theorem test_programFailure :
    let t := after .programFailure programming
    (t.store.page 1).retired = true ∧ t.faults.isSet .storeProgramFail = true
      ∧ t.store.op = some { kind := .program 0 2, suspensions := 0, suspended := false }
      ∧ (after .programFailure t).store.work = none ∧ (after .programFailure t).batch = Batch.startUp := by
  decide +kernel

theorem test_commitComplete :
    let s := after .programComplete programming
    let t := after .commitComplete s
    Works s .logMark ∧ t.store.log[(0 : Fin 8)][(0 : Fin 64)] = some 1 ∧ t.store.stateOf 1 = .data
      ∧ t.dir.recordCount = 2 ∧ t.batch = Batch.startUp
      ∧ (t.store.stateOf 0).isErasing = true :=
  ⟨⟨by decide +kernel, 0, by decide +kernel⟩, by decide +kernel, by decide +kernel, by decide +kernel,
    by decide +kernel, by decide +kernel⟩

/-- The array of the card at an operation. -/
def working (k : OpKind) (q : List WorkEntry) : State :=
  { card with store := { card.store with
      op := some { kind := k, suspensions := 0, suspended := false }, workQ := q
      pageState := card.store.pageState.set 9 (.erasing .superseded) } }

theorem test_eraseComplete :
    Works (working (.eraseDir 9) []) (.eraseDir 9)
      ∧ (after .eraseComplete (working (.eraseDir 9) [])).store.stateOf 9 = .free
      ∧ (after .eraseComplete (working (.eraseLog 1) [.logErase 1, .logMark])).store.op
          = some { kind := .logMark, suspensions := 0, suspended := false } :=
  ⟨⟨by decide +kernel, 0, by decide +kernel⟩, by decide +kernel, by decide +kernel⟩

theorem test_eraseFailure :
    ((after .eraseFailure (working (.eraseDir 9) [])).store.page 9).retired = true
      ∧ (after .eraseFailure (working (.eraseDir 9) [])).store.stateOf 9 = .retired := by decide +kernel

/-- A settings save at its entry `k`. -/
def saving (k : OpKind) (e : Nat) : State :=
  let s := working k [.save e]
  { s with store := { s.store with save := { s.store.save with
      state := .running, image := some s.settings } } }

theorem test_settingsSaveStart :
    let s : State := { card with store := { card.store with
      workQ := [.save 0], save := { card.store.save with state := .queued } } }
    Runs s ∧ s.store.op = none ∧ s.store.prio = [] ∧ (after .settingsSaveStart s).store.save.state = .running
      ∧ (after .settingsSaveStart s).store.op
          = some { kind := .saveErase 0, suspensions := 0, suspended := false } := by decide +kernel

theorem test_settingsSaveEntryComplete :
    Works (saving (.saveErase 63) 63) (.saveErase 63)
      ∧ (after .settingsSaveEntryComplete (saving (.saveErase 62) 62)).store.workQ = [.save 63] :=
  ⟨⟨by decide +kernel, 0, by decide +kernel⟩, by decide +kernel⟩

theorem test_settingsSaveComplete :
    (after .settingsSaveComplete (saving .saveMark 200)).store.area.complete = true
      ∧ (after .settingsSaveComplete (saving .saveMark 200)).store.save.last = .ok := by decide +kernel

theorem test_settingsSaveFailure :
    let t := after .settingsSaveFailure (saving (.saveProgram 0) 64)
    t.faults.isSet .storeProgramFail = true ∧ t.store.workQ = [.save 0] ∧ t.store.save.retry = true := by
  decide +kernel

/-! ### Group controllers -/

theorem test_groupState :
    let s := ordered
    Runs s ∧ ((after (.groupState 0 0) s).group 0).avail = .notAccepting
      ∧ ((after (.groupState 0 0) s).group 0).orders = []
      ∧ ((after (.groupState 0 1) s).group 0).silenceDeadline = 5
      ∧ (after (.groupState 0 2) s).faults.isSet .groupProtocol = true := by decide +kernel

theorem test_carState :
    let row : CarRow := { landing := some 0, motion := some .stopped, door := some .closed, inService := some true }
    let here := ordered.mapGroup 0 fun m => { m with cars := m.cars.set 0 row }
    let t := after (.carState 0 0 0 1 1 1) here
    (carRowOf 127 2 1 1).isSome ∧ (carRowOf 0xFF 0 0 0).isSome ∧ carRowOf 128 0 0 0 = none
      ∧ carRowOf 0 3 0 0 = none ∧ carRowOf 0 0 2 0 = none ∧ carRowOf 0 0 0 2 = none
      ∧ (t.group 0).tx = [.withdraw 0, .cancel 1] ∧ (t.group 0).enables[(0 : Car)].confirmed = 0
      ∧ (after (.carState 0 8 0 0 0 1) here).faults.isSet .groupProtocol = true := by decide +kernel

theorem test_assign :
    let t := after (.assign 0 0 7) ordered
    Runs ordered ∧ (ordered.group 0).find 0 = some call1 ∧ (t.group 0).orders = [enable1]
      ∧ t.store.prio = [.mark 7] ∧ (t.reader 3).state = .showing
      ∧ (t.reader 3).tx = [.show_ .go (some 7) (some 1) none, .tone .accept] := by decide +kernel

theorem test_enabled :
    let t := after (.enabled 0 1) ordered
    (ordered.group 0).find 1 = some enable1 ∧ (t.group 0).enables[(0 : Car)].confirmed = 6
      ∧ (t.group 0).enables[(0 : Car)].expiry = some 10 ∧ (t.reader 4).state = .showing := by decide +kernel

theorem test_refuse :
    let t := after (.refuse 0 0) ordered
    (t.group 0).orders = [enable1] ∧ (t.reader 3).tx = [.show_ .noCar none (some 1) none, .tone .refuse]
      ∧ (after (.refuse 0 9) ordered).faults.isSet .groupProtocol = true := by decide +kernel

theorem test_cancelled :
    let s := card.mapGroup 0 fun m => { m with orders := [{ call1 with state := .cancelling 9 }] }
    ((after (.cancelled 0 0) s).group 0).orders = [] ∧ (after (.cancelled 0 0) s).readers = s.readers
      ∧ (let u := card.mapGroup 0 fun m => { m with avail := .offline }
         (after (.cancelled 0 0) u).faults = u.faults) := by decide +kernel

theorem test_unknownGroupFrame :
    groupLength 0x5C ≠ some 2
      ∧ (after (.unknownGroupFrame 0 0x5C [1, 1]) card).faults.isSet .groupProtocol = true
      ∧ (after (.unknownGroupFrame 0 0x5C [1]) card).faults = card.faults := by decide +kernel

/-! ### Witnesses of the other clauses -/

theorem test_card_of_the_step_invariants :
    QuietUntilOpen card ∧ OneAdmissionEach ordered ∧ QuietLines card ∧ CountRight card ∧ IndexRight card
      ∧ ordered.admissions = [3, 4] := by decide +kernel

theorem test_pages_of_the_card (p : Page) :
    (card.store.page p).contents = .erased ∨ (card.store.page p).contents = .programmed page0 := by
  rw [show card.store.page p = (Store.factory.pages.set 0
    { contents := .programmed page0, retired := false })[p.val] from rfl, Vector.getElem_set]
  split
  · exact .inr rfl
  · rename_i h
    rw [show Store.factory.pages = (Vector.replicate 544 { contents := .erased, retired := false }).set 0 _ from rfl,
      Vector.getElem_set_ne (h := h), Vector.getElem_replicate]
    exact .inl rfl

theorem test_states_of_the_card (p : Page) :
    card.store.stateOf p = .data ∨ card.store.stateOf p = .free := by
  rw [show card.store.stateOf p = ((Vector.replicate 544 PageState.free).set 0 .data)[p.val] from rfl,
    Vector.getElem_set]
  split
  · exact .inl rfl
  · exact .inr (Vector.getElem_replicate _)

theorem test_store_invariants_of_the_card :
    BatchRight card ∧ OnePageAtATime card := by
  refine ⟨⟨by decide +kernel, by decide +kernel, by decide +kernel, fun _ _ h => nomatch h⟩, fun p h => ?_,
    fun p h => ?_⟩ <;> rcases test_states_of_the_card p with k | k <;> rw [k] at h <;> cases h

theorem test_number_of_a_running_work : NumberSpent programming := fun w h => by
  have n : programming.store.work.map Work.number = some 1 := by decide +kernel
  have c : programming.store.counter = 2 := by decide +kernel
  rw [h] at n
  exact c ▸ Nat.lt_succ_of_le (Nat.le_of_eq (Option.some.inj n))

/-- A number that left no complete page is not given again after a loss of power. -/
theorem test_counter_over_a_start_up :
    (programming.store.headerNumbers.contains 1) = false ∧ (after .lossOfPower programming).store.counter = 2
      ∧ (programming.store.afterCut.scanned []).counter = 2 := by decide +kernel

theorem test_marks_of_the_card : MarksWithinBudget card := by
  refine ⟨fun p x r n h hr hb => ?_, fun w _ _ _ h => nomatch (show card.store.work = none from rfl) ▸ h⟩
  rcases test_pages_of_the_card p with h0 | h0
  · exact nomatch h0 ▸ h
  · cases PageContents.programmed.inj (h0.symm.trans h)
    cases List.mem_singleton.mp hr
    cases Option.some.inj hb
    decide

/-- Three landings on one line of three groups: 0-1 in G0, 1-2 in G1, 2-3 in G2, changes at 1 and 2. -/
def chain : State :=
  let z := ZoneMap.default
  let l (n : Byte) (t : Bool) := landingOf false t n
  { card with zone :=
    { landings := (((z.landings.set 0 (l 0x30 false)).set 1 (l 0x31 true)).set 2 (l 0x32 true)).set 3 (l 0x33 false)
      groups := ((z.groups.set 0 { present := true, serviceCar := false, served := 3 }).set 1
        { present := true, serviceCar := false, served := 6 }).set 2
        { present := true, serviceCar := false, served := 12 } } }

theorem test_route_of_three_legs :
    chain.route false 0 3 = .route [{ group := 0, src := 0, dst := 1 }, { group := 1, src := 1, dst := 2 },
      { group := 2, src := 2, dst := 3 }] := by decide +kernel

/-- The one page kept begins at badge number 2: badge number 1 is left uncovered. -/
theorem test_scan_of_a_gap :
    let kept : List IndexEntry := [{ entry0 with low := 2 }]
    uncovered 1 kept = some 1 ∧ (Directory.startUp.scanned kept).condition = .unusable
      ∧ (card.raiseGap (some 1)).faults.storeDetail = 1
      ∧ (card.raiseGap (some 1)).faults.isSet .storeFault = true := by decide +kernel

/-- Of two whole copies the logged one of the higher number is kept; one never logged is abandoned. -/
theorem test_scan_of_two_copies :
    let copy (n : Nat) : PageImage := { page0 with count := 0, commit := n, records := [] }
    let page (n : Nat) : DirPage := { contents := .programmed (copy n), retired := false }
    let kept := keptOf ([(copy 0).entry 0, (copy 3).entry 5].foldl (fun cs e => insertCandidate e cs) [])
    classify 3 (page 3) = .candidate (copy 3) ∧ classify 3 (page 4) = .abandoned
      ∧ kept.map IndexEntry.page = [5] ∧ uncovered 1 kept = none
      ∧ scannedState 3 kept 0 (page 0) = .stale .superseded ∧ scannedState 3 kept 5 (page 3) = .data
      ∧ scannedState 3 kept 6 (page 4) = .stale .abandoned
      ∧ scannedState 3 kept 7 { page 3 with retired := true } = .retired := by decide +kernel

theorem test_replyDeadline_too_early :
    (after (.replyDeadline 0 0) ordered).cal.uptime = 0 ∧ (after (.replyDeadline 0 0) ordered).group 0 = ordered.group 0 := by
  decide +kernel

theorem test_replyDeadline_shown :
    ((after (.replyDeadline 0 0) { ordered with time := { seconds := 1, ms := 0 } }).reader 3).tx
      = [.show_ .noCar none (some 1) none, .tone .refuse] := by
  decide +kernel

theorem test_timeout_of_a_request_without_badge :
    let s := (entering .interKey [0x32]).mapReader 3 fun ch => { ch with
      entry := ch.entry.map fun e => { e with badge := none } }
    let t := after (.interKeyTimeout 3) s
    s.queue = [] ∧ s.engine = .idle ∧ t.engine = .idle ∧ t.queue = []
      ∧ (t.group 1).orders.length = 1 ∧ t.notices.isPending .admission = true := by decide +kernel

theorem test_lengths :
    refuses (.profileWrite (req [8, 0])) card (frame 0x14 [8, 0]) .length [] = true
      ∧ refuses (.holidayWrite (req [1])) card (frame 0x18 [1]) .length [] = true
      ∧ refuses (.channelSet (req [3, 1, 0])) card (frame 0x20 [3, 1, 0]) .length [] = true
      ∧ refuses (.stagePut (req [])) card (frame 0x09 []) .length [] = true
      ∧ refuses (.batchOpen (req [1])) card (frame 0x08 [1]) .length [] = true
      ∧ refuses (.clockSet (req [1])) card (frame 0x03 [1]) .length [] = true := by decide +kernel

theorem test_reads_out_of_range :
    refuses (.profileRead (req [2, 0])) card (frame 0x15 [2, 0]) .range [] = true
      ∧ refuses (.channelRead (req [32])) card (frame 0x21 [32]) .range [] = true
      ∧ refuses (.groupRead (req [6])) card (frame 0x25 [6]) .range [] = true
      ∧ refuses (.groupSet (req [6, 0, 0])) card (frame 0x24 [6, 0, 0]) .range [1] = true
      ∧ refuses (.groupSet (req [5, 2, 0])) card (frame 0x24 [5, 2, 0]) .range [2] = true
      ∧ refuses (.groupSet (req [5, 1, 2])) card (frame 0x24 [5, 1, 2]) .range [3] = true := by decide +kernel

theorem test_persisting :
    let offline := card.mapReader 3 fun ch => { ch with state := .offline }
    let silent := card.mapGroup 1 fun m => { m with link := .silent }
    let spent : State := { card with store := { card.store with pageState := Vector.replicate 544 .data } }
    let gap : State := { card with
      dir := { card.dir with condition := .unusable }, faults := { card.faults with storeDetail := 9 } }
    offline.persisting .readerOffline = some 3 ∧ silent.persisting .groupOffline = some 1
      ∧ spent.persisting .spareLow = some 0 ∧ gap.persisting .storeFault = some 9
      ∧ card.persisting .clockUnset = some 0 ∧ card.persisting .commitFail = none := by decide +kernel

/-- A raising of a MAJOR kind asserts the line; a masked one raises no notice and still sets its status. -/
theorem test_raiseFault :
    let s : State := { card with faults := { card.faults with first := none } }
    let masked : State := { s with faults := { s.faults with masks := FaultKind.spareLow.bit } }
    let t := s.raiseFault .spareLow 7
    let u := masked.raiseFault .spareLow 7
    t.faults.isSet .spareLow = true ∧ t.faults.line = true
      ∧ t.faults.first = some { kind := .spareLow, uptime := 0, date := none, detail := 7 }
      ∧ t.notices.raised = [{ uptime := 0, body := .faultRaised .spareLow true 7 false none }]
      ∧ u.faults.isSet .spareLow = true ∧ u.faults.line = false ∧ u.notices = s.notices
      ∧ (t.raiseFault .spareLow 6).faults.first = t.faults.first := by decide +kernel

/-- FAULT CLEAR of a record's kind puts the lowest persisting kind named in its place. -/
theorem test_faultClear_refills_the_record :
    let s := card.mapReader 3 fun ch => { ch with state := .offline }
    let t := after (.faultClear (req [0x04, 0x10])) s
    t.faults.first = some { kind := .readerOffline, uptime := 0, date := none, detail := 3 }
      ∧ t.faults.isSet .clockUnset = true := by decide +kernel

def relabel (l : Landing) (e : LandingEntry) : ZoneMap := { map3 with landings := map3.landings.set l e }

def regroup (e : GroupEntry) : ZoneMap := { map3 with groups := map3.groups.set 0 e }

theorem test_zone_checks_of_landings :
    let p := List.replicate 614 (0 : Byte)
    zoneCheckItem p (relabel 9 { LandingEntry.absent with secure := true }) 1 = some 9
      ∧ zoneCheckItem p (relabel 1 { landingOf true false 0 with label := [] }) 2 = some 1
      ∧ zoneCheckItem p (relabel 1 (landingOf true false 0x41)) 3 = some 1
      ∧ zoneCheckItem p (relabel 2 (landingOf true false 0x31)) 4 = some 2
      ∧ zoneCheckItem p (relabel 1 (landingOf true true 0x31)) 9 = some 1
      ∧ (let full (n : Nat) : LandingEntry :=
           if n < 9 then landingOf false true 0x31 else LandingEntry.absent
         zoneCheckItem p { map3 with landings := vmake full } 8 = some 8) := by decide +kernel

theorem test_zone_checks_of_groups :
    let p := List.replicate 614 (0 : Byte)
    zoneCheckItem p (regroup { present := false, serviceCar := false, served := 1 }) 5 = some 0
      ∧ zoneCheckItem p (regroup { present := true, serviceCar := false, served := 9 }) 6 = some 0
      ∧ zoneCheckItem p (regroup { present := true, serviceCar := false, served := 1 }) 7 = some 0
      ∧ (∀ n ∈ [1, 2, 3, 4, 5, 6, 7, 8, 9], zoneCheckItem p map3 n = none) := by decide +kernel

/-! ### The stages and the transfer path -/

def found (r : Record) : Option LookupResult := some (.found r 0 0 0)

theorem test_stages_that_refuse :
    let ask (d : Option Landing) (o : Landing) : Request := { want1 with ask := .lobby d o }
    let away := card.mapGroup 0 fun m => { m with avail := .notAccepting }
    let full := card.mapGroup 0 fun m => { m with orders := List.replicate 32 { call1 with reservation := none } }
    (card.judge (ask none 0) (found { holder with home := none })).ruling = .answer (.denied .noDestination) none
      ∧ (card.judge (ask (some 0) 0) (found holder)).ruling = .answer (.denied .sameLanding) (some 0)
      ∧ (card.judge (ask (some 1) 127) (found holder)).ruling = .answer (.denied .noRoute) (some 1)
      ∧ (away.judge want1 (found holder)).ruling = .answer .outOfService (some 1)
      ∧ (full.judge want1 (found holder)).ruling = .answer .linkBusy (some 1)
      ∧ (full.judge { want1 with ask := .car 0 0 none } (found holder)).ruling = .answer .linkBusy none := by
  decide +kernel

def journey7 : TransferEntry :=
  { badge := 7, landing := 0, final := 1, legs := 1, setAt := 0, expiry := 600 }

/-- Badge 7 presents itself at landing 0, on its way to landing 1. -/
def again : Request := { want1 with ask := .lobby none 0 }

def onTheWay : State := { waiting with transfer := { entries := [journey7], evictions := 0 } }

theorem test_transferPath :
    let j (r : Record) := onTheWay.judge again (found r)
    let away := onTheWay.mapGroup 0 fun m => { m with avail := .notAccepting }
    (j holder).path = .transfer
      ∧ (j { holder with expiry := some 0 }).ruling = .order 0
          (.call [{ group := 0, src := 0, dst := 1 }] 1 false false (some 7) .transfer) none
      ∧ (j { holder with status := .lost }).ruling = .answer (.denied .lost) (some 1)
      ∧ (j { holder with status := .lost }).dropEntry = true
      ∧ (onTheWay.judge again (some (.absent 0))).ruling = .answer (.denied .unknown) (some 1)
      ∧ (onTheWay.judge again (some .storeFault)).standing = .storeFault
      ∧ (away.judge again (found holder)).ruling = .answer .outOfService (some 1)
      ∧ (onTheWay.judge { want1 with ask := .lobby (some 2) 0 } (found holder)).path = .normal := by
  decide +kernel

theorem test_transferPath_decided :
    let s (u : Nat) (r : Record) : State := { onTheWay with
      engine := .evaluating again (found r), cal := { card.cal with uptime := u } }
    let suspended := after (.lookup true) (s 0 { holder with status := .suspended })
    (s 600 holder).transfer.find 7 = some journey7 ∧ Runs (s 0 holder)
      ∧ (after (.lookup true) (s 0 holder)).transfer.entries = [journey7]
      ∧ (after (.lookup true) (s 600 holder)).transfer.entries = []
      ∧ suspended.transfer.entries = []
      ∧ (suspended.notices.queue.map fun n => match n with
          | .notice x => x.body.cls == .security
          | .summary _ => false) = [true] := by decide +kernel

/-! ### The store's other answers -/

def onPage0 (s : State) (c : PageContents) : State :=
  { s with store := { s.store with pages := s.store.pages.set 0 { contents := c, retired := false } } }

def stagingAt (s : State) (e : Edit) : State :=
  reading (.portRead e.badge) { s with site := { s.site with
    inHand := some { frame := frame 0x0A (u40 e.badge), wait := .stage e } } }

def answerOf (s : State) : Option (List Byte) := s.site.sending.map SiteTx.payload

theorem test_stage_after_its_lookup :
    let drop (b : Badge) : Edit := { badge := b, kind := .drop }
    let t (s : State) (b : Badge) := after (.lookup false) (stagingAt s (drop b))
    let guarded := onPage0 opened (.programmed { page0 with records := [{ holder with profile := 240 }] })
    let broken := onPage0 opened .erased
    Serves (stagingAt opened (drop 7)) (.portRead 7) []
      ∧ answerOf (t opened 7) = some [0, 1, 0] ∧ (t opened 7).batch.edits = [drop 7]
      ∧ answerOf (t staged 9) = some [0, 1, 1]
      ∧ answerOf (t card 7) = some [5] ∧ answerOf (t guarded 7) = some [4]
      ∧ answerOf (t broken 7) = some [0x0E] ∧ (t broken 7).faults.isSet .storeFault = true := by decide +kernel

theorem test_lookup_that_fails_or_finds_nothing :
    let s (b : Badge) : State := reading (.portRead b) { card with site :=
      { card.site with inHand := some { frame := frame 0x0D (u40 b), wait := .recordRead b } } }
    let broken (b : Badge) : State := { s b with dir := { card.dir with index := [{ entry0 with count := 2 }] } }
    answerOf (after (.lookup true) (s 8)) = some [8, 0, 0, 0, 0]
      ∧ answerOf (after (.lookup true) (broken 7)) = some [0x0E]
      ∧ (after (.lookup true) (broken 7)).faults.isSet .storeFault = true := by decide +kernel

theorem test_scan_that_waits :
    let s := after (.scanPageRead false) (scanning_ 1 [])
    let t := after (.scanPageRead true) { s with dir := { s.dir with cursor := none } }
    s.site.scanned = true ∧ s.site.sending = none ∧ t.dir.cursor = none ∧ t.site.inHand = none
      ∧ (t.site.sending.map fun t => t.payload.take 3) = some [0, 1, 1]
      ∧ (stepped [] s).site.inHand = none := by decide +kernel

theorem test_scan_of_a_page_that_fails :
    let s : State := { scanning_ 1 [] with dir := { card.dir with index := [{ entry0 with commit := 2 }] } }
    answerOf (after (.scanPageRead false) s) = some [0x0E] := by decide +kernel

theorem test_planningRead_refused :
    let full : State := { planning with dir := { planning.dir with recordCount := 32768 } }
    let spent : State := { planning with store := { planning.store with
      pageState := Vector.replicate 544 .data } }
    let broken := onPage0 planning .erased
    let late (s : State) : State := after .planningRead { s with cal := { s.cal with uptime := 20 } }
    answerOf (late full) = some [6, 0x80, 0x01] ∧ (late full).batch.deadline = some 50
      ∧ answerOf (late spent) = some [7, 0, 1, 0, 0] ∧ (late spent).batch.state = .open_
      ∧ answerOf (late broken) = some [0x0E] ∧ (late broken).faults.isSet .storeFault = true := by decide +kernel

theorem test_compactRead_of_a_page_that_fails :
    let s := after (.compact (req [])) card
    let broken (x : Condition) := onPage0 { s with dir := { s.dir with condition := x } } .erased
    (after .compactRead (broken .usable)).store.work = none
      ∧ (after .compactRead (broken .usable)).faults.isSet .commitFail = true
      ∧ ((after .compactRead (broken .unusable)).store.work.map fun w => w.copies.length) = some 1 := by
  decide +kernel

theorem test_tripMark_not_taken :
    let s := reading (.mark 7) card
    let unusable : State := { s with dir := { s.dir with condition := .unusable } }
    let free := onPage0 s (.programmed { page0 with records := [{ holder with budget := none }] })
    let broken := onPage0 s .erased
    (after .tripMark unusable).dir.marksNotTaken = 1 ∧ (after .tripMark free).dir.marksNotTaken = 1
      ∧ (after .tripMark broken).dir.marksNotTaken = 1
      ∧ (after .tripMark broken).faults.isSet .storeFault = true
      ∧ holder.mark.slots = 1 ∧ holder.mark.marks = 1 := by
  decide +kernel

theorem test_programFailure_for_want_of_pages :
    let s : State := { programming with store := { programming.store with
      pageState := (Vector.replicate 544 PageState.data).set 1 .writing } }
    let t := after .programFailure s
    t.store.work = none ∧ t.faults.isSet .commitFail = true ∧ t.batch = Batch.startUp := by decide +kernel

def erasingLog : State := working (.eraseLog 1) [.logErase 1, .logMark]

def erasingLogBelowTheTop : State :=
  { erasingLog with store := { erasingLog.store with
    log := erasingLog.store.log.set 2 ((Vector.replicate 64 none).set 0 (some 9)), work := programming.store.work } }

/-- The log erase of an empty page has failed: the position moves on. -/
theorem test_logEraseFailure :
    Works erasingLog (.eraseLog 1) ∧ (erasingLog.logEraseFailed 1).store.logPage = 2
      ∧ (erasingLog.logEraseFailed 1).store.logSlot = 0
      ∧ (erasingLog.logEraseFailed 1).faults.isSet .storeEraseFail = true := by
  have cut : cutLogPage erasingLog.free (erasingLog.store.log[(1 : Fin 8)]) = Vector.replicate 64 none :=
    (congrArg _ (by decide +kernel)).trans (cutLogPage_of_an_erased_page _)
  simp only [State.logEraseFailed, State.mapStore, cut]
  exact ⟨⟨by decide +kernel, 0, by decide +kernel⟩, by decide +kernel, by decide +kernel, by decide +kernel⟩

/-- The next page holds the highest number: the work ends. -/
theorem test_logEraseFailure_at_the_top :
    let t := erasingLogBelowTheTop.logEraseFailed 1
    t.store.logPage = 3 ∧ t.store.work = none := by
  have cut : cutLogPage erasingLogBelowTheTop.free (erasingLogBelowTheTop.store.log[(1 : Fin 8)])
      = Vector.replicate 64 none :=
    (congrArg _ (by decide +kernel)).trans (cutLogPage_of_an_erased_page _)
  simp only [State.logEraseFailed, State.mapStore, cut]
  decide +kernel

theorem test_eraseFailure_of_a_commit_that_waits :
    let s := working (.eraseDir 9) []
    let w : Work := { kind := .commit, number := 1, phase := .commitWait, copies := [emptyCopy]
                      released := [], added := 0, removed := 0, replaced := 0, todo := [], gathered := [] }
    let spent : State := { s with store := { s.store with
      work := some w, pageState := (Vector.replicate 544 PageState.data).set 9 (.erasing .superseded) } }
    (after .eraseFailure spent).store.work = none
      ∧ ((after .eraseComplete spent).store.work.map Work.phase) = some .programming := by decide +kernel

theorem test_commitComplete_of_a_compact :
    let s := after .programComplete (after .compactRead (after (.compact (req [])) card))
    let u : State := { s with dir := { s.dir with condition := .unusable } }
    Works u .logMark ∧ (after .commitComplete u).dir.condition = .usable
      ∧ (after .commitComplete u).dir.index.map IndexEntry.page = [1]
      ∧ (after .commitComplete u).notices.queue =
          [.notice { uptime := 0, body := .compactDone 1 1 }] :=
  ⟨⟨by decide +kernel, 0, by decide +kernel⟩, by decide +kernel, by decide +kernel, by decide +kernel⟩

/-- A scan that still reads begins again at its start; one that has read its last page keeps its reply. -/
theorem test_commitComplete_in_a_scan :
    let s := after .programComplete programming
    let hand (w : PortWait) : State := { s with site :=
      { s.site with inHand := some { frame := frame 0x0E [0, 0, 0, 0, 3], wait := w } } }
    let t (w : PortWait) := (after .commitComplete (hand w)).site.inHand.map InHand.wait
    t (.scan 3 500 [holder]) = some (.scan 3 3 []) ∧ t (.scanned [holder] false) = some (.scanned [holder] false)
      ∧ (after (.scanPageRead true) (after .commitComplete (hand (.scanned [holder] false)))).dir.cursor
          = some 7 := by decide +kernel

theorem test_partition_at_the_completing_mark :
    let s := after .programComplete programming
    s.store.running = some .logMark ∧ IndexRight s
      ∧ ∀ w, s.store.work = some w →
        Partition ((s.dir.index.filter fun e => !w.released.contains e.page).map IndexEntry.range
          ++ (w.heldPages.filterMap s.store.entryOf).map IndexEntry.range) := by
  refine ⟨by decide +kernel, by decide +kernel, fun w h => ?_⟩
  have all : ∀ x ∈ (after .programComplete programming).store.work,
      tiles 1 ((((after .programComplete programming).dir.index.filter fun e =>
          !x.released.contains e.page).map IndexEntry.range
        ++ (x.heldPages.filterMap (after .programComplete programming).store.entryOf).map
          IndexEntry.range)) = true := by decide +kernel
  exact ⟨_, List.Perm.refl _, all w h⟩

theorem test_plan_of_one_page :
    let edits : List Edit := [{ badge := 7, kind := .drop }, { badge := 9, kind := .put { holder with badge := 9 } }]
    let row := planRow edits entry0 [holder]
    (edits.map Edit.badge).Nodup ∧ orderedWithin 1 topBadge [holder] = true
      ∧ tiles 1 ([row].map fun r => r.entry.range) = true
      ∧ row.records.map PlanRecord.badge = [9] ∧ (planOf [row]).released = [0]
      ∧ (planOf [planRow [edits.headD { badge := 1, kind := .drop }] entry0 [holder]]).copies = [emptyCopy]
      ∧ (compactLayout [holder]).length = 1 ∧ purgeListOf edits = [7] := by decide +kernel

theorem test_settingsSave_pending_and_retried :
    let pending := saving .saveMark 200
    let s : State := { pending with store := { pending.store with
      save := { pending.store.save with pending := true } } }
    let once := saving (.saveErase 3) 3
    let u : State := { once with store := { once.store with save := { once.store.save with retry := true } } }
    (after .settingsSaveComplete s).store.workQ = [.save 0]
      ∧ (after .settingsSaveComplete s).store.save.state = .queued
      ∧ (after .settingsSaveFailure u).store.save.last = .failed
      ∧ (after .settingsSaveFailure u).faults.isSet .storeEraseFail = true
      ∧ (after .settingsSaveFailure u).store.workQ = [] := by decide +kernel

/-! ### Group controllers, their other clauses -/

/-- A CALL of two legs is SENT, with `x` in the Transfer Table. -/
def departing (x : TransferTable) : State :=
  let legs : List Leg := [{ group := 0, src := 1, dst := 0 }, { group := 1, src := 0, dst := 2 }]
  { waiting.mapGroup 0 fun m =>
      { m with orders := [{ call1 with kind := .call legs 2 false false none .normal }] } with transfer := x }

theorem test_assign_of_a_journey :
    let last : Order := { call1 with
      kind := .call [{ group := 0, src := 0, dst := 1 }] 1 false false (some 7) .transfer, reservation := none }
    let s := departing waiting.transfer
    let u := onTheWay.mapGroup 0 fun m => { m with orders := [last] }
    (after (.assign 0 0 7) s).transfer.entries =
        [{ badge := 7, landing := 0, final := 2, legs := 1, setAt := 0, expiry := 600 }]
      ∧ ((after (.assign 0 0 7) s).reader 3).tx = [.show_ .go (some 7) (some 2) (some 0), .tone .accept]
      ∧ (after (.assign 0 0 7) u).transfer.entries = [] ∧ (after (.assign 0 0 7) u).store.prio = [] := by
  decide +kernel

/-- A journey replaces its badge's entry in place; in a full table the entry that expires first, the lower
badge among equals, goes. -/
theorem test_places_of_a_journey :
    let e (b : Badge) (x : Nat) : TransferEntry :=
      { badge := b, landing := 0, final := 2, legs := 1, setAt := 0, expiry := x }
    let full : TransferTable :=
      { entries := (List.range 128).map fun i => e (100 + i) (if i = 5 ∨ i = 9 then 10 else 600)
        evictions := 65535 }
    let placed (x : TransferTable) : TransferTable := (after (.assign 0 0 7) (departing x)).transfer
    let t := placed full
    (placed { entries := [e 7 1, e 8 1], evictions := 0 }).entries.map TransferEntry.expiry = [600, 1]
      ∧ t.find 105 = none ∧ t.entries.length = 128 ∧ (t.entries.getLast?.map TransferEntry.badge) = some 7
      ∧ t.evictions = 65535 := by decide +kernel

theorem test_replies_of_the_wrong_kind :
    ((after (.assign 0 1 0) ordered).faults.isSet .groupProtocol = true
      ∧ (after (.enabled 0 0) ordered).faults.isSet .groupProtocol = true)
      ∧ (after (.assign 0 0 8) ordered).faults.isSet .groupProtocol = true := by decide +kernel

theorem test_replies_to_a_cancelled_order :
    let m := ordered.group 0
    let s := ordered.mapGroup 0 fun m => { m with orders := m.orders.map fun o => { o with state := .cancelling 9 } }
    m.orders.length = 2 ∧ (after (.assign 0 0 0) s).group 0 = s.group 0
      ∧ (after (.assign 0 0 0) s).faults.isSet .groupProtocol = false := by decide +kernel

theorem test_carState_answers :
    let row (m : Motion) (b : Bool) : CarRow :=
      { landing := some 0, motion := some m, door := some .closed, inService := some b }
    let here := ordered.mapGroup 0 fun m => { m with cars := m.cars.set 0 (row .stopped true) }
    ((after (.carState 0 0 0 1 1 0) here).reader 4).tx = [.show_ .departed none none none, .tone .refuse]
      ∧ ((after (.carState 0 0 0 0 1 0) here).reader 4).tx
          = [.show_ .outOfService none none none, .tone .refuse]
      ∧ (after (.carState 0 0 0 0 1 1) here).reader 4 = here.reader 4 := by decide +kernel

/-! ### The tick -/

/-- A label is taken as the record is sent: the map has been replaced since the record was produced. -/
theorem test_tick_sends_with_the_map_as_it_stands :
    let s := card.mapReader 3 fun ch => { ch with tx := [.show_ .go (some 0) (some 1) none, .blank] }
    let u := { s with zone := relabel 1 (landingOf true false 0x39) }
    ((stepped [] s).reader 3).sending = some (frameBytes 0x68 0 [1, 0, 0, 0x31, 0, 0, 0, 0, 0])
      ∧ ((stepped [] u).reader 3).sending = some (frameBytes 0x68 0 [1, 0, 0, 0x39, 0, 0, 0, 0, 0])
      ∧ ((stepped [] s).reader 3).tx = [.blank] := by decide +kernel

theorem test_tick_hands_a_result_over :
    let s : State := { waiting with engine := .evaluating want1 (found holder) }
    Runs s ∧ (stepped [] s).engine = .idle ∧ ((stepped [] s).group 0).orders.length = 1 := by decide +kernel

def noticed : State :=
  { card with
    notices := { card.notices with queue := [.notice { uptime := 0, body := .readerOnline 3 }] }
    store := { card.store with eraseQ := [9] } }

theorem test_tick_sends_a_notice :
    (stepped [] noticed).site.sending = some ((QueuedNotice.notice { uptime := 0, body := .readerOnline 3 }).frame 0) := by
  decide +kernel

theorem test_tick_begins_an_erase :
    (stepped [] noticed).site.seq = 1 ∧ (stepped [] noticed).store.op.map ArrayOp.kind = some (.eraseDir 9) := by
  decide +kernel

theorem test_tick_of_a_card_that_is_off :
    (stepped [] { noticed with power := .off }).site.sending = none := by decide +kernel

/-- A channel made UNUSED keeps of its records the blank form of the display this ends. -/
theorem test_unused_channel_sends_no_earlier_record :
    let s := (shows card).mapReader 3 fun ch => { ch with tx := [.tone .key] }
    let quiet := card.mapReader 3 fun ch => { ch with tx := [.tone .key] }
    ((after (.channelSet (req [3, 0, 5])) s).reader 3).tx = [.blank]
      ∧ ((after (.channelSet (req [3, 0, 5])) quiet).reader 3).tx = [] := by decide +kernel

/-! ### The engine's next request, the log's MARK, the counts of a plan -/

def lobby5 (badge : Option Badge) : Request :=
  { channel := 5, badge := badge, ask := .lobby (some 2) 0, arrival := 0 }

def car4 : Request := { channel := 4, badge := some 7, ask := .car 0 0 none, arrival := 0 }

/-- The result of `want1` waits, with the requests `q` in the queue. -/
def deciding (q : List Request) : State :=
  { waiting with engine := .evaluating want1 (some (.absent 0)), queue := q }

/-- The CAR request is taken ahead of an older LOBBY request. -/
theorem test_engine_takes_the_car_first :
    let s := deciding [lobby5 (some 8), car4]
    let t := after (.lookup true) s
    (s.queue.map Request.channel).Nodup ∧ s.decidedAtOnce = [] ∧ takingOrder s.queue = [car4, lobby5 (some 8)]
      ∧ t.engine = .evaluating car4 none ∧ t.queue = [lobby5 (some 8)] ∧ t.store.prio = [.engineRead 7]
      ∧ (stepped [] s).queue = [lobby5 (some 8)] := by decide +kernel

/-- A request without a badge is decided in the event, and the next taken. -/
theorem test_engine_decides_what_needs_no_lookup :
    let s := deciding [lobby5 none, { lobby5 (some 8) with channel := 6 }]
    let t := after (.lookup true) s
    (s.queue.map Request.channel).Nodup ∧ s.decidedAtOnce = [lobby5 none]
      ∧ t.engine = .evaluating { lobby5 (some 8) with channel := 6 } none ∧ t.queue = []
      ∧ (after (.lookup true) (deciding [lobby5 none])).engine = .idle := by decide +kernel

/-- The work of `programming` waits in LOGGING for its MARK, page 9 in the condition `k` under its ERASE. -/
def loggingWork (k : Stale) (log : Vector (Vector (Option Nat) 64) 8) : State :=
  let s := working (.eraseDir 9) []
  { s with store := { s.store with
      work := programming.store.work.map fun w => { w with phase := .logging }
      pageState := s.store.pageState.set 9 (.erasing k), log := log } }

def usedLog : Vector (Vector (Option Nat) 64) 8 := card.store.log.set 0 ((Vector.replicate 64 none).set 5 (some 9))

/-- The abandoned page is gone: the MARK joins, behind the erase of a page that is not erased. -/
theorem test_mark_queued_when_no_abandoned_page_stands :
    (after .eraseComplete (loggingWork .abandoned card.store.log)).store.workQ = [.logMark]
      ∧ (after .eraseComplete (loggingWork .abandoned usedLog)).store.workQ = [.logErase 0, .logMark]
      ∧ (after .eraseFailure (loggingWork .abandoned card.store.log)).store.workQ = [.logMark] := by
  decide +kernel

/-- An abandoned page stands elsewhere: the MARK waits. -/
theorem test_mark_waits_for_an_abandoned_page :
    let s := loggingWork .superseded card.store.log
    let t : State := { s with store := { s.store with pageState := s.store.pageState.set 8 (.stale .abandoned) } }
    (after .eraseComplete t).store.workQ = [] := by decide +kernel

/-- The number in the last slot of a page: the position moves to the next page. -/
theorem test_log_position_moves :
    let st (p : Fin 8) (i : Fin 64) : Store := { card.store with logPage := p, logSlot := i }
    let at_ (p : Fin 8) (i : Fin 64) := (((st p i).logNumber 5).logPage, ((st p i).logNumber 5).logSlot)
    at_ 0 62 = (0, 63) ∧ at_ 0 63 = (1, 0) ∧ at_ 7 63 = (0, 0)
      ∧ ((st 0 63).logNumber 5).log[(0 : Fin 8)][(63 : Fin 64)] = some 5 := by decide +kernel

theorem test_counts_of_a_row :
    let put (b : Badge) : Edit := { badge := b, kind := .put { holder with badge := b } }
    let row := planRow [put 7, put 9, { badge := 8, kind := .drop }] entry0 [holder, { holder with badge := 8 }]
    (row.added, row.removed, row.replaced) = (1, 1, 1) := by decide +kernel

/-- Every edit is void: the accepted plan has no copy and its work goes straight to the log. -/
theorem test_plan_without_copies :
    let s : State := { planning with batch := { planning.batch with edits := [{ badge := 5, kind := .drop }] } }
    let t := after .planningRead s
    (t.store.work.map fun w => (w.copies.length, w.phase, w.added)) = some (0, .logging, 0)
      ∧ t.store.workQ = [.logMark] := by decide +kernel

theorem test_compactRead_without_pages :
    let s := after (.compact (req [])) card
    let spent : State := { s with store := { s.store with pageState := Vector.replicate 544 .data } }
    Serves spent .compactRead [] ∧ (after .compactRead spent).store.work = none
      ∧ (after .compactRead spent).faults.isSet .commitFail = true := by decide +kernel

/-- A carried record goes into the copy as its old page holds it when the PROGRAM begins. -/
theorem test_carried_record_with_its_slots :
    let marked := onPage0 planning (.programmed { page0 with records := [holder.mark] })
    ((after .planningRead marked).store.page 1).contents = .programmed
      { low := 1, high := topBadge, count := 2, commit := 1, complete := false
        records := [holder.mark, { holder with badge := 9, budget := none }] } := by decide +kernel

/-! ### Settings saves, the opening and the day limit, their other clauses -/

/-- A save cut short in its MARK leaves no complete image. -/
theorem test_cut_of_a_save :
    RunningSaveHasNoImage (after .settingsSaveStart { card with store := { card.store with workQ := [.save 0] } })
      ∧ (after .lossOfPower (saving .saveMark 200)).store.area.accepted = none := by decide +kernel

theorem test_settingsSave_pending :
    let retried (k : OpKind) (e : Nat) : State := { saving k e with
      faults := { card.faults with first := none }
      store := { (saving k e).store with save := { (saving k e).store.save with retry := true, pending := true } } }
    let s := retried (.saveErase 3) 3
    let begun : State := { s with store := { s.store with op := none, workQ := [.save 0] } }
    Works s (.saveErase 3) ∧ (after .settingsSaveFailure s).store.save.pending = false
      ∧ ((after .settingsSaveFailure s).faults.first.map FirstFault.detail) = some 2051
      ∧ (after .settingsSaveStart begun).store.save.pending = false :=
  ⟨⟨by decide +kernel, 0, by decide +kernel⟩, by decide +kernel, by decide +kernel, by decide +kernel⟩

/-- The commit of `staged` at its completing MARK. -/
def marking : State := after .programComplete programming

/-- The page that commit has programmed. -/
def page1 : PageImage :=
  { low := 1, high := topBadge, count := 2, commit := 1, complete := true
    records := [holder, { holder with badge := 9, budget := none }] }

def markingWork : Work :=
  { kind := .commit, number := 1, phase := .logging
    copies := [{ low := 1, high := topBadge, page := some 1, failures := 0
                 records := [{ badge := 7, fresh := none },
                   { badge := 9, fresh := some { holder with badge := 9, budget := none } }] }]
    released := [0], added := 1, removed := 0, replaced := 0, todo := [], gathered := [] }

theorem test_work_at_the_mark : marking.store.work = some markingWork := by decide +kernel

theorem test_programmed_at_the_mark : (marking.store.page 1).contents = .programmed page1 := by decide +kernel

theorem test_pages_at_the_mark (p : Page) (x : PageImage) (h : (marking.store.page p).contents = .programmed x) :
    1 ≤ x.low ∧ x.high ≤ topBadge ∧ x.records.length ≤ 64 := by
  have all : ∀ d ∈ marking.store.pages.toList,
      d.contents = .erased ∨ d.contents = .programmed page0 ∨ d.contents = .programmed page1 := by
    decide +kernel
  rcases all _ (Vector.mem_toList_iff.mpr (Vector.getElem_mem p.isLt)) with k | k | k
  · exact nomatch k.symm.trans h
  · cases PageContents.programmed.inj (k.symm.trans h); decide
  · cases PageContents.programmed.inj (k.symm.trans h); decide

theorem test_workRight_at_the_mark : WorkRight marking where
  apart := by decide +kernel
  pages := ⟨fun p x h => ⟨(test_pages_at_the_mark p x h).1, (test_pages_at_the_mark p x h).2.1⟩,
    fun p x h => (test_pages_at_the_mark p x h).2.2⟩
  tile := fun w h _ => by
    cases Option.some.inj (test_work_at_the_mark.symm.trans h)
    exact ⟨_, List.Perm.refl _, by decide +kernel⟩
  held := fun w h => by
    cases Option.some.inj (test_work_at_the_mark.symm.trans h)
    refine ⟨by decide, fun c hc p hp => ?_⟩
    cases List.mem_singleton.mp hc
    cases Option.some.inj hp
    exact ⟨by decide +kernel, page1, test_programmed_at_the_mark, rfl, rfl⟩
  inPhase := fun w h => by
    cases Option.some.inj (test_work_at_the_mark.symm.trans h)
    exact ⟨by decide, by decide +kernel, fun _ => by decide, fun _ => rfl, fun h => nomatch h⟩
  array := by
    have k : marking.store.op.map ArrayOp.kind = some .logMark := by decide +kernel
    refine ⟨fun i p h => ?_, fun p h => ?_, fun _ => by decide +kernel, by decide +kernel,
      fun _ => ⟨_, test_work_at_the_mark, rfl⟩⟩
    · exact nomatch k.symm.trans h
    · exact nomatch k.symm.trans h
  eraseQueue := by decide +kernel
  plan := ⟨fun h => absurd h (by decide +kernel), fun f a b h => absurd h (by
    rw [show marking.site.inHand = none by decide +kernel]; exact fun k => nomatch k)⟩
  quiet := fun h => absurd (by decide +kernel) h

/-- Every premise of the invariant of the Page Index holds at a completing MARK. -/
theorem test_premises_at_the_mark :
    marking.store.running = some .logMark ∧ BatchRight marking ∧ IndexRight marking :=
  ⟨by decide +kernel, ⟨by decide +kernel, by decide +kernel, fun h => absurd h (by decide +kernel),
    fun f e h => absurd h (by rw [show marking.site.inHand = none by decide +kernel]; exact fun k => nomatch k)⟩,
    by decide +kernel⟩

/-- The loaded map makes G0 present on a SILENT link, and the loaded settings fix its recall state. -/
theorem test_admissionOpens_on_a_silent_link :
    let image (m : RecallMode) : Settings :=
      { card.settings with groups := Vector.replicate 6 { polarity := .activeHigh, mode := m } }
    let s (m : RecallMode) : State :=
      { loading { complete := true, checkMatches := true, image := image m } with
        groups := Vector.replicate 6 { GroupMgr.startUp with link := .silent }
        recallIn := Vector.replicate 6 { cfg := { polarity := .activeHigh, mode := .level }
                                         line := { raw := .low, stable := some .low, since := none }
                                         state := .inRecall, fixed := false } }
    let t (m : RecallMode) := after .admissionOpens (s m)
    ((s .level).zoneGroup 0).present = false ∧ ((t .level).zoneGroup 0).present = true
      ∧ (t .level).faults.isSet .groupOffline = true
      ∧ ((t .level).recallOf 0).state = .clear ∧ ((t .level).group 0).avail = .offline
      ∧ ((t .latched).recallOf 0).state = .held ∧ ((t .latched).group 0).avail = .inRecall := by decide +kernel

theorem test_dayLimit_once :
    let s : State := { dated with cal := { dated.cal with day := 65535, dayLimitReported := true } }
    Runs s ∧ (after .minuteBoundary s).cal.day = 65535 ∧ (after .minuteBoundary s).notices.queue = []
      ∧ (after .minuteBoundary s).store.workQ = []
      ∧ (after .minuteBoundary { s with banks := { s.banks with arm := .nextMinute } }).store.workQ
          = [.save 0] := by decide +kernel

theorem test_gap_and_discards_at_the_site :
    let s : State := { (after (.inFrame .site 0xC3) card) with faults := { card.faults with first := none } }
    let detail (c : Instr) := (after c s).faults.first.map FirstFault.detail
    detail (.byteGapTimeout .site none) = some 1 ∧ detail (.frameDiscard .site [0x04, 0x01]) = some 2
      ∧ detail (.frameDiscard .site [0, 0, 0x02, 5, 0, 0]) = some 3
      ∧ discardCause .site [0x04, 0x00, 1] = none := by decide +kernel

/-! ### Leaving service, the Notice Queue, the plan's ranges, lines that come back -/

/-- G0 with a CALL of channel 3, an ENABLE of channel 4 and a CANCELLING order of channel 5, car A opened. -/
def leaving : State :=
  (ordered.mapReader 5 fun _ => pendingReader).mapGroup 0 fun m =>
    { m with orders := m.orders ++ [{ call1 with tag := 2, channel := 5, state := .cancelling 4 }] }

/-- R135: OUT_OF_SERVICE with the CALL's landing and without one for the ENABLE, nothing for the CANCELLING
order, and the records sent to G0. -/
def toldOut (t : State) (sent : List GroupMsg) : Bool :=
  decide ((t.reader 3).tx = [.show_ .outOfService none (some 1) none, .tone .refuse]
    ∧ (t.reader 4).tx = [.show_ .outOfService none none none, .tone .refuse]
    ∧ t.reader 5 = leaving.reader 5 ∧ (t.group 0).orders = [] ∧ (t.group 0).tx = sent)

theorem test_group_that_stops_accepting :
    let t := after (.groupState 0 0) leaving
    Runs leaving ∧ (leaving.group 0).avail = .inService ∧ (t.group 0).avail = .notAccepting
      ∧ toldOut t [.withdraw 0] = true
      ∧ (let told : AvailNotice :=
          { group := 0, before := .inService, after := .notAccepting, link := .live, accepting := false
            cause := .acceptingChange, removed := 3, withdrawn := 1, recallChange := none }
         t.notices.queue = [.notice { uptime := 0, body := .availability told }])
      ∧ (after (.groupState 0 1) leaving).notices = leaving.notices := by decide +kernel

theorem test_recall_and_groupSet_end_the_orders :
    let line := leaving.mapRecall 0 fun r =>
      { r with line := { raw := .high, stable := some .low, since := some 0 } }
    (line.recallOf 0).state = .clear ∧ toldOut (after (.lineBecomesActive 0) line) [.withdraw 0] = true
      ∧ toldOut (after (.groupSet (req [0, 1, 0])) leaving) [.withdraw 0] = true := by decide +kernel

/-- A link that goes SILENT sends no WITHDRAW; its notice has the uptime of the second event. -/
theorem test_silent_link_ends_the_orders :
    let s := leaving.mapGroup 0 fun m => { m with silenceDeadline := 1 }
    let t := after (.linkSilent 0) s
    NextSecond s 1 ∧ 1 ≤ (s.reader 3).cfg.hold ∧ (s.reader 3).silenceDeadline = some 3 ∧ toldOut t [] = true
      ∧ t.notices.queue.head? = some (.notice { uptime := 1, body := groupNotice s t 0 .linkSilent none }) := by
  decide +kernel

/-- R171 at 63 notices and at 64: the lower class takes the last place, a withheld notice sets its flag. -/
theorem test_notices_at_the_end_of_the_queue :
    let s (n : Nat) : State := (({ card with notices := { card.notices with
      queue := List.replicate n (.summary .fault) } } : State).raiseNotice (.readerOnline 3)).raiseNotice
        .compactFailed
    let t (n : Nat) := (s n).settle.notices
    (t 63).queue.getLast? = some (.notice { uptime := 0, body := .compactFailed }) ∧ (t 63).queue.length = 64
      ∧ (t 63).isPending .directory = false ∧ (t 63).isPending .reader = true
      ∧ (t 64).queue.length = 64 ∧ (t 64).isPending .directory = true ∧ (t 64).isPending .reader = true := by
  decide +kernel

/-- R87, step 5: pages 0 and 2 are emptied, and their ranges go to page 1, which no edit touches. -/
theorem test_plan_that_widens :
    let row (low high : Badge) (p : Page) (edited : Bool) (bs : List Badge) : PlanRow :=
      { entry := { low := low, high := high, page := p, count := 1, commit := 0 }, edited := edited
        records := bs.map fun b => { badge := b, fresh := none }, added := 0, removed := 0, replaced := 0 }
    let rows := [row 1 99 0 true [], row 100 199 1 false [150], row 200 topBadge 2 true []]
    let kept := [row 1 99 0 true [7], row 100 topBadge 1 false [150]]
    tiles 1 (rows.map fun r => r.entry.range) = true ∧ (planOf rows).released = [0, 2, 1]
      ∧ (planOf rows).copies = [{ low := 1, high := topBadge, records := [{ badge := 150, fresh := none }]
                                  page := none, failures := 0 }]
      ∧ (planOf kept).released = [0] ∧ (planOf kept).copies.map Copy.range = [(1, 99)] := by decide +kernel

/-- R87, step 6: 65 records split into 33 and 32, the upper copy from its first badge on. -/
theorem test_plan_that_splits :
    let row : PlanRow :=
      { entry := entry0, edited := true, added := 1, removed := 0, replaced := 0
        records := (List.range 65).map fun i => { badge := 10 * i + 10, fresh := none } }
    (planOf [row]).copies.map Copy.range = [(1, 339), (340, topBadge)]
      ∧ (planOf [row]).copies.map (fun c => c.records.length) = [33, 32] := by decide +kernel

/-- R97, R113: a silent reader's request leaves the queue; where the engine has it, the answer is dropped. -/
theorem test_readerOffline_settles_the_mark :
    let s := waiting.mapReader 3 fun ch => { ch with silenceDeadline := some 1 }
    let queued := after (.readerOffline 3) { s with queue := [want1], engine := .evaluating car4 none }
    let taken := after (.readerOffline 3) { s with engine := .evaluating want1 none }
    (queued.reader 3).mark = .none ∧ queued.queue = [] ∧ (taken.reader 3).mark = .discard := by decide +kernel

/-- R100, R171: the opening ends a STARTING display, and gives a class it makes ENABLED its SUMMARY. -/
theorem test_admissionOpens_display_and_summary :
    let x : Settings := { card.settings with enables := 0xFF }
    let s0 := (loading { complete := true, checkMatches := true, image := x }).mapReader 3 fun ch =>
      { ch with displayDeadline := some 5 }
    let s : State := { s0 with notices := { NoticeUnit.startUp with pending := 1 } }
    let t := after .admissionOpens s
    (t.reader 3).tx = [.blank] ∧ (t.reader 3).displayDeadline = none ∧ (t.reader 4).tx = []
      ∧ t.notices.queue = [.summary .admission] ∧ t.notices.isPending .admission = false := by decide +kernel

theorem test_offline_channels_come_back :
    let off (c : Chan) := card.mapReader c fun ch => { ch with state := .offline }
    let blind : State := { card with dir := { card.dir with condition := .unusable } }
    ((after (.key 4 0x31) (off 4)).reader 4).tx = [.tone .refuse]
      ∧ ((after (.badge 4 7) (off 4)).reader 4).mark = .owned
      ∧ ((after (.key 3 0x31) (off 3)).reader 3).state = .entry
      ∧ ((after (.badge 3 0) (off 3)).reader 3).state = .idle
      ∧ ((after (.badge 4 7) blind).reader 4).tx =
        [.tone .key, .show_ (.denied .storeFault) none none none, .tone .refuse] := by decide +kernel

/-- Eight spare pages, the ERASING one among them, whose ERASE fails. -/
theorem test_spareLow_at_a_retirement :
    let s := working (.eraseDir 9) []
    let low : State := { s with store := { s.store with
      pageState := vmake fun n => if n < 7 then .free else if n = 9 then .erasing .superseded else .data } }
    low.store.spareSum = 8 ∧ (after .eraseFailure low).faults.isSet .spareLow = true
      ∧ (after .eraseFailure s).faults.isSet .spareLow = false := by decide +kernel

/-- R77 with a page ERASING: the counts of ERASING and WRITING pages are 1 byte, the others 2. -/
theorem test_storeStatus_counts :
    (answerOf (after (.storeStatus (req [])) (working (.eraseDir 9) []))).map (List.take 18)
      = some [0, 0, 0, 1, 2, 30, 0, 1, 0, 0, 1, 0, 0, 0, 0, 0, 0, 0] := by decide +kernel

/-! ### What 10.4 lays out, and the detail words of R173 -/

theorem test_notice_bytes :
    let d : Date := some (5, 601)
    (NoticeBody.presentation
        { channel := 3, car := false, badge := some 7, standing := .suspended, origin := some 0, dest := some 1
          path := .normal, uptime := 600, date := d }).bytes
      = [3, 0, 0, 0, 0, 0, 7, 3, 0, 1, 0, 0, 0, 2, 88, 0, 5, 2, 89]
      ∧ (NoticeBody.availability
          { group := 2, before := .inService, after := .inRecall, link := .live, accepting := true
            cause := .recallChange, removed := 1, withdrawn := 2
            recallChange := some { before := .clear, after := .inRecall, active := true } }).bytes
        = [2, 0, 2, 1, 1, 0, 1, 2, 0, 1, 1]
      ∧ (NoticeBody.faultRaised .storeProgramFail true 2050 false none).bytes
        = [5, 1, 8, 2, 0, 0xFF, 0xFF, 0xFF, 0xFF]
      ∧ (NoticeBody.clockSet .unset 0 0 5 601).bytes = [0, 0, 0, 0, 0, 1, 0, 5, 2, 89]
      ∧ (NoticeBody.switch 1 2 .nextMinute 5 601).bytes = [0, 1, 0, 2, 0, 0xFF, 0xFF, 0, 5, 2, 89]
      ∧ (NoticeBody.switch 1 2 (.at 601) 5 601).bytes = [0, 1, 0, 2, 1, 2, 89, 0, 5, 2, 89]
      ∧ (NoticeBody.readerOffline 3 .showing).bytes = [3, 6] := by decide +kernel

theorem test_directory_notice_bytes :
    (NoticeBody.committed
        { number := 258, edits := 3, added := 2, removed := 1, replaced := 0, recordCount := 300, written := 4
          released := 5, purged := 6 }).bytes = [0, 0, 1, 2, 3, 2, 1, 0, 1, 44, 4, 5, 6]
      ∧ (NoticeBody.commitFailed 258 3 1 .noPages).bytes = [0, 0, 1, 2, 3, 1, 1]
      ∧ (NoticeBody.compactDone 258 300).bytes = [0, 0, 1, 2, 1, 44] := by decide +kernel

theorem test_record_and_profile_bytes :
    ({ holder with accessible := true, expiry := some 258, slots := 1 } : Record).bytes
      = [0, 0, 0, 0, 7, 0, 8, 7, 1, 1, 1, 2, 1, 1]
      ∧ profile8.bytes = [0, 1, 2] ++ List.replicate 15 0 ++ [0xFF, 0, 0, 0, 0] := by decide +kernel

/-- A page whose PROGRAM fails, and the commit that its second failure ends. -/
theorem test_details_of_a_failed_program :
    let t := after .programFailure programming
    let u := after .programFailure t
    Raises programming t .storeProgramFail 1 ∧ Raises t u .storeProgramFail 2 ∧ Raises t u .commitFail 1 := by
  decide +kernel

theorem test_details_of_failed_erases_and_saves :
    let e := working (.eraseDir 9) []
    let s := saving (.saveProgram 3) 67
    Raises e (after .eraseFailure e) .storeEraseFail 9
      ∧ Raises s (after .settingsSaveFailure s) .storeProgramFail 2051 := by decide +kernel

/-- A page that fails its check as a lookup, a planning read and a COMPACT read it. -/
theorem test_details_of_failed_reads :
    let broken (s : State) : State := onPage0 s .erased
    let l := stagingAt (broken opened) { badge := 7, kind := .drop }
    let p := broken planning
    let c := broken (after (.compact (req [])) card)
    Raises l (after (.lookup false) l) .storeFault 0 ∧ Raises p (after .planningRead p) .storeFault 0
      ∧ Raises c (after .compactRead c) .storeFault 0 ∧ Raises c (after .compactRead c) .commitFail 1 := by
  decide +kernel

/-- The faults of the links; the one of a second event carries the day and week-minute it brings. -/
theorem test_details_of_the_links :
    let s : State := { card with cal := { card.cal with state := .set, day := 5, weekMinute := 600, second := 59 } }
    let silent := s.mapReader 3 fun ch => { ch with silenceDeadline := some 1 }
    let t := after (.readerOffline 3) silent
    Raises silent t .readerOffline 3 ∧ t.date = some (5, 601)
      ∧ Raises card (after (.groupState 2 7) card) .groupProtocol 767
      ∧ Raises card (after (.refuse 2 9) card) .groupProtocol 521 := by decide +kernel

/-- 239 is the highest profile that the key OFF leaves to the lookup. -/
theorem test_service_profiles_begin_at_240 :
    let s : State := { locked with batch := opened.batch }
    (after (.stagePut (req (put9 239))) s).store.prio = [.portRead 9]
      ∧ refuses (.stagePut (req (put9 240))) s (frame 0x09 (put9 240)) .guarded [] = true := by decide +kernel

/-! ### Held, restarted, dropped -/

/-- The card held by the reset input. -/
def heldCard : State := { card with power := .held }

/-- R169: a held card takes no frame and sends none. -/
theorem test_a_held_card_takes_no_frame :
    heldCard.power = .held ∧ exec (.badge 3 7) heldCard = .next heldCard
      ∧ exec (.groupState 0 1) heldCard = .next heldCard
      ∧ exec (.identify (req [])) heldCard = .next heldCard
      ∧ exec (.inFrame .site 0xC3) heldCard = .next heldCard
      ∧ exec .transmitComplete heldCard = .next heldCard := by
  have down : heldCard.power ≠ .running := nofun
  refine ⟨rfl, ?_⟩
  simp only [exec, execBadge, execGroupState, execIdentify, siteRequest, execInFrame, execTransmitComplete,
    whileRunning_of_down _ _ down, and_self]

/-- What a card that had other settings starts up with; the reset input's raw level is high. -/
theorem test_start_up_of_inputs_and_faults :
    let level : GroupConfig := { polarity := .activeHigh, mode := .level }
    let other := card.mapRecall 2 fun r => { r with cfg := { polarity := .activeLow, mode := .latched } }
    let s : State := { other with
      power := .off, resetIn := { raw := .high, stable := some .low, since := none }
      faults := { card.faults with masks := 5, majors := 0, storeDetail := 9 } }
    let t := after .powerOn s
    t.recallOf 2 = { cfg := level, line := { raw := .low, stable := none, since := some 0 }
                     state := .inRecall, fixed := false }
      ∧ t.faults.masks = 0 ∧ t.faults.major .spareLow = true ∧ t.faults.storeDetail = 0
      ∧ t.resetIn = { raw := .high, stable := some .low, since := some 0 } := by decide +kernel

theorem test_an_accepted_image_loses_no_settings :
    let s := loading { complete := true, checkMatches := true, image := { card.settings with bankNumber := 9 } }
    let t := after .admissionOpens s
    t.faults.isSet .settingsLost = false ∧ t.store.area.image.bankNumber = 9 ∧ t.store.workQ = []
      ∧ t.dir.index = s.dir.index := by decide +kernel

/-- R97: the answers to a channel that lost its admission are dropped. -/
theorem test_discarded_answers :
    let dropping := ordered.mapReader 3 fun ch => { ch with mark := .discard }
    let deciding := (waiting.mapReader 3 fun ch => { ch with mark := .discard })
    let denied : State := { deciding with engine := .evaluating want1 (some (.absent 0)) }
    (after (.assign 0 0 7) dropping).reader 3 = answerDropped (dropping.reader 3)
      ∧ (after (.refuse 0 0) dropping).reader 3 = answerDropped (dropping.reader 3)
      ∧ (after (.lookup true) denied).reader 3 = answerDropped (denied.reader 3)
      ∧ (answerDropped (dropping.reader 3)).state = .idle := by decide +kernel

/-- R146: WITHDRAW, then the CANCELs in tag order; the CALL and the other car stay. -/
theorem test_departure_with_two_enables :
    let row (m : Motion) : CarRow :=
      { landing := some 0, motion := some m, door := some .closed, inService := some true }
    let call : Order := { call1 with tag := 5 }
    let e (n : Byte) (c : Chan) : Order := { enable1 with tag := n, channel := c }
    let s := (ordered.mapReader 6 fun _ => { pendingReader with mark := .discard }).mapGroup 0 fun m => { m with
      orders := [call, e 3 4, e 1 6], cars := m.cars.set 0 (row .stopped)
      enables := m.enables.set 1 { confirmed := 8, expiry := some 9 } }
    let t := after (.carState 0 0 0 1 1 1) s
    (t.group 0).tx = [.withdraw 0, .cancel 1, .cancel 3]
      ∧ (t.group 0).orders =
        [call, { e 3 4 with state := .cancelling 5 }, { e 1 6 with state := .cancelling 5 }]
      ∧ (t.group 0).enables[(1 : Car)].confirmed = 8 ∧ t.reader 3 = s.reader 3
      ∧ (t.reader 4).state = .showing ∧ t.reader 6 = answerDropped (s.reader 6) := by decide +kernel

/-- R62, R91: a failed ERASE leaves no page for the second copy; the held page is abandoned. -/
theorem test_a_failed_erase_ends_the_work :
    let c (p : Option Page) : Copy := { low := 1, high := 9, records := [], page := p, failures := 0 }
    let w : Work :=
      { kind := .commit, number := 65540, phase := .programming, copies := [c (some 3), c none], released := []
        added := 0, removed := 0, replaced := 0, todo := [], gathered := [] }
    let s0 := working (.eraseDir 9) [.program 1]
    let s : State := { s0 with store := { s0.store with
      work := some w
      pageState := vmake fun n => if n = 3 then .stale .held else if n = 9 then .erasing .superseded else .data } }
    let t := after .eraseFailure s
    (s.store.setState 9 .retired).obtainable < w.unprogrammed
      ∧ t.store.work = none ∧ t.store.workQ = [] ∧ t.store.stateOf 3 = .erasing .abandoned
      ∧ t.batch = Batch.startUp ∧ Raises s t .commitFail 4 := by decide +kernel

/-! ### A presentation at the lobby, end to end -/

theorem test_a_presentation :
    let t := afterAll [.badge 3 7, .key 3 0x31, .key 3 0x0D, .lookup true, .assign 0 0 2, .tripMark] card
    (t.reader 3).state = .showing ∧ (t.group 0).orders = [] ∧ t.dir.marksTaken = 1
      ∧ t.engine = .idle := by decide +kernel

end Sys2Proof.Tests
end

section
/-! PROOF. Ascending lists: the numbers below a bound in order, the lowest that satisfies a condition, and
the place of a number among those that satisfy it. -/

namespace Sys2Proof.Machine

theorem finList_eq_finRange (n : Nat) : finList n = List.finRange n := by
  have same : (finList n).map Fin.val = (List.finRange n).map Fin.val := by
    rw [List.map_coe_finRange_eq_range, finList, List.map_filterMap]
    conv_rhs => rw [← List.filterMap_some (l := List.range n)]
    refine List.filterMap_congr fun i hi => ?_
    simp [List.mem_range.mp hi]
  exact List.map_injective_iff.mpr Fin.val_injective same

@[simp] theorem mem_finList {n : Nat} (i : Fin n) : i ∈ finList n := by
  simp [finList_eq_finRange]

theorem finList_ascending (n : Nat) : (finList n).Pairwise (· < ·) := by
  rw [finList_eq_finRange]
  exact (List.sortedLT_finRange n).pairwise

/-- The first number that satisfies `q` is the lowest one. -/
theorem finList_find?_eq_some_iff {n : Nat} (q : Fin n → Bool) (i : Fin n) :
    (finList n).find? q = some i ↔ q i = true ∧ ∀ j < i, q j = false := by
  have asc := finList_ascending n
  rw [List.find?_eq_some_iff_append]
  refine and_congr_right fun _ => ⟨?_, fun low => ?_⟩
  · rintro ⟨pre, post, e, none⟩ j lt
    have mem : j ∈ pre ++ i :: post := e ▸ mem_finList j
    rw [e, List.pairwise_append, List.pairwise_cons] at asc
    obtain ⟨-, ⟨after, -⟩, -⟩ := asc
    rcases List.mem_append.mp mem with h | h
    · simpa using none j h
    · rcases List.mem_cons.mp h with rfl | h
      · exact absurd lt (lt_irrefl _)
      · exact absurd (lt_trans lt (after j h)) (lt_irrefl _)
  · obtain ⟨pre, post, e⟩ := List.append_of_mem (mem_finList i)
    rw [e, List.pairwise_append] at asc
    obtain ⟨-, -, before⟩ := asc
    exact ⟨pre, post, e, fun a ha => by simp [low a (before a ha i List.mem_cons_self)]⟩

end Sys2Proof.Machine
end

section
/-! PROOF. The route computation (R11 to R14): what a leg is, the routes of two and three legs in the order
of their changes, the nearest of them, and what the search finds. -/

namespace Sys2Proof.Machine

/-! ### Eligibility and legs (R11, R12) -/

/-- R12: a group that may carry a leg from `a` to `b`. -/
def ZoneMap.Joins (z : ZoneMap) (elig : Group → Bool) (g : Group) (a b : Landing) : Prop :=
  elig g = true ∧ (z.group g).served.getLsbD a.val = true ∧ (z.group g).served.getLsbD b.val = true

/-- The two eligibilities of R14: with the availability of the groups, and widened without it. -/
def State.eligibility (s : State) (widened allowed : Bool) : Group → Bool :=
  if widened then s.zone.open_ allowed else s.eligible allowed

theorem joins_eligibility_iff (s : State) (widened allowed : Bool) (g : Group) (a b : Landing) :
    s.zone.Joins (s.eligibility widened allowed) g a b ↔
      (s.zone.group g).present = true ∧ ((s.zone.group g).serviceCar = true → allowed = true)
        ∧ (widened = true ∨ (s.group g).avail = .inService)
        ∧ (s.zone.group g).served.getLsbD a.val = true ∧ (s.zone.group g).served.getLsbD b.val = true := by
  have car : ((s.zone.group g).serviceCar = false ∨ allowed = true)
      ↔ ((s.zone.group g).serviceCar = true → allowed = true) := by
    cases (s.zone.group g).serviceCar <;> simp
  cases widened with
  | false => simp [ZoneMap.Joins, State.eligibility, State.eligible, ZoneMap.open_, car, and_assoc]
  | true => simp [ZoneMap.Joins, State.eligibility, ZoneMap.open_, car, and_assoc]

theorem leg_eq_some_iff (z : ZoneMap) (elig : Group → Bool) (a b : Landing) (l : Leg) :
    z.leg elig a b = some l ↔ a ≠ b ∧ l.src = a ∧ l.dst = b ∧ z.Joins elig l.group a b
      ∧ ∀ h < l.group, ¬ z.Joins elig h a b := by
  have low : ∀ g, (finList 6).find? (fun g => elig g && LandingSet.has (z.group g).served a
        && LandingSet.has (z.group g).served b) = some g
      ↔ z.Joins elig g a b ∧ ∀ h < g, ¬ z.Joins elig h a b := fun g => by
    rw [finList_find?_eq_some_iff]
    simp [ZoneMap.Joins, LandingSet.has, and_assoc]
  unfold ZoneMap.leg
  split
  · simp [*]
  · rename_i ne
    simp only [Option.map_eq_some_iff, low]
    constructor
    · rintro ⟨g, h, rfl⟩
      exact ⟨ne, rfl, rfl, h⟩
    · rintro ⟨-, rfl, rfl, h⟩
      exact ⟨l.group, h, rfl⟩

theorem leg_isSome_iff (z : ZoneMap) (elig : Group → Bool) (a b : Landing) :
    (z.leg elig a b).isSome = true ↔ a ≠ b ∧ ∃ g, z.Joins elig g a b := by
  unfold ZoneMap.leg
  split
  · simp [*]
  · simp [*, ZoneMap.Joins, LandingSet.has, and_assoc, List.find?_isSome]

theorem leg_ends {z : ZoneMap} {elig : Group → Bool} {a b : Landing} {l : Leg}
    (h : z.leg elig a b = some l) : l.src = a ∧ l.dst = b := by
  obtain ⟨-, src, dst, -⟩ := (leg_eq_some_iff z elig a b l).mp h
  exact ⟨src, dst⟩

/-! ### The nearest route (R13) -/

theorem nearest_concat_of_none {rs : List (List Leg)} (r : List Leg) (h : nearest rs = none) :
    nearest (rs ++ [r]) = some r := by
  unfold nearest at *
  rw [List.foldl_append, h]
  rfl

theorem nearest_concat_of_some {rs : List (List Leg)} (r : List Leg) {b : List Leg} (h : nearest rs = some b) :
    nearest (rs ++ [r]) = some (if routeDistance r < routeDistance b then r else b) := by
  unfold nearest at *
  rw [List.foldl_append, h, apply_ite some]
  rfl

theorem nearest_eq_none_iff (rs : List (List Leg)) : nearest rs = none ↔ rs = [] := by
  refine ⟨fun h => ?_, fun h => by rw [h]; rfl⟩
  rcases List.eq_nil_or_concat rs with e | ⟨init, r, rfl⟩
  · exact e
  · rw [List.concat_eq_append] at h
    cases e : nearest init with
    | none => simp [nearest_concat_of_none r e] at h
    | some b => simp [nearest_concat_of_some r e] at h

/-- Where the legs of a route end, in order. -/
def routeStops (r : List Leg) : List Landing := r.map Leg.dst

/-- R13: of routes that stand by ascending stops the nearest is one that none is shorter than, and of those as
short the one of the lowest stops. -/
theorem nearest_best {rs : List (List Leg)}
    (sorted : rs.Pairwise fun r x => routeStops r < routeStops x) {r : List Leg} (h : nearest rs = some r) :
    r ∈ rs ∧ ∀ x ∈ rs, routeDistance r < routeDistance x
      ∨ (routeDistance r = routeDistance x ∧ routeStops r ≤ routeStops x) := by
  induction rs using List.reverseRecOn generalizing r with
  | nil => cases h
  | append_singleton rs last ih =>
    obtain ⟨sorted', -, toLast⟩ := List.pairwise_append.mp sorted
    cases e : nearest rs with
    | none =>
      rw [nearest_concat_of_none last e, Option.some_inj] at h
      rw [nearest_eq_none_iff] at e
      simp [e, h]
    | some b =>
      rw [nearest_concat_of_some last e, Option.some_inj] at h
      obtain ⟨mem, best⟩ := ih sorted' e
      by_cases shorter : routeDistance last < routeDistance b
      · obtain rfl : last = r := by simpa [shorter] using h
        refine ⟨by simp, fun x hx => ?_⟩
        rcases List.mem_append.mp hx with old | new
        · left; rcases best x old with c | ⟨c, -⟩ <;> omega
        · right; simp [List.mem_singleton.mp new]
      · obtain rfl : b = r := by simpa [shorter] using h
        refine ⟨by simp [mem], fun x hx => ?_⟩
        rcases List.mem_append.mp hx with old | new
        · exact best x old
        · obtain rfl := List.mem_singleton.mp new
          have later := toLast b mem x (by simp)
          rcases Nat.lt_or_ge (routeDistance b) (routeDistance x) with c | c
          · exact Or.inl c
          · exact Or.inr ⟨by omega, le_of_lt later⟩

/-! ### Routes of two and of three legs (R13) -/

/-- R13: a landing at which a route from `o` to `d` may change. -/
def ZoneMap.ChangeAt (z : ZoneMap) (o d t : Landing) : Prop :=
  (z.landing t).present = true ∧ (z.landing t).transfer = true ∧ t ≠ o ∧ t ≠ d

/-- The transfer landings between two ends, ascending. -/
def ZoneMap.changes (z : ZoneMap) (o d : Landing) : List Landing :=
  z.transfers.filter fun t => t != o && t != d

theorem mem_changes_iff (z : ZoneMap) (o d t : Landing) : t ∈ z.changes o d ↔ z.ChangeAt o d t := by
  simp only [ZoneMap.changes, ZoneMap.transfers, ZoneMap.ChangeAt, List.mem_filter, mem_finList, true_and,
    Bool.and_eq_true, bne_iff_ne, and_assoc]

theorem transfers_ascending (z : ZoneMap) : z.transfers.Pairwise (· < ·) :=
  (finList_ascending 128).filter _

theorem changes_ascending (z : ZoneMap) (o d : Landing) : (z.changes o d).Pairwise (· < ·) :=
  (transfers_ascending z).filter _

/-- The route from `o` to `d` with one change, at `t`. -/
def ZoneMap.via (z : ZoneMap) (elig : Group → Bool) (o d t : Landing) : Option (List Leg) :=
  match z.leg elig o t, z.leg elig t d with
  | some l, some k => some [l, k]
  | _, _ => none

/-- The route from `o` to `d` with two changes, at `t` and at `u`. -/
def ZoneMap.viaTwo (z : ZoneMap) (elig : Group → Bool) (o d t u : Landing) : Option (List Leg) :=
  match z.leg elig o t, z.leg elig t u, z.leg elig u d with
  | some l, some k, some m => some [l, k, m]
  | _, _, _ => none

theorem twoLegs_eq (z : ZoneMap) (elig : Group → Bool) (o d : Landing) :
    z.twoLegs elig o d = (z.changes o d).filterMap (z.via elig o d) := rfl

theorem threeLegs_eq (z : ZoneMap) (elig : Group → Bool) (o d : Landing) :
    z.threeLegs elig o d = (z.changes o d).flatMap fun t => (z.changes o d).filterMap (z.viaTwo elig o d t) :=
  rfl

theorem via_eq_some_iff (z : ZoneMap) (elig : Group → Bool) (o d t : Landing) (r : List Leg) :
    z.via elig o d t = some r ↔
      ∃ l k, z.leg elig o t = some l ∧ z.leg elig t d = some k ∧ r = [l, k] := by
  unfold ZoneMap.via
  cases z.leg elig o t <;> cases z.leg elig t d <;> simp [eq_comm]

theorem viaTwo_eq_some_iff (z : ZoneMap) (elig : Group → Bool) (o d t u : Landing) (r : List Leg) :
    z.viaTwo elig o d t u = some r ↔ ∃ l k m, z.leg elig o t = some l ∧ z.leg elig t u = some k
      ∧ z.leg elig u d = some m ∧ r = [l, k, m] := by
  unfold ZoneMap.viaTwo
  cases z.leg elig o t <;> cases z.leg elig t u <;> cases z.leg elig u d <;> simp [eq_comm]

/-- A change is possible where both its legs are. -/
theorem via_isSome_iff (z : ZoneMap) (elig : Group → Bool) (o d t : Landing) :
    (z.via elig o d t).isSome = true ↔ (z.leg elig o t).isSome = true ∧ (z.leg elig t d).isSome = true := by
  unfold ZoneMap.via
  cases z.leg elig o t <;> cases z.leg elig t d <;> simp

theorem viaTwo_isSome_iff (z : ZoneMap) (elig : Group → Bool) (o d t u : Landing) :
    (z.viaTwo elig o d t u).isSome = true ↔ (z.leg elig o t).isSome = true
      ∧ (z.leg elig t u).isSome = true ∧ (z.leg elig u d).isSome = true := by
  unfold ZoneMap.viaTwo
  cases z.leg elig o t <;> cases z.leg elig t u <;> cases z.leg elig u d <;> simp

theorem stops_of_via {z : ZoneMap} {elig : Group → Bool} {o d t : Landing} {r : List Leg}
    (h : z.via elig o d t = some r) : routeStops r = [t, d] := by
  obtain ⟨l, k, hl, hk, rfl⟩ := (via_eq_some_iff z elig o d t r).mp h
  simp [routeStops, leg_ends hl, leg_ends hk]

theorem stops_of_viaTwo {z : ZoneMap} {elig : Group → Bool} {o d t u : Landing} {r : List Leg}
    (h : z.viaTwo elig o d t u = some r) : routeStops r = [t, u, d] := by
  obtain ⟨l, k, m, hl, hk, hm, rfl⟩ := (viaTwo_eq_some_iff z elig o d t u r).mp h
  simp [routeStops, leg_ends hl, leg_ends hk, leg_ends hm]

theorem mem_twoLegs_iff (z : ZoneMap) (elig : Group → Bool) (o d : Landing) (r : List Leg) :
    r ∈ z.twoLegs elig o d ↔ ∃ t, z.ChangeAt o d t ∧ z.via elig o d t = some r := by
  simp [twoLegs_eq, List.mem_filterMap, mem_changes_iff]

theorem mem_threeLegs_iff (z : ZoneMap) (elig : Group → Bool) (o d : Landing) (r : List Leg) :
    r ∈ z.threeLegs elig o d ↔
      ∃ t u, z.ChangeAt o d t ∧ z.ChangeAt o d u ∧ z.viaTwo elig o d t u = some r := by
  simp [threeLegs_eq, List.mem_flatMap, List.mem_filterMap, mem_changes_iff]

/-- R13: the routes with one change stand by ascending transfer landing. -/
theorem twoLegs_ascending (z : ZoneMap) (elig : Group → Bool) (o d : Landing) :
    (z.twoLegs elig o d).Pairwise fun r x => routeStops r < routeStops x := by
  refine (changes_ascending z o d).filterMap _ fun t v lt r hr x hx => ?_
  simp [stops_of_via hr, stops_of_via hx, List.cons_lt_cons_iff, lt]

/-- R13: the routes with two changes stand by ascending pair of transfer landings. -/
theorem threeLegs_ascending (z : ZoneMap) (elig : Group → Bool) (o d : Landing) :
    (z.threeLegs elig o d).Pairwise fun r x => routeStops r < routeStops x := by
  have asc := changes_ascending z o d
  rw [threeLegs_eq, List.pairwise_flatMap]
  refine ⟨fun t _ => asc.filterMap _ fun u w lt r hr x hx => ?_, asc.imp fun lt r hr x hx => ?_⟩
  · simp [stops_of_viaTwo hr, stops_of_viaTwo hx, List.cons_lt_cons_iff, lt]
  · obtain ⟨u, -, hu⟩ := List.mem_filterMap.mp hr
    obtain ⟨w, -, hw⟩ := List.mem_filterMap.mp hx
    simp [stops_of_viaTwo hu, stops_of_viaTwo hw, List.cons_lt_cons_iff, lt]

/-! ### The search (R13) -/

/-- The number of landings between two. -/
def apart (a b : Landing) : Nat := (a.val - b.val) + (b.val - a.val)

theorem distance_of_via {z : ZoneMap} {elig : Group → Bool} {o d t : Landing} {r : List Leg}
    (h : z.via elig o d t = some r) : routeDistance r = apart o t + apart t d := by
  obtain ⟨l, k, hl, hk, rfl⟩ := (via_eq_some_iff z elig o d t r).mp h
  simp [routeDistance, Leg.distance, apart, leg_ends hl, leg_ends hk]

theorem distance_of_viaTwo {z : ZoneMap} {elig : Group → Bool} {o d t u : Landing} {r : List Leg}
    (h : z.viaTwo elig o d t u = some r) : routeDistance r = apart o t + apart t u + apart u d := by
  obtain ⟨l, k, m, hl, hk, hm, rfl⟩ := (viaTwo_eq_some_iff z elig o d t u r).mp h
  simp [routeDistance, Leg.distance, apart, leg_ends hl, leg_ends hk, leg_ends hm, add_assoc]

/-- R13: the shortest change is at the landing of the shortest total, the lower one among equals. -/
theorem nearest_twoLegs {z : ZoneMap} {elig : Group → Bool} {o d : Landing} {r : List Leg}
    (h : nearest (z.twoLegs elig o d) = some r) :
    ∃ t, z.ChangeAt o d t ∧ z.via elig o d t = some r
      ∧ ∀ u, z.ChangeAt o d u → (z.via elig o d u).isSome = true →
        apart o t + apart t d < apart o u + apart u d
        ∨ (apart o t + apart t d = apart o u + apart u d ∧ t ≤ u) := by
  obtain ⟨mem, best⟩ := nearest_best (twoLegs_ascending z elig o d) h
  obtain ⟨t, ht, et⟩ := (mem_twoLegs_iff z elig o d r).mp mem
  refine ⟨t, ht, et, fun u hu can => ?_⟩
  obtain ⟨x, eu⟩ := Option.isSome_iff_exists.mp can
  have first := best x ((mem_twoLegs_iff z elig o d x).mpr ⟨u, hu, eu⟩)
  rw [distance_of_via et, distance_of_via eu, stops_of_via et, stops_of_via eu] at first
  refine first.imp_right fun ⟨same, stops⟩ => ⟨same, ?_⟩
  simpa [List.cons_lt_cons_iff] using not_lt.mpr stops

/-- R13: the shortest two changes are at the pair of the shortest total, the lower pair among equals. -/
theorem nearest_threeLegs {z : ZoneMap} {elig : Group → Bool} {o d : Landing} {r : List Leg}
    (h : nearest (z.threeLegs elig o d) = some r) :
    ∃ t u, z.ChangeAt o d t ∧ z.ChangeAt o d u ∧ z.viaTwo elig o d t u = some r
      ∧ ∀ v w, z.ChangeAt o d v → z.ChangeAt o d w → (z.viaTwo elig o d v w).isSome = true →
        apart o t + apart t u + apart u d < apart o v + apart v w + apart w d
        ∨ (apart o t + apart t u + apart u d = apart o v + apart v w + apart w d
          ∧ (t < v ∨ (t = v ∧ u ≤ w))) := by
  obtain ⟨mem, best⟩ := nearest_best (threeLegs_ascending z elig o d) h
  obtain ⟨t, u, ht, hu, e⟩ := (mem_threeLegs_iff z elig o d r).mp mem
  refine ⟨t, u, ht, hu, e, fun v w hv hw can => ?_⟩
  obtain ⟨x, ex⟩ := Option.isSome_iff_exists.mp can
  have first := best x ((mem_threeLegs_iff z elig o d x).mpr ⟨v, w, hv, hw, ex⟩)
  rw [distance_of_viaTwo e, distance_of_viaTwo ex, stops_of_viaTwo e, stops_of_viaTwo ex] at first
  refine first.imp_right fun ⟨same, stops⟩ => ⟨same, ?_⟩
  have pair : v < t ∨ (v = t ∧ w < u) → False := by simpa [List.cons_lt_cons_iff] using not_lt.mpr stops
  rcases lt_trichotomy t v with lt | rfl | lt
  · exact Or.inl lt
  · exact Or.inr ⟨rfl, not_lt.mp fun lt => pair (Or.inr ⟨rfl, lt⟩)⟩
  · exact absurd (Or.inl lt) pair

theorem nearest_isSome_iff (rs : List (List Leg)) : (nearest rs).isSome = true ↔ ∃ r, r ∈ rs := by
  rw [← List.length_pos_iff_exists_mem, List.length_pos_iff, Option.isSome_iff_ne_none, Ne, nearest_eq_none_iff]

theorem nearest_twoLegs_isSome_iff (z : ZoneMap) (elig : Group → Bool) (o d : Landing) :
    (nearest (z.twoLegs elig o d)).isSome = true ↔
      ∃ t, z.ChangeAt o d t ∧ (z.via elig o d t).isSome = true := by
  rw [nearest_isSome_iff]
  constructor
  · rintro ⟨r, mem⟩
    obtain ⟨t, ht, e⟩ := (mem_twoLegs_iff z elig o d r).mp mem
    exact ⟨t, ht, Option.isSome_of_eq_some e⟩
  · rintro ⟨t, ht, can⟩
    obtain ⟨r, e⟩ := Option.isSome_iff_exists.mp can
    exact ⟨r, (mem_twoLegs_iff z elig o d r).mpr ⟨t, ht, e⟩⟩

theorem nearest_threeLegs_isSome_iff (z : ZoneMap) (elig : Group → Bool) (o d : Landing) :
    (nearest (z.threeLegs elig o d)).isSome = true ↔
      ∃ t u, z.ChangeAt o d t ∧ z.ChangeAt o d u ∧ (z.viaTwo elig o d t u).isSome = true := by
  rw [nearest_isSome_iff]
  constructor
  · rintro ⟨r, mem⟩
    obtain ⟨t, u, ht, hu, e⟩ := (mem_threeLegs_iff z elig o d r).mp mem
    exact ⟨t, u, ht, hu, Option.isSome_of_eq_some e⟩
  · rintro ⟨t, u, ht, hu, can⟩
    obtain ⟨r, e⟩ := Option.isSome_iff_exists.mp can
    exact ⟨r, (mem_threeLegs_iff z elig o d r).mpr ⟨t, u, ht, hu, e⟩⟩

theorem search_of_leg {z : ZoneMap} {elig : Group → Bool} {o d : Landing} {l : Leg}
    (h : z.leg elig o d = some l) : z.search elig o d = some [l] := by
  simp [ZoneMap.search, h]

theorem search_of_no_leg {z : ZoneMap} {elig : Group → Bool} {o d : Landing} (h : z.leg elig o d = none) :
    z.search elig o d = (nearest (z.twoLegs elig o d) <|> nearest (z.threeLegs elig o d)) := by
  simp [ZoneMap.search, h]

theorem search_isSome_iff (z : ZoneMap) (elig : Group → Bool) (o d : Landing) :
    (z.search elig o d).isSome = true ↔ (z.leg elig o d).isSome = true
      ∨ (∃ t, z.ChangeAt o d t ∧ (z.via elig o d t).isSome = true)
      ∨ ∃ t u, z.ChangeAt o d t ∧ z.ChangeAt o d u ∧ (z.viaTwo elig o d t u).isSome = true := by
  rw [← nearest_twoLegs_isSome_iff, ← nearest_threeLegs_isSome_iff]
  simp [ZoneMap.search]

/-- R13: without a direct leg the search gives the shortest change where there is one. -/
theorem search_one_change {z : ZoneMap} {elig : Group → Bool} {o d : Landing} (noleg : z.leg elig o d = none)
    (ex : ∃ t, z.ChangeAt o d t ∧ (z.via elig o d t).isSome = true) :
    ∃ t l k, z.search elig o d = some [l, k] ∧ z.ChangeAt o d t ∧ z.leg elig o t = some l
      ∧ z.leg elig t d = some k
      ∧ ∀ u, z.ChangeAt o d u → (z.via elig o d u).isSome = true →
        apart o t + apart t d < apart o u + apart u d
        ∨ (apart o t + apart t d = apart o u + apart u d ∧ t ≤ u) := by
  obtain ⟨r, e⟩ := Option.isSome_iff_exists.mp ((nearest_twoLegs_isSome_iff z elig o d).mpr ex)
  obtain ⟨t, ht, via, best⟩ := nearest_twoLegs e
  obtain ⟨l, k, hl, hk, rfl⟩ := (via_eq_some_iff z elig o d t r).mp via
  exact ⟨t, l, k, by simp [search_of_no_leg noleg, e], ht, hl, hk, best⟩

/-- R13: without a direct leg and without one change it gives the shortest two changes where there are any. -/
theorem search_two_changes {z : ZoneMap} {elig : Group → Bool} {o d : Landing} (noleg : z.leg elig o d = none)
    (noone : ¬ ∃ t, z.ChangeAt o d t ∧ (z.via elig o d t).isSome = true)
    (ex : ∃ t u, z.ChangeAt o d t ∧ z.ChangeAt o d u ∧ (z.viaTwo elig o d t u).isSome = true) :
    ∃ t u l k m, z.search elig o d = some [l, k, m] ∧ z.ChangeAt o d t ∧ z.ChangeAt o d u
      ∧ z.leg elig o t = some l ∧ z.leg elig t u = some k ∧ z.leg elig u d = some m
      ∧ ∀ v w, z.ChangeAt o d v → z.ChangeAt o d w → (z.viaTwo elig o d v w).isSome = true →
        apart o t + apart t u + apart u d < apart o v + apart v w + apart w d
        ∨ (apart o t + apart t u + apart u d = apart o v + apart v w + apart w d
          ∧ (t < v ∨ (t = v ∧ u ≤ w))) := by
  have notwo : nearest (z.twoLegs elig o d) = none := by
    simpa using mt (nearest_twoLegs_isSome_iff z elig o d).mp noone
  obtain ⟨r, e⟩ := Option.isSome_iff_exists.mp ((nearest_threeLegs_isSome_iff z elig o d).mpr ex)
  obtain ⟨t, u, ht, hu, via, best⟩ := nearest_threeLegs e
  obtain ⟨l, k, m, hl, hk, hm, rfl⟩ := (viaTwo_eq_some_iff z elig o d t u r).mp via
  exact ⟨t, u, l, k, m, by simp [search_of_no_leg noleg, notwo, e], ht, hu, hl, hk, hm, best⟩

/-! ### The result (R13, R14) -/

theorem route_of_absent (s : State) (allowed : Bool) (o d : Landing)
    (h : (s.zone.landing o).present = false ∨ (s.zone.landing d).present = false) :
    s.route allowed o d = .noRoute := by
  simp [State.route, h]

section
variable {s : State} {o d : Landing} (allowed : Bool) (ho : (s.zone.landing o).present = true)
  (hd : (s.zone.landing d).present = true)
include ho hd

theorem route_of_same (e : o = d) : s.route allowed o d = .sameLanding := by
  subst e
  simp [State.route, ho]

theorem route_of_found (ne : o ≠ d) {r : List Leg}
    (h : s.zone.search (s.eligibility false allowed) o d = some r) : s.route allowed o d = .route r := by
  rw [show s.eligibility false allowed = s.eligible allowed from rfl] at h
  simp [State.route, ho, hd, ne, h]

theorem route_of_not_found (ne : o ≠ d) (h : s.zone.search (s.eligibility false allowed) o d = none) :
    s.route allowed o d = if (s.zone.search (s.eligibility true allowed) o d).isSome then .outOfService
      else .noRoute := by
  rw [show s.eligibility false allowed = s.eligible allowed from rfl] at h
  rw [show s.eligibility true allowed = s.zone.open_ allowed from rfl]
  simp [State.route, ho, hd, ne, h]

end

end Sys2Proof.Machine

namespace Sys2Proof

open Machine

/-- Settles O11: each clause of the statement is the search's own, once a possible leg is read as `leg`, a
change as `via` and two changes as `viaTwo`. -/
theorem routesGoDirectFirst : Obligations.RoutesGoDirectFirst := by
  unfold Obligations.RoutesGoDirectFirst
  intro s allowed o d serves possible legOf dist change one two direct found
  have possible_iff : ∀ w a b, possible w a b ↔ (s.zone.leg (s.eligibility w allowed) a b).isSome = true :=
    fun w a b => by
      simp only [leg_isSome_iff, joins_eligibility_iff]
      rfl
  have legOf_iff : ∀ l a b, legOf l a b ↔ s.zone.leg (s.eligibility false allowed) a b = some l :=
    fun l a b => by
      simp only [leg_eq_some_iff, joins_eligibility_iff]
      rfl
  have one_iff : ∀ w t, one w t ↔
      s.zone.ChangeAt o d t ∧ (s.zone.via (s.eligibility w allowed) o d t).isSome = true := fun w t => by
    rw [via_isSome_iff, ← possible_iff, ← possible_iff]
    rfl
  have two_iff : ∀ w t u, two w t u ↔ s.zone.ChangeAt o d t ∧ s.zone.ChangeAt o d u
      ∧ (s.zone.viaTwo (s.eligibility w allowed) o d t u).isSome = true := fun w t u => by
    rw [viaTwo_isSome_iff, ← possible_iff, ← possible_iff, ← possible_iff]
    rfl
  have found_iff : ∀ w, found w ↔ (s.zone.search (s.eligibility w allowed) o d).isSome = true := fun w => by
    simp only [search_isSome_iff, ← possible_iff, ← one_iff, ← two_iff]
    rfl
  have no_leg : ¬ direct → s.zone.leg (s.eligibility false allowed) o d = none := fun h => by
    simpa using mt (possible_iff _ _ _).mpr h
  refine ⟨route_of_absent s allowed o d, fun ho hd => ⟨route_of_same allowed ho hd, ?_, ?_, ?_, ?_⟩⟩
  · rintro ⟨ne, serving⟩
    obtain ⟨l, e⟩ := Option.isSome_iff_exists.mp ((possible_iff false o d).mp ⟨ne, serving⟩)
    exact ⟨l, route_of_found allowed ho hd ne (search_of_leg e), (legOf_iff l o d).mpr e⟩
  · intro ne nodirect ex
    simp only [one_iff] at ex
    obtain ⟨t, l, k, e, ht, hl, hk, best⟩ := search_one_change (no_leg nodirect) ex
    simp only [legOf_iff, one_iff]
    exact ⟨t, l, k, route_of_found allowed ho hd ne e, ⟨ht, by simp [via_isSome_iff, hl, hk]⟩, hl, hk,
      fun u ⟨hu, can⟩ => best u hu can⟩
  · intro ne nodirect noone ex
    simp only [one_iff] at noone
    simp only [two_iff] at ex
    obtain ⟨t, u, l, k, m, e, ht, hu, hl, hk, hm, best⟩ := search_two_changes (no_leg nodirect) noone ex
    simp only [legOf_iff, two_iff]
    exact ⟨t, u, l, k, m, route_of_found allowed ho hd ne e, ⟨ht, hu, by simp [viaTwo_isSome_iff, hl, hk, hm]⟩,
      hl, hk, hm, fun v w ⟨hv, hw, can⟩ => best v w hv hw can⟩
  · intro ne notfound
    have none : s.zone.search (s.eligibility false allowed) o d = none := by
      simpa [found_iff] using notfound
    rw [found_iff, route_of_not_found allowed ho hd ne none]
    exact ⟨fun h => if_pos h, fun h => if_neg h⟩

end Sys2Proof
end

section
/-! PROOF. The layout of ZONE WRITE (10.4): the map that a payload carries, bit by bit. -/

namespace Sys2Proof.Machine

theorem vmake_getElem {β : Type} {n : Nat} (f : Nat → β) (i : Fin n) :
    (vmake f : Vector β n)[i] = f i.val := by
  simp [vmake]

theorem zoneOf_landing (p : List Byte) (l : Landing) :
    (zoneOf p).landing l =
      { present := (zoneFlags p l.val).getLsbD 0, label := zoneLabel p l.val
        secure := (zoneFlags p l.val).getLsbD 1, transfer := (zoneFlags p l.val).getLsbD 2 } :=
  vmake_getElem _ l

theorem zoneOf_group (p : List Byte) (g : Group) :
    (zoneOf p).group g =
      { present := (zoneGroupFlags p g.val).getLsbD 0, serviceCar := (zoneGroupFlags p g.val).getLsbD 1
        served := zoneServed p g.val } :=
  vmake_getElem _ g

/-- 10.4: a label field is the label and the zero bytes that trail it. -/
theorem labelOf_fills (bs : List Byte) :
    ∃ zeros, bs = labelOf bs ++ List.replicate zeros 0 ∧ (labelOf bs).getLast? ≠ some 0 := by
  have same : labelOf bs = bs.rdropWhile (· == 0) := rfl
  have trail : ∀ b ∈ bs.rtakeWhile (· == 0), b = 0 := fun b hb => by simpa using List.mem_rtakeWhile_imp hb
  refine ⟨(bs.rtakeWhile (· == 0)).length, ?_, ?_⟩
  · rw [← List.eq_replicate_of_mem trail, same, List.rdropWhile_append_rtakeWhile]
  · rw [same]
    by_cases e : bs.rdropWhile (· == 0) = []
    · rw [e]; simp
    · have last := List.rdropWhile_last_not _ _ e
      rw [List.getLast?_eq_some_getLast e]
      simpa using last

/-- Bytes laid one after another from bit 0: bit `i` is bit `i % 8` of byte `i / 8`. -/
theorem foldl_bytes_getLsbD (b : Nat → Byte) (n : Nat) (i : Nat) (hi : i < 128) :
    ((List.range n).foldl (fun s k => s ||| (b k).setWidth 128 <<< (8 * k)) (0 : LandingSet)).getLsbD i
      = (decide (i < 8 * n) && (b (i / 8)).getLsbD (i % 8)) := by
  induction n with
  | zero => simp
  | succ n ih =>
    rw [List.range_succ, List.foldl_append, List.foldl_cons, List.foldl_nil, BitVec.getLsbD_or, ih,
      BitVec.getLsbD_shiftLeft, BitVec.getLsbD_setWidth]
    rcases Nat.lt_or_ge i (8 * n) with before | from_
    · have : i < 8 * (n + 1) := by omega
      simp [*]
    · rcases Nat.lt_or_ge i (8 * (n + 1)) with within | after
      · have byte : i / 8 = n := by omega
        have bit : i - 8 * n = i % 8 := by omega
        have inside : i % 8 < 128 := by omega
        have inByte : (b n).getLsbD (i % 8) = (b (i / 8)).getLsbD (i % 8) := by rw [byte]
        simp [hi, Nat.not_lt.mpr from_, within, bit, inside, inByte]
      · have none : (b n).getLsbD (i - 8 * n) = false := BitVec.getLsbD_of_ge _ _ (by omega)
        simp [none, Nat.not_lt.mpr from_, Nat.not_lt.mpr after]

theorem setOf_getLsbD (bs : List Byte) (l : Landing) :
    (setOf bs).getLsbD l.val = (bs.getD (l.val / 8) 0).getLsbD (l.val % 8) := by
  unfold setOf
  rw [foldl_bytes_getLsbD (fun k => bs.getD k 0) 16 l.val l.isLt]
  have : l.val < 8 * 16 := l.isLt
  simp [this]

theorem zoneServed_getLsbD (p : List Byte) (g : Nat) (l : Landing) :
    (zoneServed p g).getLsbD l.val = (p.getD (513 + 17 * g + l.val / 8) 0).getLsbD (l.val % 8) := by
  have : l.val / 8 < 16 := by omega
  rw [zoneServed, setOf_getLsbD]
  simp [this]

end Sys2Proof.Machine
end

section
/-! PROOF. The nine checks of ZONE WRITE (R5): each fails with the lowest item that breaks its condition. -/

namespace Sys2Proof.Machine

/-! ### Ascending lists, counted and indexed -/

/-- In an ascending list the members below one of them are those that stand before it. -/
theorem filter_lt_of_split {n : Nat} {before after : List (Fin n)} {a : Fin n}
    (asc : (before ++ a :: after).Pairwise (· < ·)) :
    (before ++ a :: after).filter (fun b => decide (b < a)) = before := by
  rw [List.pairwise_append, List.pairwise_cons] at asc
  obtain ⟨-, ⟨above, -⟩, below⟩ := asc
  have all : before.filter (fun b => decide (b < a)) = before :=
    List.filter_eq_self.mpr fun b hb => by simpa using below b hb a List.mem_cons_self
  have none : (a :: after).filter (fun b => decide (b < a)) = [] := by
    simpa using fun b hb => le_of_lt (above b hb)
  rw [List.filter_append, all, none, List.append_nil]

/-- In an ascending list the place of a member is the number of the members below it. -/
theorem ascending_getElem?_iff {n : Nat} {as : List (Fin n)} (asc : as.Pairwise (· < ·)) (k : Nat)
    (a : Fin n) :
    as[k]? = some a ↔ a ∈ as ∧ (as.filter fun b => decide (b < a)).length = k := by
  constructor
  · intro h
    obtain ⟨lt, e⟩ := List.getElem?_eq_some_iff.mp h
    have split : as = as.take k ++ a :: as.drop (k + 1) := by
      rw [← e, ← List.drop_eq_getElem_cons lt, List.take_append_drop]
    refine ⟨List.mem_of_getElem? h, ?_⟩
    rw [split] at asc
    rw [split, filter_lt_of_split asc, List.length_take]
    omega
  · rintro ⟨mem, rfl⟩
    obtain ⟨before, after, rfl⟩ := List.append_of_mem mem
    rw [filter_lt_of_split asc]
    simp

theorem two_le_length_filter_iff {n : Nat} (q : Fin n → Bool) :
    2 ≤ ((finList n).filter q).length ↔ ∃ i j, i ≠ j ∧ q i = true ∧ q j = true := by
  have nodup : ((finList n).filter q).Nodup :=
    ((finList_ascending n).imp fun lt => ne_of_lt lt).filter q
  rw [← List.toFinset_card_of_nodup nodup, Nat.succ_le_iff, Finset.one_lt_card]
  simp only [List.mem_toFinset, List.mem_filter, mem_finList, true_and]
  exact ⟨fun ⟨i, hi, j, hj, ne⟩ => ⟨i, j, ne, hi, hj⟩, fun ⟨i, j, ne, hi, hj⟩ => ⟨i, hi, j, hj, ne⟩⟩

/-- `i` is the number of the lowest item that breaks a condition. -/
def LowestFailing {n : Nat} (Fails : Fin n → Prop) (i : Nat) : Prop :=
  ∃ l : Fin n, l.val = i ∧ Fails l ∧ ∀ k < l, ¬ Fails k

theorem find?_lowest_iff {n : Nat} (q : Fin n → Bool) (Fails : Fin n → Prop) (h : ∀ l, q l = true ↔ Fails l)
    (i : Nat) : ((finList n).find? q).map Fin.val = some i ↔ LowestFailing Fails i := by
  simp only [Option.map_eq_some_iff, finList_find?_eq_some_iff, LowestFailing, ← h, Bool.not_eq_true]
  exact exists_congr fun l => and_comm

/-! ### The checks -/

theorem shiftRight_ne_zero_iff (b : Byte) (k : Nat) : b >>> k ≠ 0 ↔ 2 ^ k ≤ b.toNat := by
  rw [Ne, ← BitVec.toNat_inj, BitVec.toNat_ushiftRight, Nat.shiftRight_eq_div_pow]
  simp [Nat.div_eq_zero_iff]

theorem isLabelChar_iff (b : Byte) : isLabelChar b = true ↔
    (0x30 ≤ b.toNat ∧ b.toNat ≤ 0x39) ∨ b ∈ [(0x42 : Byte), 0x4C, 0x4D, 0x53] := by
  simp [isLabelChar, or_assoc]

section
variable (p : List Byte) (z : ZoneMap) (i : Nat)

/-- R5, check 1: an absent landing is empty, and no flag bit above the three is set. -/
theorem zoneCheckItem_one : zoneCheckItem p z 1 = some i ↔ LowestFailing (fun l : Landing =>
    (¬ (z.landing l).present = true
      ∧ ((z.landing l).label ≠ [] ∨ (z.landing l).secure = true ∨ (z.landing l).transfer = true))
    ∨ 8 ≤ byteAt p (4 * l.val)) i :=
  find?_lowest_iff _ _ (fun l => by
    simp only [Bool.or_eq_true, bne_iff_ne, shiftRight_ne_zero_iff]
    simp [zoneFlags, byteAt, or_assoc]) i

/-- R5, check 2: a present landing has a label, with no zero byte in it. -/
theorem zoneCheckItem_two : zoneCheckItem p z 2 = some i ↔ LowestFailing (fun l : Landing =>
    (z.landing l).present = true ∧ ((z.landing l).label = [] ∨ (0 : Byte) ∈ (z.landing l).label)) i :=
  find?_lowest_iff _ _ (fun l => by simp) i

/-- R5, check 3: the label of a present landing is of label characters. -/
theorem zoneCheckItem_three : zoneCheckItem p z 3 = some i ↔ LowestFailing (fun l : Landing =>
    (z.landing l).present = true ∧ ∃ b ∈ (z.landing l).label,
      ¬ ((0x30 ≤ b.toNat ∧ b.toNat ≤ 0x39) ∨ b ∈ [(0x42 : Byte), 0x4C, 0x4D, 0x53])) i :=
  find?_lowest_iff _ _ (fun l => by simp only [← isLabelChar_iff]; simp) i

/-- R5, check 4: no two present landings have one label. -/
theorem zoneCheckItem_four : zoneCheckItem p z 4 = some i ↔ LowestFailing (fun l : Landing =>
    (z.landing l).present = true
      ∧ ∃ k < l, (z.landing k).present = true ∧ (z.landing k).label = (z.landing l).label) i :=
  find?_lowest_iff _ _ (fun l => by simp [and_assoc]) i

/-- R5, check 5: an absent group is empty, and no flag bit above the two is set. -/
theorem zoneCheckItem_five : zoneCheckItem p z 5 = some i ↔ LowestFailing (fun g : Group =>
    (¬ (z.group g).present = true ∧ ((z.group g).served ≠ 0 ∨ (z.group g).serviceCar = true))
    ∨ 4 ≤ byteAt p (512 + 17 * g.val)) i :=
  find?_lowest_iff _ _ (fun g => by
    simp only [Bool.or_eq_true, bne_iff_ne, shiftRight_ne_zero_iff]
    simp [zoneGroupFlags, byteAt]) i

/-- R5, check 6: a present group serves present landings alone. -/
theorem zoneCheckItem_six : zoneCheckItem p z 6 = some i ↔ LowestFailing (fun g : Group =>
    (z.group g).present = true
      ∧ ∃ l : Landing, (z.group g).served.getLsbD l.val = true ∧ ¬ (z.landing l).present = true) i :=
  find?_lowest_iff _ _ (fun g => by simp [LandingSet.has]) i

/-- R5, check 7: a present group serves two landings at least. -/
theorem zoneCheckItem_seven : zoneCheckItem p z 7 = some i ↔ LowestFailing (fun g : Group =>
    (z.group g).present = true ∧ ¬ ∃ l k : Landing, l ≠ k ∧ (z.group g).served.getLsbD l.val = true
      ∧ (z.group g).served.getLsbD k.val = true) i :=
  find?_lowest_iff _ _ (fun g => by
    have two := two_le_length_filter_iff (LandingSet.has (z.group g).served)
    simp only [LandingSet.has] at two
    rw [← two, Bool.and_eq_true, decide_eq_true_iff, Nat.not_le]
    rfl) i

/-- R5, check 8: there are at most eight transfer landings, and the item is the ninth. -/
theorem zoneCheckItem_eight : zoneCheckItem p z 8 = some i ↔ LowestFailing (fun l : Landing =>
    ((z.landing l).present = true ∧ (z.landing l).transfer = true)
      ∧ ((finList 128).filter fun k =>
          k < l && (z.landing k).present && (z.landing k).transfer).length = 8) i := by
  have ninth : ∀ l : Landing, z.transfers[8]? = some l ↔
      ((z.landing l).present = true ∧ (z.landing l).transfer = true)
        ∧ ((finList 128).filter fun k =>
            k < l && (z.landing k).present && (z.landing k).transfer).length = 8 := fun l => by
    rw [ascending_getElem?_iff (transfers_ascending z)]
    simp [ZoneMap.transfers, List.filter_filter, Bool.and_assoc]
  show (z.transfers[8]?).map Fin.val = some i ↔ _
  simp only [LowestFailing, ← ninth, Option.map_eq_some_iff]
  constructor
  · rintro ⟨l, e, rfl⟩
    exact ⟨l, rfl, e, fun k lt ek => absurd (Option.some.inj (e.symm.trans ek)) (ne_of_gt lt)⟩
  · rintro ⟨l, rfl, e, -⟩
    exact ⟨l, e, rfl⟩

/-- R5, check 9: two present groups at least serve a transfer landing. -/
theorem zoneCheckItem_nine : zoneCheckItem p z 9 = some i ↔ LowestFailing (fun l : Landing =>
    ((z.landing l).present = true ∧ (z.landing l).transfer = true)
      ∧ ¬ ∃ g h : Group, g ≠ h ∧ (z.group g).present = true ∧ (z.group h).present = true
        ∧ (z.group g).served.getLsbD l.val = true ∧ (z.group h).served.getLsbD l.val = true) i := by
  show (z.transfers.find? fun l =>
    (z.presentGroups.filter fun g => LandingSet.has (z.group g).served l).length < 2).map Fin.val = some i ↔ _
  rw [ZoneMap.transfers, List.find?_filter]
  refine find?_lowest_iff _ _ (fun l => ?_) i
  have two := two_le_length_filter_iff fun g =>
    LandingSet.has (z.group g).served l && (z.group g).present
  have pairs : (∃ g h : Group, g ≠ h ∧ (LandingSet.has (z.group g).served l && (z.group g).present) = true
        ∧ (LandingSet.has (z.group h).served l && (z.group h).present) = true)
      ↔ ∃ g h : Group, g ≠ h ∧ (z.group g).present = true ∧ (z.group h).present = true
        ∧ (z.group g).served.getLsbD l.val = true ∧ (z.group h).served.getLsbD l.val = true := by
    simp only [LandingSet.has, Bool.and_eq_true]
    exact exists_congr fun g => exists_congr fun h => by tauto
  rw [← pairs, ← two]
  simp [ZoneMap.presentGroups, List.filter_filter, and_assoc]

end

/-- R5: the first check that fails is the one reported. -/
theorem zoneFailure_of_first {p : List Byte} {z : ZoneMap} {n i : Nat}
    (mem : n ∈ [1, 2, 3, 4, 5, 6, 7, 8, 9])
    (before : ∀ m ∈ [1, 2, 3, 4, 5, 6, 7, 8, 9], m < n → zoneCheckItem p z m = none)
    (fails : zoneCheckItem p z n = some i) : zoneFailure p z = some (n, i) := by
  have asc : [1, 2, 3, 4, 5, 6, 7, 8, 9].Pairwise (· < ·) := by decide
  obtain ⟨pre, post, e⟩ := List.append_of_mem mem
  unfold zoneFailure
  rw [List.findSome?_eq_some_iff]
  refine ⟨pre, n, post, e, by simp [fails], fun m hm => ?_⟩
  rw [e, List.pairwise_append] at asc
  obtain ⟨-, -, below⟩ := asc
  have : zoneCheckItem p z m = none :=
    before m (e ▸ List.mem_append_left _ hm) (below m hm n List.mem_cons_self)
  simp [this]

theorem zoneFailure_of_none {p : List Byte} {z : ZoneMap}
    (h : ∀ n ∈ [1, 2, 3, 4, 5, 6, 7, 8, 9], zoneCheckItem p z n = none) : zoneFailure p z = none := by
  unfold zoneFailure
  rw [List.findSome?_eq_none_iff]
  exact fun n hn => by simp [h n hn]

end Sys2Proof.Machine
end

section
/-! PROOF. GROUP_OFFLINE raised for a list of groups in turn (R133, R173), and ZONE WRITE carried out (R4, R6). -/

namespace Sys2Proof.Machine

/-! ### The groups a new map makes present on a SILENT link -/

/-- GROUP_OFFLINE raised for each group of a list in turn. -/
def State.raiseGroupsOffline (s : State) (gs : List Group) : State :=
  gs.foldl (fun s g => s.raiseFault .groupOffline g.val) s

@[simp] theorem raiseGroupsOffline_nil (s : State) : s.raiseGroupsOffline [] = s := rfl

@[simp] theorem raiseGroupsOffline_cons (s : State) (g : Group) (gs : List Group) :
    s.raiseGroupsOffline (g :: gs) = (s.raiseFault .groupOffline g.val).raiseGroupsOffline gs := rfl

theorem raiseGroupsOffline_append (s : State) (gs hs : List Group) :
    s.raiseGroupsOffline (gs ++ hs) = (s.raiseGroupsOffline gs).raiseGroupsOffline hs :=
  List.foldl_append

/-- Raising GROUP_OFFLINE changes the Fault Unit and the notices raised. -/
theorem raiseGroupsOffline_touches (s : State) (gs : List Group) :
    ∃ f ns, s.raiseGroupsOffline gs = { s with
      faults := f, notices := { s.notices with raised := s.notices.raised ++ ns } } := by
  induction gs generalizing s with
  | nil => exact ⟨s.faults, [], by rw [List.append_nil]; rfl⟩
  | cons g gs ih =>
    obtain ⟨f, ns, e⟩ := raiseFault_touches s .groupOffline g.val
    obtain ⟨f', ns', e'⟩ := ih (s.raiseFault .groupOffline g.val)
    rw [raiseGroupsOffline_cons, e', e]
    exact ⟨f', ns ++ ns', by simp only [List.append_assoc]⟩

/-- R133: whether the map in force makes a group present on a SILENT link, `before` being the map replaced. -/
def State.appears (s : State) (before : ZoneMap) (g : Group) : Bool :=
  !(before.group g).present && (s.zoneGroup g).present && (s.group g).link == .silent

/-- The groups that the map in force makes present on a SILENT link. -/
def State.appearing (s : State) (before : ZoneMap) : List Group := (finList 6).filter (s.appears before)

theorem mem_appearing_iff (s : State) (before : ZoneMap) (g : Group) :
    g ∈ s.appearing before ↔
      (before.group g).present = false ∧ (s.zoneGroup g).present = true ∧ (s.group g).link = .silent := by
  simp [State.appearing, State.appears, and_assoc]

theorem appearing_ascending (s : State) (before : ZoneMap) : (s.appearing before).Pairwise (· < ·) :=
  (finList_ascending 6).filter _

theorem raiseFault_appears (s : State) (k : FaultKind) (d : Nat) :
    (s.raiseFault k d).appears = s.appears := by
  obtain ⟨f, ns, e⟩ := raiseFault_touches s k d
  rw [e]
  rfl

/-- R133: raising leaves the map and the links, so that the groups may be named beforehand. -/
theorem foldl_raise_appearing (before : ZoneMap) (gs : List Group) (s : State) :
    gs.foldl (fun s g => if s.appears before g then s.raiseFault .groupOffline g.val else s) s
      = s.raiseGroupsOffline (gs.filter (s.appears before)) := by
  induction gs generalizing s with
  | nil => rfl
  | cons g gs ih =>
    rw [List.foldl_cons, ih]
    by_cases h : s.appears before g = true
    · rw [if_pos h, List.filter_cons_of_pos h, raiseGroupsOffline_cons, raiseFault_appears]
    · rw [if_neg h, List.filter_cons_of_neg h]

theorem mapReplaced_eq (s : State) (before : ZoneMap) :
    s.mapReplaced before = s.raiseGroupsOffline (s.appearing before) :=
  foldl_raise_appearing before (finList 6) s

/-! ### What the raising leaves -/

/-- A kind already set, whose First-Fault Record is filled and whose line stands right, may be raised again
without a change of the Fault Unit. -/
theorem raiseGroupsOffline_faults (s : State) (g : Group) (gs : List Group) :
    (s.raiseGroupsOffline (g :: gs)).faults = (s.raiseFault .groupOffline g.val).faults := by
  induction gs generalizing s g with
  | nil => rfl
  | cons h gs ih =>
    have again : ((s.raiseFault .groupOffline g.val).raiseFault .groupOffline h.val).faults
        = (s.raiseFault .groupOffline g.val).faults := by
      obtain ⟨f, ns, e⟩ := raiseFault_touches s .groupOffline g.val
      have site : (s.raiseFault .groupOffline g.val).site = s.site := by rw [e]
      rw [raiseFault_faults (s.raiseFault _ _), raiseFault_faults s, site]
      cases s.faults.first <;> simp [BitVec.or_assoc]
    rw [raiseGroupsOffline_cons, ih, again]

theorem groupOffline_isSet_iff (s : State) (gs : List Group) :
    (s.raiseGroupsOffline gs).faults.isSet .groupOffline = true ↔
      s.faults.isSet .groupOffline = true ∨ gs ≠ [] := by
  cases gs with
  | nil => simp
  | cons g gs => simp [raiseGroupsOffline_faults, raiseFault_isSet, -raiseGroupsOffline_cons]

/-- R173: the raising sets the status of its own kind alone. -/
theorem raiseGroupsOffline_isSet_of_ne (s : State) (gs : List Group) {k : FaultKind} (ne : k ≠ .groupOffline) :
    (s.raiseGroupsOffline gs).faults.isSet k = s.faults.isSet k := by
  have bit : FaultKind.groupOffline.bit.getLsbD k.code = false := by
    cases k with
    | groupOffline => exact absurd rfl ne
    | _ => rfl
  cases gs with
  | nil => rfl
  | cons g gs =>
    rw [raiseGroupsOffline_faults, raiseFault_faults]
    simp [FaultUnit.isSet, bit]

theorem raiseGroupsOffline_masks (s : State) (gs : List Group) :
    (s.raiseGroupsOffline gs).faults.masks = s.faults.masks := by
  cases gs with
  | nil => rfl
  | cons g gs => rw [raiseGroupsOffline_faults, raiseFault_faults]

theorem raiseGroupsOffline_majors (s : State) (gs : List Group) :
    (s.raiseGroupsOffline gs).faults.majors = s.faults.majors := by
  cases gs with
  | nil => rfl
  | cons g gs => rw [raiseGroupsOffline_faults, raiseFault_faults]

/-- R173: the notice of each group raised tells whether the status was set before it. -/
theorem mem_raiseGroupsOffline (s : State) (pre post : List Group) (g : Group)
    (unmasked : s.faults.masked .groupOffline = false) :
    { uptime := s.cal.uptime
      body := .faultRaised .groupOffline (s.faults.major .groupOffline) g.val
        ((s.raiseGroupsOffline pre).faults.isSet .groupOffline) s.date }
      ∈ (s.raiseGroupsOffline (pre ++ g :: post)).notices.raised := by
  have masked : (s.raiseGroupsOffline pre).faults.masked .groupOffline = false := by
    rw [FaultUnit.masked, raiseGroupsOffline_masks]
    exact unmasked
  have major : (s.raiseGroupsOffline pre).faults.major .groupOffline = s.faults.major .groupOffline := by
    rw [FaultUnit.major, raiseGroupsOffline_majors]
    rfl
  have mem := mem_raiseFault (s.raiseGroupsOffline pre) .groupOffline g.val masked
  obtain ⟨f, ns, e⟩ := raiseGroupsOffline_touches s pre
  have cal : (s.raiseGroupsOffline pre).cal = s.cal := by rw [e]
  simp only [major, State.date, cal] at mem
  rw [raiseGroupsOffline_append, raiseGroupsOffline_cons]
  obtain ⟨f', ns', e'⟩ := raiseGroupsOffline_touches
    ((s.raiseGroupsOffline pre).raiseFault .groupOffline g.val) post
  rw [e']
  exact List.mem_append_left _ mem

/-! ### The request -/

/-- The card in which ZONE WRITE has been taken and the map replaced, before anything is raised. -/
def State.withMap (s : State) (z : ZoneMap) : State := { taken s with zone := z }

/-- The groups that ZONE WRITE makes present on a SILENT link. -/
def State.newlyOffline (s : State) (z : ZoneMap) : List Group := (s.withMap z).appearing s.zone

theorem mem_newlyOffline_iff (s : State) (z : ZoneMap) (g : Group) : g ∈ s.newlyOffline z ↔
    (s.zoneGroup g).present = false ∧ (z.group g).present = true ∧ (s.group g).link = .silent :=
  mem_appearing_iff (s.withMap z) s.zone g

/-- The card once ZONE WRITE has been carried out and answered, its notices not yet taken. -/
def State.zoneWritten (s : State) (f : SiteFrame) (z : ZoneMap) : State :=
  { (s.withMap z).raiseGroupsOffline (s.newlyOffline z) with
    store := saveQueued s.store
    site := portReplied (portTaken s.site) (replyFrame f .ok [] false) }

theorem replaceMap_replyOk (s : State) (f : SiteFrame) (z : ZoneMap) :
    ((taken s).replaceMap z).replyOk f [] = s.zoneWritten f z := by
  have offline : ({ taken s with zone := z }.mapReplaced (taken s).zone)
      = (s.withMap z).raiseGroupsOffline (s.newlyOffline z) := mapReplaced_eq (s.withMap z) s.zone
  obtain ⟨u, ns, e⟩ := raiseGroupsOffline_touches (s.withMap z) (s.newlyOffline z)
  rw [State.replaceMap, offline, queueSave_eq, State.replyOk, reply_eq, State.zoneWritten, e]
  rfl

section
variable {s : State} {r : Req} (ready : PortOpen s { type := 0x1C, req := r })
  (length : r.payload.length = 614) (key : s.keyOn = true)
include ready length key

theorem execZoneWrite_of_failure {n i : Nat} (h : zoneFailure r.payload (zoneOf r.payload) = some (n, i)) :
    Refuses s (.zoneWrite r) { type := 0x1C, req := r } .range (u8 n ++ u8 i) := by
  have fits : hasLength r 614 = true := by simp [hasLength, length]
  rw [Refuses, exec_zoneWrite, execZoneWrite, fits, siteRequest_owner _ _ _ _ _ ready]
  simp only [taken_keyOn, key, h, Bool.not_true, Bool.false_eq_true, if_false]
  obtain ⟨⟨runs, -⟩, -⟩ := ready
  rw [settle_taken_reply s _ _ _ runs]

theorem execZoneWrite_of_valid (h : zoneFailure r.payload (zoneOf r.payload) = none) :
    exec (.zoneWrite r) s
      = .next (s.zoneWritten { type := 0x1C, req := r } (zoneOf r.payload)).settle := by
  have fits : hasLength r 614 = true := by simp [hasLength, length]
  rw [exec_zoneWrite, execZoneWrite, fits, siteRequest_owner _ _ _ _ _ ready]
  simp only [taken_keyOn, key, h, Bool.not_true, Bool.false_eq_true, if_false, replaceMap_replyOk]

end

/-! ### What a valid ZONE WRITE leaves -/

section
variable (s : State) (f : SiteFrame) (z : ZoneMap)

theorem zoneWritten_touches : (s.zoneWritten f z).settle = { s with
    zone := z, store := saveQueued s.store
    site := portReplied (portTaken s.site) (replyFrame f .ok [] false)
    faults := (s.zoneWritten f z).settle.faults, notices := (s.zoneWritten f z).settle.notices } := by
  obtain ⟨u, ns, e⟩ := raiseGroupsOffline_touches (s.withMap z) (s.newlyOffline z)
  rw [State.zoneWritten, e]
  rfl

theorem zoneWritten_faults : (s.zoneWritten f z).settle.faults
    = ((s.withMap z).raiseGroupsOffline (s.newlyOffline z)).faults := rfl

/-- R133: a new map that makes no group present on a SILENT link raises nothing. -/
theorem zoneWritten_of_none_offline (quiet : s.notices.raised = []) (none : s.newlyOffline z = []) :
    (s.zoneWritten f z).settle.faults = s.faults ∧ (s.zoneWritten f z).settle.notices = s.notices := by
  have still : (s.zoneWritten f z).notices = s.notices := by rw [State.zoneWritten, none]; rfl
  refine ⟨by rw [zoneWritten_faults, none]; rfl, ?_⟩
  rw [settle_of_none_raised _ (by rw [still, quiet]), still]

/-- R133, R173: otherwise the Fault Unit is as the lowest of the groups leaves it. -/
theorem zoneWritten_first_offline {g : Group} (mem : g ∈ s.newlyOffline z)
    (lowest : ∀ h < g, h ∉ s.newlyOffline z) :
    (s.zoneWritten f z).settle.faults = ((s.withMap z).raiseFault .groupOffline g.val).faults := by
  obtain ⟨pre, post, e⟩ := List.append_of_mem mem
  have asc : (s.newlyOffline z).Pairwise (· < ·) := appearing_ascending _ _
  rw [e, List.pairwise_append] at asc
  obtain ⟨-, -, below⟩ := asc
  have first : pre = [] := List.eq_nil_iff_forall_not_mem.mpr fun h hh =>
    lowest h (below h hh g List.mem_cons_self) (e ▸ List.mem_append_left _ hh)
  rw [zoneWritten_faults, e, first, List.nil_append, raiseGroupsOffline_faults]

theorem zoneWritten_lineRight {g : Group} (mem : g ∈ s.newlyOffline z)
    (lowest : ∀ h < g, h ∉ s.newlyOffline z) : LineRight (s.zoneWritten f z).settle := by
  have line : LineRight ((s.withMap z).raiseFault .groupOffline g.val) := raiseFault_line _ _ _
  obtain ⟨u, ns, e⟩ := raiseFault_touches (s.withMap z) .groupOffline g.val
  have site : ((s.withMap z).raiseFault .groupOffline g.val).site = portTaken s.site := by rw [e]; rfl
  rw [LineRight, site] at line
  rw [LineRight, zoneWritten_first_offline s f z mem lowest, line, zoneWritten_touches]
  rfl

theorem zoneWritten_firstFault {g : Group} (mem : g ∈ s.newlyOffline z)
    (lowest : ∀ h < g, h ∉ s.newlyOffline z) :
    (s.zoneWritten f z).settle.faults.first = (s.faults.first <|> some
      { kind := .groupOffline, uptime := s.cal.uptime, date := s.date, detail := g.val }) := by
  rw [zoneWritten_first_offline s f z mem lowest, raiseFault_faults]
  rfl

/-- R133: GROUP_OFFLINE is raised for each group made present on a SILENT link. -/
theorem zoneWritten_offlineRaised : OfflineRaised s (s.zoneWritten f z).settle := by
  have map : ∀ g, ((s.zoneWritten f z).settle.zoneGroup g) = z.group g := fun g => by
    rw [zoneWritten_touches]
    rfl
  have appears_iff : ∀ g, ((s.zoneGroup g).present = false
      ∧ ((s.zoneWritten f z).settle.zoneGroup g).present = true ∧ (s.group g).link = .silent)
      ↔ g ∈ s.newlyOffline z := fun g => by rw [map, mem_newlyOffline_iff]
  unfold OfflineRaised
  simp only [appears_iff]
  constructor
  · rw [zoneWritten_faults, groupOffline_isSet_iff, ← List.length_pos_iff, List.length_pos_iff_exists_mem]
    rfl
  · intro g mem unmasked
    have asc : (s.newlyOffline z).Pairwise (· < ·) := appearing_ascending _ _
    obtain ⟨pre, post, e⟩ := List.append_of_mem mem
    have before : ∀ h, h ∈ pre ↔ h < g ∧ h ∈ s.newlyOffline z := fun h => by
      rw [e] at asc
      calc h ∈ pre ↔ h ∈ (pre ++ g :: post).filter fun b => decide (b < g) := by
            rw [filter_lt_of_split asc]
        _ ↔ h < g ∧ h ∈ s.newlyOffline z := by rw [e, List.mem_filter, decide_eq_true_iff, and_comm]
    refine ⟨_, ?_, settle_reports (s.zoneWritten f z) _
      (e ▸ mem_raiseGroupsOffline (s.withMap z) pre post g unmasked) ?_⟩
    · rw [groupOffline_isSet_iff, ← List.length_pos_iff, List.length_pos_iff_exists_mem]
      simp only [before]
      rfl
    · obtain ⟨u, ns, touched⟩ := raiseGroupsOffline_touches (s.withMap z) (s.newlyOffline z)
      rw [State.zoneWritten, touched]

end

end Sys2Proof.Machine

namespace Sys2Proof

open Machine

/-- Settles O30: the layout bit by bit, the nine checks one by one, and the request carried out. -/
theorem zoneWriteReplacesTheMap : Obligations.ZoneWriteReplacesTheMap := by
  unfold Obligations.ZoneWriteReplacesTheMap
  intro s r f p z here stands serves changes label landingFails groupFails bitOf
  refine ⟨fun l => ?_, fun g => ?_, fun n i hn => ?_, fun n i hn => ?_, fun ready length key => ⟨?_, ?_⟩⟩
  · obtain ⟨zeros, fills, last⟩ := labelOf_fills ((p.drop (4 * l.val + 1)).take 3)
    simp only [label, z, zoneOf_landing]
    exact ⟨rfl, rfl, rfl, zeros, fills, last⟩
  · simp only [z, zoneOf_group]
    exact ⟨rfl, rfl, fun l => zoneServed_getLsbD p g.val l⟩
  · simp only [List.mem_cons, List.not_mem_nil, or_false] at hn
    rcases hn with rfl | rfl | rfl | rfl | rfl | rfl
    · exact zoneCheckItem_one p z i
    · exact zoneCheckItem_two p z i
    · exact zoneCheckItem_three p z i
    · exact zoneCheckItem_four p z i
    · exact zoneCheckItem_eight p z i
    · exact zoneCheckItem_nine p z i
  · simp only [List.mem_cons, List.not_mem_nil, or_false] at hn
    rcases hn with rfl | rfl | rfl
    · exact zoneCheckItem_five p z i
    · exact zoneCheckItem_six p z i
    · exact zoneCheckItem_seven p z i
  · intro n i mem before fails
    exact execZoneWrite_of_failure ready length key (zoneFailure_of_first mem before fails)
  · intro valid
    refine ⟨_, execZoneWrite_of_valid ready length key (zoneFailure_of_none valid), zoneWritten_touches s f z,
      zoneWritten_offlineRaised s f z, fun k ne => raiseGroupsOffline_isSet_of_ne _ _ ne,
      raiseGroupsOffline_masks _ _, raiseGroupsOffline_majors _ _, fun none => ?_, fun g appears lowest => ?_⟩
    · obtain ⟨⟨⟨-, quiet⟩, -⟩, -⟩ := ready
      exact zoneWritten_of_none_offline s f z quiet (List.eq_nil_iff_forall_not_mem.mpr fun g mem =>
        none g ((mem_newlyOffline_iff s z g).mp mem))
    · have mem : g ∈ s.newlyOffline z := (mem_newlyOffline_iff s z g).mpr appears
      have first : ∀ h < g, h ∉ s.newlyOffline z := fun h lt mem =>
        lowest h lt ((mem_newlyOffline_iff s z h).mp mem)
      exact ⟨zoneWritten_lineRight s f z mem first, zoneWritten_firstFault s f z mem first⟩

end Sys2Proof
end

section
/-! PROOF. The clause test (R35, R36). -/

namespace Sys2Proof

open Machine

/-- Settles O10: by the order of start and end, each the branch of the test that the order selects. -/
theorem clauseTestByStartAndEnd : Obligations.ClauseTestByStartAndEnd := by
  unfold Obligations.ClauseTestByStartAndEnd
  intro c holidays n w m today yesterday
  have today_eq : todayType holidays n w = today := by simp [todayType, today]
  have yesterday_eq : yesterdayType holidays n w = yesterday := by simp [yesterdayType, yesterday]
  refine ⟨fun within => ?_, fun across => ?_⟩
  · rw [Clause.opens, today_eq, if_pos within]
    simp [m, and_assoc]
  · rw [Clause.opens, today_eq, yesterday_eq, if_neg (Nat.not_lt.mpr across)]
    simp [m]

end Sys2Proof
end

section
/-! PROOF. Requests that set part of the card and are answered: what the port does around them, said once. -/

namespace Sys2Proof.Machine

/-! ### The length of a payload (R163) -/

theorem hasLength_of_eq {r : Req} {n : Nat} (h : r.payload.length = n) : hasLength r n = true := by
  simp [hasLength, h]

theorem hasLength_of_ne {r : Req} {n : Nat} (h : r.payload.length ≠ n) : hasLength r n = false := by
  simp [hasLength, h]

/-! ### The answer of a request that raises nothing -/

theorem runs_of_portOpen {s : State} {f : SiteFrame} (ready : PortOpen s f) : Runs s := by
  obtain ⟨⟨runs, -⟩, -⟩ := ready
  exact runs

theorem none_raised_of_portOpen {s : State} {f : SiteFrame} (ready : PortOpen s f) :
    s.notices.raised = [] := by
  obtain ⟨-, none⟩ := runs_of_portOpen ready
  exact none

/-- R162: an event that ends in an answer and has raised nothing changes the port beside what it has set. -/
theorem settle_reply_of_none_raised (u : State) (f : SiteFrame) (x : Result) (d : List Byte)
    (quiet : u.notices.raised = []) :
    (u.reply f x d).settle = { u with site := portReplied u.site (replyFrame f x d false) } := by
  rw [reply_eq]
  exact settle_of_none_raised _ quiet

section
variable {s : State} {r : Req} {type : Byte} {owner : SiteFrame → State → State} {c : Instr}

/-- R163: until admission opens a request is answered STARTING. -/
theorem refuses_starting {fits : Bool} (meaning : exec c s = siteRequest type r false fits owner s)
    (ready : PortReady s { type := type, req := r }) (phase : s.site.phase ≠ .open_) :
    Refuses s c { type := type, req := r } .starting [] := by
  rw [Refuses, meaning, siteRequest_starting _ _ _ _ _ ready phase]

/-- R163: a payload of another length is answered LENGTH. -/
theorem refuses_length {n : Nat} (meaning : exec c s = siteRequest type r false (hasLength r n) owner s)
    (ready : PortOpen s { type := type, req := r }) (length : r.payload.length ≠ n) :
    Refuses s c { type := type, req := r } .length [] := by
  rw [Refuses, meaning, hasLength_of_ne length, siteRequest_length _ _ _ _ _ ready]

/-- A request whose owner refuses it. -/
theorem refuses_of_owner {fits : Bool} {x : Result} {d : List Byte}
    (meaning : exec c s = siteRequest type r false fits owner s)
    (ready : PortOpen s { type := type, req := r }) (fit : fits = true)
    (carried : owner { type := type, req := r } (taken s) = (taken s).reply { type := type, req := r } x d) :
    Refuses s c { type := type, req := r } x d := by
  rw [Refuses, meaning, fit, siteRequest_owner _ _ _ _ _ ready, carried,
    settle_taken_reply _ _ _ _ (runs_of_portOpen ready)]

/-- A request whose owner sets parts of the card other than the port, raises nothing and answers. -/
theorem answersWith_of_owner {fits : Bool} {x : Result} {d : List Byte} {u : State}
    (meaning : exec c s = siteRequest type r false fits owner s)
    (ready : PortOpen s { type := type, req := r }) (fit : fits = true)
    (carried : owner { type := type, req := r } (taken s)
      = ({ u with site := portTaken s.site }).reply { type := type, req := r } x d)
    (notices : u.notices = s.notices) :
    AnswersWith s c { type := type, req := r } x d u := by
  have quiet : u.notices.raised = [] := by rw [notices, none_raised_of_portOpen ready]
  rw [AnswersWith, meaning, fit, siteRequest_owner _ _ _ _ _ ready, carried,
    settle_reply_of_none_raised { u with site := portTaken s.site } _ _ _ quiet]

end

end Sys2Proof.Machine
end

section
/-! PROOF. CLOCK SET (R32), the switch arm (R20, R21) and the restart arm (R168). -/

namespace Sys2Proof.Machine

/-- The card in which CLOCK SET has been taken and the calendar set. -/
def State.withClock (s : State) (day minute second : Nat) : State :=
  { taken s with cal := { s.cal with
      state := .set, day := day, weekMinute := minute, second := second, dayLimitReported := false } }

/-- R32: CLOCK SET with values in their ranges sets the calendar, raises CLOCK_SET and is answered. -/
theorem execClockSet_of_valid {s : State} {r : Req} (ready : PortOpen s { type := 0x03, req := r })
    (length : r.payload.length = 5) (minute : field r.payload 2 2 ≤ 10079)
    (second : field r.payload 4 1 ≤ 59) :
    exec (.clockSet r) s = .next
      (((s.withClock (field r.payload 0 2) (field r.payload 2 2) (field r.payload 4 1)).raiseNotice
        (.clockSet s.cal.state s.cal.day s.cal.weekMinute (field r.payload 0 2) (field r.payload 2 2))).replyOk
          { type := 0x03, req := r } []).settle := by
  have ranges : ¬ (10079 < field r.payload 2 2 ∨ 59 < field r.payload 4 1) := by omega
  rw [exec_clockSet, execClockSet, hasLength_of_eq length, siteRequest_owner _ _ _ _ _ ready]
  simp only [if_neg ranges]
  rfl

end Sys2Proof.Machine

namespace Sys2Proof

open Machine

/-- Settles O24: the refusals by the port's and the request's own checks; the notice by the end of the event. -/
theorem clockSetTakesTheCalendar : Obligations.ClockSetTakesTheCalendar := by
  unfold Obligations.ClockSetTakesTheCalendar
  intro s r c f day minute second
  refine ⟨fun ready phase => ?_, fun ready length => ?_, fun ready length out => ?_,
    fun ready length inMinute inSecond => ⟨_, execClockSet_of_valid ready length inMinute inSecond, ?_, ?_, ?_⟩⟩
  · exact refuses_starting (exec_clockSet r s) ready phase
  · exact refuses_length (exec_clockSet r s) ready length
  · exact refuses_of_owner (exec_clockSet r s) ready (hasLength_of_eq length) (if_pos out)
  · rw [State.replyOk, reply_eq]
    rfl
  · rw [State.replyOk, reply_eq]
    exact settle_reports _
      { uptime := s.cal.uptime, body := .clockSet s.cal.state s.cal.day s.cal.weekMinute day minute }
      (mem_raiseNotice (s.withClock day minute second) _) rfl
  · rw [State.replyOk, reply_eq]
    rfl

/-- Settles O25: each request by the branch of its owner that the payload or the arm selects. -/
theorem armsAreSetAndTaken : Obligations.ArmsAreSetAndTaken := by
  unfold Obligations.ArmsAreSetAndTaken
  intro s r arm disarm fa fr w
  have empty (h : r.payload = []) : hasLength r 0 = true := hasLength_of_eq (by rw [h]; rfl)
  refine ⟨fun ready phase => ?_, fun ready length => ?_, fun ready length out => ?_,
    fun ready length inRange => ⟨fun form => ?_, fun form => ?_⟩,
    fun ready phase => ?_, fun ready some_ => ?_, fun ready none_ unarmed => ?_, fun ready none_ armed => ?_,
    fun ready none_ => ?_, fun ready none_ clear => ?_, fun ready none_ set => ?_⟩
  · exact refuses_starting (exec_switchArm r s) ready phase
  · exact refuses_length (exec_switchArm r s) ready length
  · exact refuses_of_owner (exec_switchArm r s) ready (hasLength_of_eq length) (if_pos out)
  · refine answersWith_of_owner (exec_switchArm r s) ready (hasLength_of_eq length) ?_ rfl
    rw [if_neg (by omega), if_pos form]
    rfl
  · refine answersWith_of_owner (exec_switchArm r s) ready (hasLength_of_eq length) ?_ rfl
    rw [if_neg (by omega), if_neg (by omega)]
    rfl
  · exact refuses_starting (exec_switchDisarm r s) ready phase
  · exact refuses_length (exec_switchDisarm r s) ready fun h => some_ (List.length_eq_zero_iff.mp h)
  · exact refuses_of_owner (exec_switchDisarm r s) ready (empty none_) (if_pos unarmed)
  · exact answersWith_of_owner (exec_switchDisarm r s) ready (empty none_) (if_neg armed) rfl
  · rw [exec_restartArm, execRestartArm, empty none_, siteRequest_owner _ _ _ _ _ ready, State.replyOk,
      settle_reply_of_none_raised ((taken s).mapSite _) _ _ _ (none_raised_of_portOpen ready :)]
    rfl
  · exact refuses_of_owner (exec_restart r s) ready (empty none_) (if_neg (by simp [clear]))
  · rw [exec_restart, execRestart, empty none_, siteRequest_owner _ _ _ _ _ ready, if_pos set, handOver_eq]
    exact congrArg _ (settle_of_none_raised _ (none_raised_of_portOpen ready :))

end Sys2Proof
end

section
/-! PROOF. The payloads of PROFILE WRITE, HOLIDAY WRITE and TIMING SET (10.4) and their checks (R18, R26, R167). -/

namespace Sys2Proof.Machine

/-! ### Bytes and fields -/

theorem byteAt_eq_field (p : List Byte) (i : Nat) : byteAt p i = field p i 1 := by
  rw [byteAt, field, List.getD_eq_getElem?_getD, ← List.head?_drop]
  cases p.drop i <;> simp [beNat]

theorem field_drop (p : List Byte) (n i k : Nat) : field (p.drop n) i k = field p (n + i) k := by
  rw [field, field, List.drop_drop]

theorem getD_drop (p : List Byte) (n i : Nat) : (p.drop n).getD i 0 = p.getD (n + i) 0 := by
  simp

/-! ### PROFILE WRITE -/

theorem clauseOf_days (p : List Byte) (k : Nat) : (clauseOf p k).days = p.getD (19 + 21 * k) 0 := by
  have at_ : 3 + 21 * k + 16 = 19 + 21 * k := by omega
  simp only [clauseOf, getD_drop, at_]

theorem clauseOf_start (p : List Byte) (k : Nat) : (clauseOf p k).start = field p (20 + 21 * k) 2 := by
  have at_ : 3 + 21 * k + 17 = 20 + 21 * k := by omega
  simp only [clauseOf, field_drop, at_]

theorem clauseOf_stop (p : List Byte) (k : Nat) : (clauseOf p k).stop = field p (22 + 21 * k) 2 := by
  have at_ : 3 + 21 * k + 19 = 22 + 21 * k := by omega
  simp only [clauseOf, field_drop, at_]

theorem clauseOf_landings (p : List Byte) (k : Nat) (l : Landing) :
    (clauseOf p k).landings.getLsbD l.val = (p.getD (3 + 21 * k + l.val / 8) 0).getLsbD (l.val % 8) := by
  have : l.val / 8 < 16 := by omega
  rw [clauseOf, setOf_getLsbD]
  simp [this]

/-- R18: a clause that begins and ends within a day. -/
def Clause.InDay (c : Clause) : Prop := c.start ≤ 1439 ∧ c.stop ≤ 1439

theorem outOfDay_iff (c : Clause) : (1439 < c.start || 1439 < c.stop : Bool) = true ↔ ¬ c.InDay := by
  simp only [Clause.InDay, Bool.or_eq_true, decide_eq_true_iff]
  omega

theorem profileFailure_of_form {p : List Byte} (form : 1 < byteAt p 1) : profileFailure p = some 255 :=
  if_pos form

theorem profileFailure_of_count {p : List Byte} (form : byteAt p 1 ≤ 1) (count : 8 < byteAt p 2) :
    profileFailure p = some 8 := by
  rw [profileFailure, if_neg (Nat.not_lt.mpr form), if_pos count]

section
variable {p : List Byte} (form : byteAt p 1 ≤ 1) (count : byteAt p 2 ≤ 8)
include form count

theorem profileFailure_eq_find? : profileFailure p = (List.range (byteAt p 2)).find? fun k =>
    1439 < (clauseOf p k).start || 1439 < (clauseOf p k).stop := by
  rw [profileFailure, if_neg (Nat.not_lt.mpr form), if_neg (Nat.not_lt.mpr count)]

theorem profileFailure_of_first {k : Nat} (lt : k < byteAt p 2) (before : ∀ j < k, (clauseOf p j).InDay)
    (fails : ¬ (clauseOf p k).InDay) : profileFailure p = some k := by
  rw [profileFailure_eq_find? form count, List.find?_range_eq_some]
  refine ⟨(outOfDay_iff _).mpr fails, List.mem_range.mpr lt, fun j lt => ?_⟩
  rw [Bool.not_eq_true', Bool.eq_false_iff, Ne, outOfDay_iff, not_not]
  exact before j lt

theorem profileFailure_of_inDay (all : ∀ k < byteAt p 2, (clauseOf p k).InDay) :
    profileFailure p = none := by
  rw [profileFailure_eq_find? form count, List.find?_eq_none]
  intro k mem
  rw [outOfDay_iff, not_not]
  exact all k (List.mem_range.mp mem)

end

/-! ### HOLIDAY WRITE -/

theorem length_holidaysOf (p : List Byte) : (holidaysOf p).length = byteAt p 0 := by
  simp [holidaysOf]

theorem holidaysOf_getElem? {p : List Byte} {k : Nat} (lt : k < byteAt p 0) :
    (holidaysOf p)[k]? = some (field p (1 + 2 * k) 2) := by
  simp [holidaysOf, lt]

/-- R26: the entry after number `j` of a list is above it. -/
def RisesAt (as : List Nat) (j : Nat) : Prop := as.getD j 0 < as.getD (j + 1) 0

theorem firstUnsorted_of_first {as : List Nat} {j : Nat} (k : Nat) (lt : j + 1 < as.length)
    (before : ∀ i < j, RisesAt as i) (fails : ¬ RisesAt as j) : firstUnsorted k as = some (k + (j + 1)) := by
  induction as generalizing j k with
  | nil => simp at lt
  | cons a as ih =>
    cases as with
    | nil => simp at lt
    | cons b rest =>
      cases j with
      | zero =>
        have falls : b ≤ a := by simpa [RisesAt] using fails
        rw [firstUnsorted, if_pos falls]
      | succ j =>
        have rises : ¬ b ≤ a := by simpa [RisesAt] using before 0 (Nat.succ_pos j)
        rw [firstUnsorted, if_neg rises, ih (j := j) (k + 1) (by simpa using lt)
          (fun i lt => before (i + 1) (by omega)) fails]
        congr 1
        omega

theorem firstUnsorted_of_rising {as : List Nat} (k : Nat)
    (rises : ∀ j, j + 1 < as.length → RisesAt as j) : firstUnsorted k as = none := by
  induction as generalizing k with
  | nil => rfl
  | cons a as ih =>
    cases as with
    | nil => rfl
    | cons b rest =>
      have first : ¬ b ≤ a := by simpa [RisesAt] using rises 0 (by simp)
      rw [firstUnsorted, if_neg first]
      exact ih (k + 1) fun j lt => rises (j + 1) (by simpa using lt)

theorem holidayFailure_of_count {p : List Byte} (count : 64 < byteAt p 0) : holidayFailure p = some 64 :=
  if_pos count

section
variable {p : List Byte} (count : byteAt p 0 ≤ 64)
include count

theorem holidayFailure_of_first {k : Nat} (lt : k + 1 < byteAt p 0)
    (before : ∀ j < k, RisesAt (holidaysOf p) j) (fails : ¬ RisesAt (holidaysOf p) k) :
    holidayFailure p = some (k + 1) := by
  rw [holidayFailure, if_neg (Nat.not_lt.mpr count),
    firstUnsorted_of_first 0 (by rwa [length_holidaysOf]) before fails, Nat.zero_add]

theorem holidayFailure_of_rising (rises : ∀ k, k + 1 < byteAt p 0 → RisesAt (holidaysOf p) k) :
    holidayFailure p = none := by
  rw [holidayFailure, if_neg (Nat.not_lt.mpr count)]
  exact firstUnsorted_of_rising 0 fun j lt => rises j (by rwa [length_holidaysOf] at lt)

end

/-! ### TIMING SET -/

theorem timingsOf_eq (p : List Byte) : timingsOf p =
    { badgeWait := max 20 (min 100 (byteAt p 0)), interKey := max 5 (min 50 (byteAt p 1))
      carHold := max 3 (min 60 (byteAt p 2)), validity := max 120 (min 1800 (field p 3 2))
      batchIdle := max 10 (min 300 (field p 5 2)) } := by
  simp only [timingsOf, clampTo, byteAt_eq_field]

/-- R127: the expiries, entry by entry. -/
theorem lower_eq (t : TransferTable) (before after : Nat) :
    t.lower before after = { t with entries := t.entries.map fun e =>
      { e with expiry := if after < before then min e.expiry (e.setAt + after) else e.expiry } } := by
  unfold TransferTable.lower
  split
  · rfl
  · simp

end Sys2Proof.Machine
end

section
/-! PROOF. PROFILE WRITE (R18), HOLIDAY WRITE (R26) and TIMING SET (R167) carried out. -/

namespace Sys2Proof.Machine

/-- R18: the protection of the service profiles, 240 and above. -/
theorem unguarded {s : State} {n : Nat} (key : s.keyOn = true ∨ n < 240) :
    ¬ (240 ≤ n ∧ (!s.keyOn) = true) := by
  rcases key with on | low
  · simp [on]
  · omega

theorem profileFits_of_length {p : List Byte} (length : p.length = 3 + 21 * byteAt p 2) :
    profileFits p = true := by
  simp [profileFits, length]

theorem holidayFits_of_length {p : List Byte} (length : p.length = 1 + 2 * byteAt p 0) :
    holidayFits p = true := by
  simp [holidayFits, length]

section
variable {s : State} {r : Req} (ready : PortOpen s { type := 0x14, req := r })
  (length : r.payload.length = 3 + 21 * byteAt r.payload 2) (key : s.keyOn = true ∨ byteAt r.payload 0 < 240)
include ready length key

theorem execProfileWrite_of_failure {i : Nat} (fails : profileFailure r.payload = some i) :
    Refuses s (.profileWrite r) { type := 0x14, req := r } .range (u8 i) := by
  refine refuses_of_owner (exec_profileWrite r s) ready (profileFits_of_length length) ?_
  simp only [taken_keyOn, if_neg (unguarded key), fails]

theorem execProfileWrite_of_valid (valid : profileFailure r.payload = none) :
    AnswersWith s (.profileWrite r) { type := 0x14, req := r } .ok [] { s with
      banks := s.banks.writeShadow (byteAt r.payload 0) (profileOf r.payload) } := by
  refine answersWith_of_owner (exec_profileWrite r s) ready (profileFits_of_length length) ?_ rfl
  simp only [taken_keyOn, if_neg (unguarded key), valid]
  rfl

end

section
variable {s : State} {r : Req} (ready : PortOpen s { type := 0x18, req := r })
  (length : r.payload.length = 1 + 2 * byteAt r.payload 0) (key : s.keyOn = true)
include ready length key

theorem execHolidayWrite_of_failure {i : Nat} (fails : holidayFailure r.payload = some i) :
    Refuses s (.holidayWrite r) { type := 0x18, req := r } .range (u8 i) := by
  refine refuses_of_owner (exec_holidayWrite r s) ready (holidayFits_of_length length) ?_
  simp only [taken_keyOn, key, fails, Bool.not_true, Bool.false_eq_true, if_false]

theorem execHolidayWrite_of_valid (valid : holidayFailure r.payload = none) :
    AnswersWith s (.holidayWrite r) { type := 0x18, req := r } .ok [] { s with
      banks := { s.banks with holidays := holidaysOf r.payload }, store := saveQueued s.store } := by
  refine answersWith_of_owner (exec_holidayWrite r s) ready (holidayFits_of_length length) ?_ rfl
  simp only [taken_keyOn, key, valid, Bool.not_true, Bool.false_eq_true, if_false, queueSave_eq]
  rfl

end

theorem execTimingSet_of_keyOn {s : State} {r : Req} (ready : PortOpen s { type := 0x32, req := r })
    (length : r.payload.length = 7) (key : s.keyOn = true) :
    AnswersWith s (.timingSet r) { type := 0x32, req := r } .ok (timingsOf r.payload).bytes { s with
      timing := timingsOf r.payload, store := saveQueued s.store
      transfer := s.transfer.lower s.timing.validity (timingsOf r.payload).validity } := by
  refine answersWith_of_owner (exec_timingSet r s) ready (hasLength_of_eq length) ?_ rfl
  simp only [taken_keyOn, key, Bool.not_true, Bool.false_eq_true, if_false, queueSave_eq]
  rfl

end Sys2Proof.Machine

namespace Sys2Proof

open Machine

/-- Settles O26: the layouts byte by byte, the refusals by the first item that fails, the three writes. -/
theorem profilesHolidaysAndTimingsAreWritten : Obligations.ProfilesHolidaysAndTimingsAreWritten := by
  unfold Obligations.ProfilesHolidaysAndTimingsAreWritten
  intro s r p fp fh ft inDay days rises x
  refine ⟨fun k => ⟨clauseOf_days p k, clauseOf_start p k, clauseOf_stop p k, clauseOf_landings p k⟩,
    length_holidaysOf p, fun k lt => holidaysOf_getElem? lt, fun ready length key => ⟨?_, ?_, ?_, ?_⟩,
    fun ready _ length key => ⟨?_, ?_, ?_⟩, fun ready length key => ?_⟩
  · exact fun form => execProfileWrite_of_failure ready length key (profileFailure_of_form form)
  · exact fun form count => execProfileWrite_of_failure ready length key (profileFailure_of_count form count)
  · exact fun k form count lt before fails =>
      execProfileWrite_of_failure ready length key (profileFailure_of_first form count lt before fails)
  · exact fun form count all =>
      execProfileWrite_of_valid ready length key (profileFailure_of_inDay form count all)
  · exact fun count => execHolidayWrite_of_failure ready length key (holidayFailure_of_count count)
  · exact fun k count lt before fails =>
      execHolidayWrite_of_failure ready length key (holidayFailure_of_first count lt before fails)
  · exact fun count all => execHolidayWrite_of_valid ready length key (holidayFailure_of_rising count all)
  · have set := execTimingSet_of_keyOn ready length key
    rw [lower_eq, timingsOf_eq] at set
    exact set

end Sys2Proof
end

section
/-! PROOF. Start-up (R28, R169, R173): what it leaves, and the three events that begin it. -/

namespace Sys2Proof.Machine

/-- R173: the kinds that are MAJOR by default. -/
theorem defaultMajors_getLsbD_iff (k : FaultKind) : defaultMajors.getLsbD k.code = true ↔
    k ∈ [FaultKind.groupOffline, .storeProgramFail, .spareLow, .storeFault, .settingsLost, .commitFail] := by
  cases k <;> decide

/-- R173: the raising of an unmasked kind, the Fault Unit as `raiseFault_faults` has it. -/
theorem raiseFault_of_unmasked (s : State) (k : FaultKind) (d : Nat) (unmasked : s.faults.masked k = false) :
    s.raiseFault k d = { s with
      faults := (s.raiseFault k d).faults
      notices := { s.notices with raised := s.notices.raised ++ [
        { uptime := s.cal.uptime, body := .faultRaised k (s.faults.major k) d (s.faults.isSet k) s.date }] } } := by
  simp only [State.raiseFault, unmasked, Bool.false_eq_true, if_false]
  rfl

/-- R173: the Fault Unit at its start-up values once CLOCK_UNSET is raised. -/
def FaultUnit.clockUnset : FaultUnit := { FaultUnit.startUp with
  status := FaultKind.clockUnset.bit
  first := some { kind := .clockUnset, uptime := 0, date := none, detail := 0 } }

/-- R171: the Notice Unit at its start-up values takes the notice of CLOCK_UNSET. -/
theorem startUp_take_clockUnset :
    (inClassOrder [clockUnsetNotice]).foldl NoticeUnit.take NoticeUnit.startUp
      = { NoticeUnit.startUp with queue := [.notice clockUnsetNotice] } := by
  decide

/-- R173: CLOCK_UNSET raised on a card whose clock, Fault Unit and Notice Unit have their start-up values. -/
theorem raise_clockUnset_settle (u : State) (cal : u.cal = Calendar.startUp)
    (faults : u.faults = FaultUnit.startUp) (notices : u.notices = NoticeUnit.startUp)
    (phase : u.site.phase = .scanning) :
    (u.raiseFault .clockUnset 0).settle = { u with
      faults := FaultUnit.clockUnset
      notices := { NoticeUnit.startUp with queue := [.notice clockUnsetNotice] } } := by
  have date : u.date = none := by rw [State.date, cal]; rfl
  have unit : (u.raiseFault .clockUnset 0).faults = FaultUnit.clockUnset := by
    have bit : FaultUnit.startUp.status ||| FaultKind.clockUnset.bit = FaultKind.clockUnset.bit := by decide
    rw [raiseFault_faults, faults, date, cal, phase, bit]
    rfl
  have unmasked : u.faults.masked .clockUnset = false := by rw [faults]; decide
  have minor : u.faults.major .clockUnset = false := by rw [faults]; decide
  have unset : u.faults.isSet .clockUnset = false := by rw [faults]; decide
  rw [raiseFault_of_unmasked u .clockUnset 0 unmasked, unit, minor, unset, date, cal, notices,
    ← startUp_take_clockUnset]
  rfl

/-- Start-up sets every volatile block and raises CLOCK_UNSET. -/
theorem startUp_settle_eq (s : State) : s.startUp.settle = { s.volatileReset with
    power := .running
    time := { seconds := 0, ms := 0 }
    resetIn := resetReleasedAt s.resetIn.raw
    faults := FaultUnit.clockUnset
    notices := { NoticeUnit.startUp with queue := [.notice clockUnsetNotice] } } :=
  raise_clockUnset_settle _ rfl rfl rfl rfl

/-- Every block of a card that has begun its start-up. -/
theorem startUp_startedUp (s : State) : StartedUp s s.startUp.settle := by
  rw [startUp_settle_eq]
  exact {
    power := rfl, time := rfl, cal := rfl, banks := rfl, timing := rfl, zone := rfl, readers := rfl
    queue := rfl, engine := rfl, transfer := rfl, batch := rfl, dir := rfl, groups := rfl
    recallInputs := fun g => by simp [State.volatileReset, State.recallOf, vmap, Debounce.startUp]
    key := rfl, keyOff := rfl, resetReleased := rfl, site := rfl
    pages := rfl, log := rfl, area := rfl, counter := rfl
    array := ⟨rfl, rfl, rfl, rfl, rfl, rfl⟩, unscanned := ⟨rfl, rfl, rfl⟩, save := rfl, notices := rfl
    status := rfl, first := rfl, line := rfl, masks := rfl
    severities := defaultMajors_getLsbD_iff
    storeDetail := rfl, draws := rfl, commands := rfl }

/-- A held card watches the reset input without the bound of the next second event. -/
theorem reach_of_held {s : State} (held : s.power = .held) (t : Nat) :
    ∃ time, s.reach t = some { s with time := time } := by
  unfold State.reach
  by_cases past : t ≤ s.now
  · exact ⟨s.time, if_pos past⟩
  · exact ⟨_, by rw [if_neg past, if_pos (Or.inr (by simp [held]))]⟩

/-- R169: the count of the released reset input ends. -/
theorem countDone_reset_of_held {s : State} {since : Nat} (held : s.power = .held)
    (counting : s.resetIn = { raw := .low, stable := some .high, since := some since }) :
    ∃ time, s.countDone .reset false = some { s with
      time := time, resetIn := { raw := .low, stable := some .low, since := none } } := by
  have ends : s.resetIn.countEnds false = some (since + 100) := by rw [counting]; rfl
  obtain ⟨time, reached⟩ := reach_of_held held (since + 100)
  refine ⟨time, ?_⟩
  have input : s.input .reset = s.resetIn := rfl
  rw [State.countDone, input, ends, Option.bind_some, reached, Option.map_some]
  simp only [State.mapInput, Debounce.settle, counting]

/-- R169: the released reset input begins a start-up, which finds the card as it was held. -/
theorem execResetReleased_of_held {s : State} {since : Nat} (held : s.power = .held)
    (counting : s.resetIn = { raw := .low, stable := some .high, since := some since }) :
    exec .resetReleased s = .next s.startUp.settle := by
  obtain ⟨time, done⟩ := countDone_reset_of_held held counting
  have low : s.resetIn.raw = .low := by rw [counting]
  rw [exec_resetReleased, execResetReleased, if_pos ⟨held, low⟩, done]
  simp only [State.startUp, State.volatileReset, low]

/-- R168: the end of the OK to an armed RESTART begins a start-up. -/
theorem execTransmitComplete_of_restart {s : State} {tx : SiteTx} (runs : s.power = .running)
    (sending : s.site.sending = some tx) (restart : tx.restart = true) :
    exec .transmitComplete s = .next s.cut.startUp.settle := by
  rw [exec_transmitComplete, execTransmitComplete, whileRunning_of_running _ _ runs]
  simp only [sending, restart, if_true]

end Sys2Proof.Machine

namespace Sys2Proof

open Machine

/-- Settles O4: the three events begin one start-up, the last with the operation in progress cut short. -/
theorem startUpBeginsAlike : Obligations.StartUpBeginsAlike := by
  unfold Obligations.StartUpBeginsAlike
  intro s
  refine ⟨fun off => ⟨s.startUp.settle, ?_, startUp_startedUp s⟩,
    fun since held counting => ⟨_, execResetReleased_of_held held counting, startUp_startedUp s⟩,
    fun tx ⟨runs, _⟩ sending restart =>
      ⟨_, execTransmitComplete_of_restart runs sending restart, startUp_startedUp s.cut, ?_⟩⟩
  · rw [exec_powerOn, execPowerOn, if_pos off]
  · rw [(startUp_startedUp s.cut).area, cut_area]

end Sys2Proof
end

section
/-! PROOF. The card at reset: each part read once, and each invariant from the parts it speaks of. -/

namespace Sys2Proof.Machine

/-! ### Its parts -/

theorem reset_reader (c : Chan) : State.reset.reader c = Channel.startUp := by
  simp [State.reader, State.reset]

theorem reset_group (g : Group) : State.reset.group g = GroupMgr.startUp := by
  simp [State.group, State.reset]

theorem reset_recallOf (g : Group) : State.reset.recallOf g =
    { cfg := { polarity := .activeHigh, mode := .level }, line := Debounce.startUp .low
      state := .inRecall, fixed := false } := by
  simp [State.recallOf, State.reset]

theorem startUp_enables (car : Car) : GroupMgr.startUp.enables[car] = CarEnable.empty := by
  simp [GroupMgr.startUp]

theorem reset_stateOf (p : Page) : State.reset.store.stateOf p = .free := by
  simp [Store.stateOf, State.reset, Store.factory]

/-- R41: a factory card has one programmed page, of the whole range and without records. -/
theorem reset_programmed {p : Page} {x : PageImage}
    (h : (State.reset.store.page p).contents = .programmed x) :
    x = { low := 1, high := topBadge, count := 0, commit := 0, complete := true, records := [] } := by
  simp only [Store.page, State.reset, Store.factory, Fin.getElem_fin, Vector.getElem_set] at h
  split at h
  · exact (PageContents.programmed.inj h).symm
  · simp at h

theorem reset_work : State.reset.store.work = none := rfl

theorem reset_op : State.reset.store.op = none := rfl

/-! ### The invariants -/

theorem reset_availabilityRight : AvailabilityRight State.reset := fun g => by
  rw [State.availability, reset_group, reset_recallOf]
  rfl

theorem reset_outOfServiceEmpty : OutOfServiceEmpty State.reset := fun g _ => by
  rw [reset_group]
  exact ⟨rfl, fun car => by rw [startUp_enables]; rfl⟩

theorem reset_ordersRight : OrdersRight State.reset := fun g => by
  rw [reset_group]
  exact ⟨Nat.zero_le _, List.nodup_nil⟩

theorem reset_quietLines : QuietLines State.reset := fun c => by
  rw [reset_reader]
  exact ⟨fun _ => rfl, fun _ => .inl rfl⟩

theorem reset_transferRight : TransferRight State.reset :=
  ⟨Nat.zero_le _, List.nodup_nil, fun _ mem => absurd mem List.not_mem_nil⟩

theorem reset_quietUntilOpen : QuietUntilOpen State.reset := fun _ =>
  ⟨rfl, rfl, fun g => by rw [reset_group]; rfl, rfl, fun c => by rw [reset_reader]; exact ⟨rfl, rfl⟩⟩

theorem reset_admissions : State.reset.admissions = [] := by
  simp [State.admissions, State.reset, GroupMgr.startUp]

theorem reset_oneAdmissionEach : OneAdmissionEach State.reset := by
  rw [OneAdmissionEach, reset_admissions]
  exact ⟨List.nodup_nil, fun _ mem => absurd mem List.not_mem_nil⟩

theorem reset_batchRight : BatchRight State.reset :=
  ⟨Nat.zero_le _, List.nodup_nil, fun _ => rfl, fun _ _ taken => absurd taken (by simp [State.reset, Port.startUp])⟩

theorem reset_marksWithinBudget : MarksWithinBudget State.reset := by
  refine ⟨fun p x r n held mem _ => ?_, fun w c pr r running => ?_⟩
  · rw [reset_programmed held] at mem
    exact absurd mem List.not_mem_nil
  · rw [reset_work] at running
    exact absurd running (by simp)

theorem reset_onePageAtATime : OnePageAtATime State.reset :=
  ⟨fun p erasing => by rw [reset_stateOf] at erasing; exact absurd erasing (by decide),
    fun p writing => by rw [reset_stateOf] at writing; exact absurd writing (by decide)⟩

theorem reset_headersInRange : HeadersInRange State.reset.store := fun p x held => by
  rw [reset_programmed held]
  exact ⟨Nat.le_refl 1, Nat.le_refl topBadge⟩

theorem reset_indexRight : IndexRight State.reset :=
  ⟨List.Pairwise.nil, fun scanned => absurd rfl scanned⟩

theorem reset_pagesRight : PagesRight State.reset.store :=
  ⟨reset_headersInRange, fun p x held => by rw [reset_programmed held]; exact Nat.zero_le _⟩

/-- At reset nothing is queued, running or held, so that only the pages have something to show. -/
theorem reset_workRight : WorkRight State.reset where
  apart := ⟨List.Pairwise.nil, List.nodup_nil, fun _ mem => absurd mem List.not_mem_nil⟩
  pages := reset_pagesRight
  tile := fun w running => by simp [reset_work] at running
  held := fun w running => by simp [reset_work] at running
  inPhase := fun w running => by simp [reset_work] at running
  array := ⟨fun i p running => by simp [reset_op] at running, fun p running => by simp [reset_op] at running,
    fun running => by simp [reset_op] at running, Nat.zero_le _, fun mem => absurd mem List.not_mem_nil⟩
  eraseQueue := ⟨List.nodup_nil, fun _ mem => absurd mem List.not_mem_nil⟩
  plan := ⟨fun opened => absurd opened (by decide),
    fun _ _ _ taken => absurd taken (by simp [State.reset, Port.startUp])⟩
  quiet := fun _ => ⟨rfl, rfl, rfl, rfl⟩

end Sys2Proof.Machine

namespace Sys2Proof

open Machine

/-- Settles O2: the values of the tables part by part, and the invariants from the lemmas above. -/
theorem resetHoldsTheStartUpValues : Obligations.ResetHoldsTheStartUpValues := by
  unfold Obligations.ResetHoldsTheStartUpValues
  simp only [reset_group, reset_reader]
  have notices : NoticesBounded State.reset := ⟨rfl, by decide⟩
  have queues : QueuesBounded State.reset := ⟨Nat.zero_le _, Nat.zero_le _⟩
  have calendar : CalendarInRange State.reset := by decide
  have silent : SilentWhenDown State.reset := fun down => absurd rfl down
  have spent : NumberSpent State.reset := fun w running => by simp [reset_work] at running
  exact ⟨rfl, rfl, fun _ => ⟨rfl, rfl, rfl, rfl, rfl, rfl⟩, reset_recallOf, rfl, rfl, rfl, rfl, rfl,
    defaultMajors_getLsbD_iff, fun _ => ⟨rfl, rfl, rfl, rfl⟩, rfl, rfl, rfl, rfl, rfl, rfl, rfl, by decide, rfl,
    rfl, rfl, rfl, notices, queues, calendar, rfl, silent, reset_quietLines, reset_availabilityRight,
    reset_outOfServiceEmpty, reset_ordersRight, reset_transferRight, reset_quietUntilOpen,
    reset_oneAdmissionEach, reset_batchRight, reset_marksWithinBudget, reset_onePageAtATime, spent, rfl,
    reset_indexRight, reset_headersInRange, fun _ => rfl, fun _ => rfl, reset_workRight⟩

end Sys2Proof
end

section
/-! PROOF. The deadlines of a second event (R29): what they may change, and that no notice of the class CLOCK is
among those they raise. -/

namespace Sys2Proof.Machine

/-! ### The parts of the card that the deadlines may change -/

/-- The deadlines reach the channels, the queue, the batch, the managers and the Fault Unit, and raise no notice
of the class CLOCK: the Calendar Clock, the Profile Banks, the Transfer Table, the store and the time base
stand. -/
def SameButDeadlines (s t : State) : Prop :=
  ∃ gs rs q b f ns, (∀ n ∈ ns, n.body.cls ≠ .clock) ∧ t = { s with
    groups := gs, readers := rs, queue := q, batch := b, faults := f
    notices := { s.notices with raised := s.notices.raised ++ ns } }

theorem SameButDeadlines.refl (s : State) : SameButDeadlines s s :=
  ⟨s.groups, s.readers, s.queue, s.batch, s.faults, [], by simp, by rw [List.append_nil]⟩

theorem SameButDeadlines.trans {s t u : State} (h : SameButDeadlines s t) (k : SameButDeadlines t u) :
    SameButDeadlines s u := by
  obtain ⟨gs, rs, q, b, f, ns, off, rfl⟩ := h
  obtain ⟨gs', rs', q', b', f', ns', off', rfl⟩ := k
  refine ⟨gs', rs', q', b', f', ns ++ ns', fun n mem => ?_, by simp only [List.append_assoc]⟩
  exact (List.mem_append.mp mem).elim (off n) (off' n)

theorem SameButDeadlines.foldl {α : Type} (f : State → α → State) (h : ∀ s a, SameButDeadlines s (f s a))
    (as : List α) (s : State) : SameButDeadlines s (as.foldl f s) := by
  induction as generalizing s with
  | nil => exact SameButDeadlines.refl s
  | cons a as ih => exact (h s a).trans (ih _)

/-! ### The steps they are made of -/

section
variable (s : State)

theorem mapGroup_sameDeadlines (g : Group) (f : GroupMgr → GroupMgr) : SameButDeadlines s (s.mapGroup g f) :=
  ⟨_, s.readers, s.queue, s.batch, s.faults, [], by simp, by rw [List.append_nil]; rfl⟩

theorem mapReader_sameDeadlines (c : Chan) (f : Channel → Channel) : SameButDeadlines s (s.mapReader c f) :=
  ⟨s.groups, _, s.queue, s.batch, s.faults, [], by simp, by rw [List.append_nil]; rfl⟩

theorem withQueue_sameDeadlines (q : List Request) : SameButDeadlines s { s with queue := q } :=
  ⟨s.groups, s.readers, q, s.batch, s.faults, [], by simp, by rw [List.append_nil]⟩

theorem mapBatch_sameDeadlines (f : Batch → Batch) : SameButDeadlines s (s.mapBatch f) :=
  ⟨s.groups, s.readers, s.queue, _, s.faults, [], by simp, by rw [List.append_nil]; rfl⟩

theorem raiseNotice_sameDeadlines (b : NoticeBody) (off : b.cls ≠ .clock) :
    SameButDeadlines s (s.raiseNotice b) :=
  ⟨s.groups, s.readers, s.queue, s.batch, s.faults, [{ uptime := s.cal.uptime, body := b }],
    by simpa using off, rfl⟩

theorem mapFaults_sameDeadlines (f : FaultUnit → FaultUnit) : SameButDeadlines s (s.mapFaults f) :=
  ⟨s.groups, s.readers, s.queue, s.batch, _, [], by simp, by rw [List.append_nil]; rfl⟩

theorem raiseFault_sameDeadlines (k : FaultKind) (d : Nat) : SameButDeadlines s (s.raiseFault k d) := by
  unfold State.raiseFault
  dsimp only
  refine SameButDeadlines.trans ?_ (mapFaults_sameDeadlines _ _)
  split
  · exact mapFaults_sameDeadlines s _
  · exact (mapFaults_sameDeadlines s _).trans (raiseNotice_sameDeadlines _ _ (by simp [NoticeBody.cls]))

theorem deliver_sameDeadlines (c : Chan) (a : Answer) : SameButDeadlines s (s.deliver c a) := by
  obtain ⟨f, e⟩ := deliver_touches s c a
  rw [e]
  exact mapReader_sameDeadlines s c f

theorem sendGroup_sameDeadlines (g : Group) (m : GroupMsg) : SameButDeadlines s (s.sendGroup g m) :=
  mapGroup_sameDeadlines s g _

/-! ### The batch and the channels -/

theorem checkBatch_sameDeadlines : SameButDeadlines s s.checkBatch := by
  unfold State.checkBatch
  split
  · exact (mapBatch_sameDeadlines s _).trans (raiseNotice_sameDeadlines _ _ (by simp [NoticeBody.cls]))
  · exact SameButDeadlines.refl s

theorem settleMark_sameDeadlines (c : Chan) : SameButDeadlines s (s.settleMark c) := by
  obtain ⟨f, q, e⟩ := settleMark_touches s c
  rw [e]
  exact (withQueue_sameDeadlines s q).trans (mapReader_sameDeadlines _ c f)

theorem checkSilence_sameDeadlines (c : Chan) : SameButDeadlines s (s.checkSilence c) := by
  unfold State.checkSilence
  split
  · exact (((mapReader_sameDeadlines s c _).trans (settleMark_sameDeadlines _ c)).trans
      (raiseFault_sameDeadlines _ _ _)).trans (raiseNotice_sameDeadlines _ _ (by simp [NoticeBody.cls]))
  · exact SameButDeadlines.refl s

theorem checkChannel_sameDeadlines (c : Chan) : SameButDeadlines s (s.checkChannel c) := by
  obtain ⟨f, e⟩ := checkDisplay_touches (s.checkSilence c) c
  rw [State.checkChannel, e]
  exact (checkSilence_sameDeadlines s c).trans (mapReader_sameDeadlines _ c f)

/-! ### The managers -/

theorem leaveService_sameDeadlines (g : Group) (after : Avail) :
    SameButDeadlines s (s.leaveService g after) := by
  unfold State.leaveService
  dsimp only
  refine SameButDeadlines.trans ?_ (mapGroup_sameDeadlines _ g _)
  refine SameButDeadlines.trans ?_
    (SameButDeadlines.foldl _ (fun s car => sendGroup_sameDeadlines s g (.withdraw car)) _ _)
  refine SameButDeadlines.trans ?_
    (SameButDeadlines.foldl _ (fun s (o : Order) => deliver_sameDeadlines s o.channel _) _ _)
  exact mapGroup_sameDeadlines s g _

theorem regroup_sameDeadlines (g : Group) (cause : GroupCause) (always : Bool)
    (change : Option RecallChange) : SameButDeadlines s (s.regroup g cause always change) := by
  unfold State.regroup
  dsimp only
  split
  · exact SameButDeadlines.refl s
  · refine SameButDeadlines.trans (SameButDeadlines.trans ?_ (mapGroup_sameDeadlines _ g _))
      (raiseNotice_sameDeadlines _ _ (by simp [NoticeBody.cls]))
    split
    · exact leaveService_sameDeadlines s g _
    · exact SameButDeadlines.refl s

theorem checkLink_sameDeadlines (g : Group) : SameButDeadlines s (s.checkLink g) := by
  unfold State.checkLink
  dsimp only
  split
  · have silent := (mapGroup_sameDeadlines s g fun m =>
      { m with link := .silent, cars := Vector.replicate 8 CarRow.unknown }).trans
        (regroup_sameDeadlines _ g .linkSilent true none)
    unfold State.linkGoesSilent
    dsimp only
    split
    · exact silent.trans (raiseFault_sameDeadlines _ _ _)
    · exact silent
  · exact SameButDeadlines.refl s

theorem checkReply_sameDeadlines (g : Group) (tag : Byte) : SameButDeadlines s (s.checkReply g tag) := by
  unfold State.checkReply
  split
  · split
    · exact ((mapGroup_sameDeadlines s g _).trans (sendGroup_sameDeadlines _ g _)).trans
        (deliver_sameDeadlines _ _ _)
    · exact SameButDeadlines.refl s
  · exact SameButDeadlines.refl s

theorem checkCancel_sameDeadlines (g : Group) (tag : Byte) : SameButDeadlines s (s.checkCancel g tag) := by
  unfold State.checkCancel
  split
  · split
    · exact mapGroup_sameDeadlines s g _
    · exact SameButDeadlines.refl s
  · exact SameButDeadlines.refl s

theorem checkHold_sameDeadlines (g : Group) (car : Car) : SameButDeadlines s (s.checkHold g car) := by
  unfold State.checkHold
  split
  · unfold State.withdraw
    split
    · exact SameButDeadlines.refl s
    · exact (sendGroup_sameDeadlines s g _).trans (mapGroup_sameDeadlines _ g _)
  · exact SameButDeadlines.refl s

theorem checkGroup_sameDeadlines (g : Group) : SameButDeadlines s (s.checkGroup g) :=
  (((checkLink_sameDeadlines s g).trans
    (SameButDeadlines.foldl _ (fun s tag => checkReply_sameDeadlines s g tag) _ _)).trans
    (SameButDeadlines.foldl _ (fun s tag => checkCancel_sameDeadlines s g tag) _ _)).trans
    (SameButDeadlines.foldl _ (fun s car => checkHold_sameDeadlines s g car) _ _)

/-- R29: all deadlines of a second event. -/
theorem checkAll_sameDeadlines : SameButDeadlines s s.checkAll :=
  ((checkBatch_sameDeadlines s).trans
    (SameButDeadlines.foldl _ checkChannel_sameDeadlines _ _)).trans
    (SameButDeadlines.foldl _ checkGroup_sameDeadlines _ _)

end

end Sys2Proof.Machine
end

section
/-! PROOF. The end of an event that raises no notice of a class (R171). -/

namespace Sys2Proof.Machine

theorem noticeClass_bit_getLsbD (c d : NoticeClass) : c.bit.getLsbD d.code = decide (d = c) := by
  cases c <;> cases d <;> rfl

/-- R171: a class's flag is set by a notice of its own alone. -/
theorem take_isPending_of_ne (u : NoticeUnit) {n : Notice} {c : NoticeClass} (ne : n.body.cls ≠ c) :
    (u.take n).isPending c = u.isPending c := by
  unfold NoticeUnit.take
  split
  · rfl
  · simp [NoticeUnit.isPending, noticeClass_bit_getLsbD, ne.symm]

theorem foldl_take_isPending_of_ne {ns : List Notice} (u : NoticeUnit) {c : NoticeClass}
    (ne : ∀ n ∈ ns, n.body.cls ≠ c) : (ns.foldl NoticeUnit.take u).isPending c = u.isPending c := by
  induction ns generalizing u with
  | nil => rfl
  | cons n ns ih =>
    rw [List.foldl_cons, ih _ fun m mem => ne m (List.mem_cons_of_mem n mem),
      take_isPending_of_ne u (ne n List.mem_cons_self)]

theorem mem_take_queue {u : NoticeUnit} {n : Notice} {x : QueuedNotice} (mem : x ∈ (u.take n).queue) :
    x ∈ u.queue ∨ x = .notice n := by
  unfold NoticeUnit.take at mem
  split at mem
  · simpa using mem
  · exact .inl mem

/-- R171: what stands in the queue stood in it before or is among the notices taken. -/
theorem mem_foldl_take_queue {ns : List Notice} {u : NoticeUnit} {x : QueuedNotice}
    (mem : x ∈ (ns.foldl NoticeUnit.take u).queue) : x ∈ u.queue ∨ ∃ n ∈ ns, x = .notice n := by
  induction ns generalizing u with
  | nil => exact .inl mem
  | cons n ns ih =>
    rcases ih mem with before | ⟨m, later, e⟩
    · exact (mem_take_queue before).imp_right fun e => ⟨n, List.mem_cons_self, e⟩
    · exact .inr ⟨m, List.mem_cons_of_mem n later, e⟩

theorem mem_of_mem_inClassOrder {ns : List Notice} {n : Notice} (mem : n ∈ inClassOrder ns) : n ∈ ns := by
  simp only [inClassOrder, List.mem_flatMap, List.mem_filter] at mem
  obtain ⟨c, -, mem, -⟩ := mem
  exact mem

section
variable {s : State} {c : NoticeClass} (none_ : ∀ n ∈ s.notices.raised, n.body.cls ≠ c)
include none_

theorem settle_isPending_of_ne : s.settle.notices.isPending c = s.notices.isPending c :=
  foldl_take_isPending_of_ne { s.notices with raised := [] } fun n mem =>
    none_ n (mem_of_mem_inClassOrder mem)

theorem mem_queue_of_mem_settle {n : Notice} (cls : n.body.cls = c)
    (mem : .notice n ∈ s.settle.notices.queue) : .notice n ∈ s.notices.queue := by
  rcases mem_foldl_take_queue mem with before | ⟨m, taken, e⟩
  · exact before
  · obtain rfl : n = m := QueuedNotice.notice.inj e
    exact absurd cls (none_ n (mem_of_mem_inClassOrder taken))

end

/-! ### After the deadlines of a second event -/

section
variable {s t : State} (h : SameButDeadlines s t)
include h

theorem SameButDeadlines.settle_cal : t.settle.cal = s.cal := by
  obtain ⟨gs, rs, q, b, f, ns, -, rfl⟩ := h
  rfl

theorem SameButDeadlines.settle_time : t.settle.time = s.time := by
  obtain ⟨gs, rs, q, b, f, ns, -, rfl⟩ := h
  rfl

theorem SameButDeadlines.settle_banks : t.settle.banks = s.banks := by
  obtain ⟨gs, rs, q, b, f, ns, -, rfl⟩ := h
  rfl

theorem SameButDeadlines.settle_transfer : t.settle.transfer = s.transfer := by
  obtain ⟨gs, rs, q, b, f, ns, -, rfl⟩ := h
  rfl

theorem SameButDeadlines.settle_store : t.settle.store = s.store := by
  obtain ⟨gs, rs, q, b, f, ns, -, rfl⟩ := h
  rfl

/-- R171: what the Calendar Clock and the Profile Banks have raised is reported once the deadlines are taken. -/
theorem SameButDeadlines.settle_reports {n : Notice} (mem : n ∈ s.notices.raised)
    (now : n.uptime = s.cal.uptime) : Reported t.settle n.body := by
  obtain ⟨gs, rs, q, b, f, ns, -, rfl⟩ := h
  exact Machine.settle_reports _ n (List.mem_append_left _ mem) now

/-- The deadlines add nothing to the class CLOCK. -/
theorem SameButDeadlines.clock_quiet (none_ : ∀ n ∈ s.notices.raised, n.body.cls ≠ .clock) :
    t.settle.notices.isPending .clock = s.notices.isPending .clock
      ∧ ∀ n : Notice, n.body.cls = .clock → .notice n ∈ t.settle.notices.queue →
        .notice n ∈ s.notices.queue := by
  obtain ⟨gs, rs, q, b, f, ns, off, e⟩ := h
  have queue : t.notices.queue = s.notices.queue := by rw [e]
  have pending : t.notices.isPending .clock = s.notices.isPending .clock := by rw [e]; rfl
  have none_all : ∀ n ∈ t.notices.raised, n.body.cls ≠ .clock := by
    rw [e]
    exact fun n mem => (List.mem_append.mp mem).elim (none_ n) (off n)
  rw [settle_isPending_of_ne none_all, pending, ← queue]
  exact ⟨rfl, fun n cls mem => mem_queue_of_mem_settle none_all cls mem⟩

end

end Sys2Proof.Machine
end

section
/-! PROOF. The second event at the Calendar Clock (R29), the minute boundary (R30, R31) and the switch (R22, R23). -/

namespace Sys2Proof.Machine

/-! ### The minute -/

/-- The week-minute that the next minute boundary brings. -/
def State.nextMinute (s : State) : Nat := (s.cal.weekMinute + 1) % 10080

/-- R31: the next minute boundary is the midnight crossing that reports the day limit. -/
abbrev State.MeetsDayLimit (s : State) : Prop :=
  s.nextMinute % 1440 = 0 ∧ 65535 ≤ s.cal.day ∧ s.cal.dayLimitReported = false

/-- R31: the notice of the day limit, where it is reported. -/
def State.limitNotices (s : State) : List Notice :=
  if s.MeetsDayLimit then [{ uptime := s.cal.uptime, body := .dayLimit s.nextMinute }] else []

/-- R30, R31: the calendar after a minute boundary. -/
def State.minuteCalendar (s : State) : Calendar := { s.cal with
  weekMinute := s.nextMinute, second := 0
  day := if s.nextMinute % 1440 = 0 ∧ s.cal.day < 65535 then s.cal.day + 1 else s.cal.day
  dayLimitReported := s.cal.dayLimitReported || decide s.MeetsDayLimit }

/-- The card whose week-minute has advanced, before a midnight crossing is looked at. -/
abbrev State.minuteBegun (s : State) : State :=
  { s with cal := { s.cal with weekMinute := s.nextMinute, second := 0 } }

theorem advanceMinute_of_midnight {s : State} (midnight : s.nextMinute % 1440 = 0) :
    s.advanceMinute = s.minuteBegun.crossMidnight s.nextMinute :=
  if_pos midnight

theorem advanceMinute_of_within {s : State} (within : s.nextMinute % 1440 ≠ 0) :
    s.advanceMinute = s.minuteBegun :=
  if_neg within

theorem crossMidnight_of_below {s : State} (w : Nat) (below : s.cal.day < 65535) :
    s.crossMidnight w = { s with cal := { s.cal with day := s.cal.day + 1 } } :=
  if_pos below

theorem crossMidnight_of_reported {s : State} (w : Nat) (top : ¬ s.cal.day < 65535)
    (reported : s.cal.dayLimitReported = true) : s.crossMidnight w = s := by
  rw [State.crossMidnight, if_neg top, if_pos reported]

theorem crossMidnight_of_unreported {s : State} (w : Nat) (top : ¬ s.cal.day < 65535)
    (unreported : ¬ s.cal.dayLimitReported = true) : s.crossMidnight w = { s with
      cal := { s.cal with dayLimitReported := true }
      notices := { s.notices with raised := s.notices.raised
        ++ [{ uptime := s.cal.uptime, body := .dayLimit w }] } } := by
  rw [State.crossMidnight, if_neg top, if_neg unreported]
  rfl

theorem advanceMinute_eq (s : State) : s.advanceMinute = { s with
    cal := s.minuteCalendar
    notices := { s.notices with raised := s.notices.raised ++ s.limitNotices } } := by
  by_cases midnight : s.nextMinute % 1440 = 0
  · rw [advanceMinute_of_midnight midnight]
    by_cases below : s.cal.day < 65535
    · have short : ¬ s.MeetsDayLimit := fun ⟨_, top, _⟩ => absurd below (Nat.not_lt.mpr top)
      rw [crossMidnight_of_below (s := s.minuteBegun) _ below]
      simp [State.minuteCalendar, State.limitNotices, short, midnight, below]
    · by_cases reported : s.cal.dayLimitReported = true
      · have told : ¬ s.MeetsDayLimit := fun ⟨_, _, unreported⟩ => by simp [reported] at unreported
        rw [crossMidnight_of_reported (s := s.minuteBegun) _ below reported]
        simp [State.minuteCalendar, State.limitNotices, told, below]
      · have meets : s.MeetsDayLimit :=
          ⟨midnight, Nat.not_lt.mp below, Bool.eq_false_iff.mpr reported⟩
        rw [crossMidnight_of_unreported (s := s.minuteBegun) _ below reported]
        simp [State.minuteCalendar, State.limitNotices, meets, below]
  · have within : ¬ s.MeetsDayLimit := fun ⟨crossing, _⟩ => midnight crossing
    rw [advanceMinute_of_within midnight]
    simp [State.minuteCalendar, State.limitNotices, within, midnight]

/-! ### The switch -/

theorem armMet_iff (s : State) :
    s.armMet = true ↔ s.banks.arm = .nextMinute ∨ s.banks.arm = .at s.cal.weekMinute := by
  unfold State.armMet
  cases s.banks.arm <;> simp

/-- R23: the banks after the switch. -/
def Banks.switched (b : Banks) : Banks :=
  { b with active := b.shadow, arm := .none, number := (b.number + 1) % 65536 }

/-- R23: the SCHEDULE notice of the switch that a minute boundary brings. -/
def State.switchNotice (s : State) : Notice :=
  { uptime := s.cal.uptime
    body := .switch s.banks.number s.banks.switched.number s.banks.arm s.cal.day s.cal.weekMinute }

theorem takeSwitch_eq (s : State) : s.takeSwitch = { s with
    banks := s.banks.switched, store := saveQueued s.store
    notices := { s.notices with raised := s.notices.raised ++ [s.switchNotice] } } := by
  simp only [State.takeSwitch, queueSave_eq]
  rfl

/-! ### The minute boundary -/

/-- The card at a minute boundary, its calendar advanced and nothing delivered yet. -/
abbrev State.atMinute (s : State) : State := { s with
  cal := s.minuteCalendar
  notices := { s.notices with raised := s.notices.raised ++ s.limitNotices } }

theorem minuteBoundary_of_met {s : State} (met : s.atMinute.armMet = true) : s.minuteBoundary = { s with
    cal := s.minuteCalendar, banks := s.banks.switched, store := saveQueued s.store
    transfer := s.transfer.expire s.cal.uptime
    notices := { s.notices with raised := s.notices.raised ++ s.limitNotices ++ [s.atMinute.switchNotice] } } := by
  unfold State.minuteBoundary
  rw [advanceMinute_eq]
  simp only [if_pos met, takeSwitch_eq]
  rfl

theorem minuteBoundary_of_unmet {s : State} (unmet : ¬ s.atMinute.armMet = true) : s.minuteBoundary = { s with
    cal := s.minuteCalendar, transfer := s.transfer.expire s.cal.uptime
    notices := { s.notices with raised := s.notices.raised ++ s.limitNotices } } := by
  unfold State.minuteBoundary
  rw [advanceMinute_eq]
  simp only [if_neg unmet]
  rfl

theorem minuteBoundary_touches (s : State) : ∃ b st ns, s.minuteBoundary = { s with
    cal := s.minuteCalendar, banks := b, store := st, transfer := s.transfer.expire s.cal.uptime
    notices := { s.notices with raised := s.notices.raised ++ s.limitNotices ++ ns } }
    ∧ ∀ n ∈ ns, n.body.cls ≠ .clock := by
  by_cases met : s.atMinute.armMet = true
  · exact ⟨_, _, [s.atMinute.switchNotice], minuteBoundary_of_met met,
      by simp [State.switchNotice, NoticeBody.cls]⟩
  · exact ⟨s.banks, s.store, [], by rw [minuteBoundary_of_unmet met, List.append_nil], by simp⟩

theorem minuteBoundary_cal (s : State) : s.minuteBoundary.cal = s.minuteCalendar := by
  obtain ⟨b, st, ns, touched, -⟩ := minuteBoundary_touches s
  rw [touched]

theorem minuteBoundary_entries (s : State) :
    s.minuteBoundary.transfer.entries = s.transfer.entries.filter fun e => s.cal.uptime < e.expiry := by
  obtain ⟨b, st, ns, touched, -⟩ := minuteBoundary_touches s
  rw [touched]
  rfl

theorem minuteBoundary_isPending (s : State) (c : NoticeClass) :
    s.minuteBoundary.notices.isPending c = s.notices.isPending c := by
  obtain ⟨b, st, ns, touched, -⟩ := minuteBoundary_touches s
  rw [touched]
  rfl

theorem minuteBoundary_queue (s : State) : s.minuteBoundary.notices.queue = s.notices.queue := by
  obtain ⟨b, st, ns, touched, -⟩ := minuteBoundary_touches s
  rw [touched]

theorem mem_minuteBoundary_of_limit {s : State} (meets : s.MeetsDayLimit) :
    { uptime := s.cal.uptime, body := .dayLimit s.nextMinute } ∈ s.minuteBoundary.notices.raised := by
  obtain ⟨b, st, ns, touched, -⟩ := minuteBoundary_touches s
  rw [touched, State.limitNotices, if_pos meets]
  simp

theorem mem_minuteBoundary_of_met {s : State} (met : s.atMinute.armMet = true) :
    s.atMinute.switchNotice ∈ s.minuteBoundary.notices.raised := by
  rw [minuteBoundary_of_met met]
  simp

/-- R31: short of the day limit a minute boundary raises no notice of the class CLOCK. -/
theorem minuteBoundary_none_clock {s : State} (short : ¬ s.MeetsDayLimit) (none_ : s.notices.raised = []) :
    ∀ n ∈ s.minuteBoundary.notices.raised, n.body.cls ≠ .clock := by
  obtain ⟨b, st, ns, touched, off⟩ := minuteBoundary_touches s
  rw [touched]
  simpa [State.limitNotices, short, none_] using off

/-! ### The minute boundary, once the deadlines are taken -/

section
variable {s u : State} (same : SameButDeadlines s.minuteBoundary u)
include same

theorem SameButDeadlines.minute_cal : u.settle.cal = s.minuteCalendar := by
  rw [same.settle_cal, minuteBoundary_cal]

/-- R171: what is raised at the minute boundary carries the uptime that it leaves. -/
theorem SameButDeadlines.minute_reports {n : Notice} (mem : n ∈ s.minuteBoundary.notices.raised)
    (now : n.uptime = s.cal.uptime) : Reported u.settle n.body :=
  same.settle_reports mem (by rw [now, minuteBoundary_cal]; rfl)

/-- R31: the day limit is reported. -/
theorem SameButDeadlines.minute_of_limit (meets : s.MeetsDayLimit) :
    u.settle.cal.dayLimitReported = true ∧ Reported u.settle (.dayLimit s.nextMinute) := by
  refine ⟨?_, same.minute_reports (mem_minuteBoundary_of_limit meets) rfl⟩
  rw [same.minute_cal]
  simp [State.minuteCalendar, meets]

/-- R31: short of the day limit, or once it has been reported, nothing is reported of it. -/
theorem SameButDeadlines.minute_of_no_limit (short : ¬ s.MeetsDayLimit) (none_ : s.notices.raised = []) :
    u.settle.cal.dayLimitReported = s.cal.dayLimitReported
      ∧ u.settle.notices.isPending .clock = s.notices.isPending .clock
      ∧ ∀ up w, .notice { uptime := up, body := .dayLimit w } ∈ u.settle.notices.queue →
        .notice { uptime := up, body := .dayLimit w } ∈ s.notices.queue := by
  obtain ⟨pending, queue⟩ := same.clock_quiet (minuteBoundary_none_clock short none_)
  rw [minuteBoundary_isPending] at pending
  rw [minuteBoundary_queue] at queue
  refine ⟨?_, pending, fun up w mem => queue _ rfl mem⟩
  rw [same.minute_cal]
  simp [State.minuteCalendar, short]

/-- R22, R23: an arm that is met switches the banks, queues a settings save and is reported. -/
theorem SameButDeadlines.minute_of_met (met : s.atMinute.armMet = true) :
    u.settle.banks = s.banks.switched ∧ u.settle.store = saveQueued s.store
      ∧ Reported u.settle s.atMinute.switchNotice.body := by
  refine ⟨?_, ?_, same.minute_reports (mem_minuteBoundary_of_met met) rfl⟩
  · rw [same.settle_banks, minuteBoundary_of_met met]
  · rw [same.settle_store, minuteBoundary_of_met met]

theorem SameButDeadlines.minute_of_unmet (unmet : ¬ s.atMinute.armMet = true) :
    u.settle.banks = s.banks ∧ u.settle.store = s.store := by
  rw [same.settle_banks, same.settle_store, minuteBoundary_of_unmet unmet]
  exact ⟨rfl, rfl⟩

end

/-! ### The second -/

/-- R29: uptime and the time base after a second event. -/
abbrev State.ticked (s : State) : State := { s with
  time := { seconds := s.time.seconds + 1, ms := 0 }
  cal := { s.cal with uptime := min (s.cal.uptime + 1) 4294967295 } }

theorem advance_of_unset {s : State} (unset : s.cal.state = .unset) : s.advance = s.ticked := by
  simp only [State.advance, State.ticked, unset]

theorem advance_of_second {s : State} (set : s.cal.state = .set) (short : s.cal.second < 59) :
    s.advance = { s.ticked with cal := { s.ticked.cal with second := s.cal.second + 1 } } := by
  simp only [State.advance, set, if_pos short]

theorem advance_of_minute {s : State} (set : s.cal.state = .set) (last : ¬ s.cal.second < 59) :
    s.advance = s.ticked.minuteBoundary := by
  simp only [State.advance, State.ticked, set, if_neg last]

/-- R29: uptime and the time base advance whatever the clock state. -/
theorem advance_uptime_time (s : State) :
    s.advance.cal.uptime = min (s.cal.uptime + 1) 4294967295
      ∧ s.advance.time = { seconds := s.time.seconds + 1, ms := 0 } := by
  cases set : s.cal.state with
  | unset => rw [advance_of_unset set]; exact ⟨rfl, rfl⟩
  | set =>
    by_cases short : s.cal.second < 59
    · rw [advance_of_second set short]; exact ⟨rfl, rfl⟩
    · obtain ⟨b, st, ns, touched, -⟩ := minuteBoundary_touches s.ticked
      rw [advance_of_minute set short, touched]
      exact ⟨rfl, rfl⟩

/-- R29: a second event on a running card: the Calendar Clock's part, then the deadlines. -/
theorem execSecondEvent_of_runs {s : State} (runs : Runs s) :
    ∃ u, exec .secondEvent s = .next u.settle ∧ SameButDeadlines s.advance u := by
  obtain ⟨running, -⟩ := runs
  rw [exec_secondEvent, execSecondEvent, whileRunning_of_running _ _ running]
  exact ⟨_, rfl, checkAll_sameDeadlines _⟩

/-- R30: MINUTE_BOUNDARY is the second event that finds the second at 59. -/
theorem execMinuteBoundary_of_last {s : State} (runs : Runs s) (set : s.cal.state = .set)
    (last : s.cal.second = 59) : exec .minuteBoundary s = exec .secondEvent s := by
  obtain ⟨running, -⟩ := runs
  rw [exec_secondEvent, execSecondEvent, exec_minuteBoundary, execMinuteBoundary,
    whileRunning_of_running _ _ running, whileRunning_of_running _ _ running, if_pos ⟨set, last.ge⟩]

end Sys2Proof.Machine

namespace Sys2Proof

open Machine

/-- Settles O9: MINUTE_BOUNDARY is the second event; what that takes at the calendar, the banks and the Transfer
Table is `minuteBoundary`, which the deadlines leave as it stands. -/
theorem minuteBoundaryIsOneEvent : Obligations.MinuteBoundaryIsOneEvent := by
  unfold Obligations.MinuteBoundaryIsOneEvent
  intro s c row runs set last
  obtain ⟨u, second, same⟩ := execSecondEvent_of_runs runs
  have event : exec c s = .next u.settle := by
    rcases row with rfl | rfl
    · rw [execMinuteBoundary_of_last runs set last, second]
    · exact second
  rw [advance_of_minute set (by omega)] at same
  obtain ⟨-, none_raised⟩ := runs
  have cal : u.settle.cal = s.ticked.minuteCalendar := same.minute_cal
  have week : u.settle.cal.weekMinute = s.ticked.nextMinute := by rw [cal]; rfl
  have met_iff := armMet_iff s.ticked.atMinute
  refine ⟨u.settle, event, ?_⟩
  simp only [week]
  refine ⟨by rw [cal]; rfl, rfl, by rw [cal]; rfl, fun midnight top unreported => ?_, fun no_limit => ?_,
    fun met => ?_, fun not_next not_at => ?_, ?_⟩
  · exact same.minute_of_limit ⟨midnight, top, unreported⟩
  · refine same.minute_of_no_limit (fun ⟨midnight, top, unreported⟩ => ?_) none_raised
    rcases no_limit with within | below | reported
    · exact within midnight
    · exact absurd below (Nat.not_lt.mpr top)
    · exact absurd reported (Bool.eq_false_iff.mp unreported)
  · obtain ⟨banks, store, report⟩ := same.minute_of_met (met_iff.mpr met)
    refine ⟨banks, store, ?_⟩
    have day : u.settle.cal.day = s.ticked.atMinute.cal.day := by rw [cal]
    rw [banks, day]
    exact report
  · exact same.minute_of_unmet fun met => (met_iff.mp met).elim not_next not_at
  · rw [same.settle_transfer, minuteBoundary_entries, cal]
    rfl

/-- Settles O8: the deadlines leave the calendar, the banks and the Transfer Table, so that these are as the
Calendar Clock's part of the event has them. -/
theorem secondEventAdvancesTheClock : Obligations.SecondEventAdvancesTheClock := by
  unfold Obligations.SecondEventAdvancesTheClock
  intro s runs
  obtain ⟨u, second, same⟩ := execSecondEvent_of_runs runs
  obtain ⟨uptime, time⟩ := advance_uptime_time s
  refine ⟨u.settle, second, ?_, ?_, fun unset => ?_, fun set short => ?_⟩
  · rw [same.settle_cal, uptime]
  · rw [same.settle_time, time]
  · rw [same.settle_cal, same.settle_banks, same.settle_transfer, advance_of_unset unset]
    exact ⟨rfl, rfl, rfl⟩
  · rw [same.settle_cal, same.settle_banks, same.settle_transfer, advance_of_second set short]
    exact ⟨rfl, rfl, rfl⟩

end Sys2Proof
end

section
/-! PROOF. RECORD READ and DIRECTORY SCAN (R51 to R53): the request waits in hand for the read it has placed. -/

namespace Sys2Proof.Machine

/-- R60: a request that joins the priority queue leaves the tower as it is. -/
theorem placePrio_sameTower (s : State) (e : PrioEntry) (p : Port) :
    SameTower s { s.placePrio e with site := p } := by
  obtain ⟨op, capped, touched⟩ := placePrio_touches s e
  rw [touched]
  exact ⟨rfl, rfl, rfl, rfl, rfl, rfl, rfl, rfl, rfl, rfl, rfl⟩

theorem placePrio_sameNonvolatile (s : State) (e : PrioEntry) (p : Port) :
    SameStore s { s.placePrio e with site := p } := by
  obtain ⟨op, capped, touched⟩ := placePrio_touches s e
  rw [touched]
  exact ⟨rfl, rfl, rfl, rfl, rfl, rfl, rfl, rfl, rfl, rfl⟩

@[simp] theorem placePrio_prio (s : State) (e : PrioEntry) :
    (s.placePrio e).store.prio = s.store.prio ++ [e] := by
  obtain ⟨op, capped, touched⟩ := placePrio_touches s e
  rw [touched]

@[simp] theorem placePrio_notices (s : State) (e : PrioEntry) : (s.placePrio e).notices = s.notices := (rfl)

/-- R162: a request taken that waits for its read, which changes nothing beside the priority queue. -/
def WaitsForRead (s : State) (c : Instr) (f : SiteFrame) (e : PrioEntry) (w : PortWait) : Prop :=
  ∃ t, exec c s = .next t
    ∧ t = { s.placePrio e with site := { portTaken s.site with inHand := some { frame := f, wait := w } } }
    ∧ SameTower s t ∧ SameStore s t ∧ t.store.prio = s.store.prio ++ [e]

theorem waitsForRead_of_owner {s : State} {c : Instr} {r : Req} {type : Byte} {fits : Bool}
    {owner : SiteFrame → State → State} {e : PrioEntry} {w : PortWait}
    (meaning : exec c s = siteRequest type r false fits owner s)
    (ready : PortOpen s { type := type, req := r }) (fit : fits = true)
    (carried : owner { type := type, req := r } (taken s)
      = ((taken s).setInHand { type := type, req := r } w).placePrio e) :
    WaitsForRead s c { type := type, req := r } e w := by
  refine ⟨_, ?_, rfl, placePrio_sameTower s e _, placePrio_sameNonvolatile s e _, placePrio_prio s e⟩
  have quiet : s.notices.raised = [] := none_raised_of_portOpen ready
  rw [meaning, fit, siteRequest_owner _ _ _ _ _ ready, carried]
  exact congrArg Host.Outcome.next
    (settle_of_none_raised (((taken s).setInHand _ w).placePrio e) quiet)

end Sys2Proof.Machine

namespace Sys2Proof

open Machine

/-- Settles O37: the refusals and the waiting reads, each from what the owner makes of the request taken. -/
theorem directoryReadsWaitForTheStore : Obligations.DirectoryReadsWaitForTheStore := by
  unfold Obligations.DirectoryReadsWaitForTheStore
  intro s r
  have record := exec_recordRead r s
  have scan := exec_directoryScan r s
  unfold execRecordRead at record
  unfold execDirectoryScan at scan
  refine ⟨fun ready length => ?_, fun ready length => ?_⟩
  all_goals have fit := hasLength_of_eq length
  · refine ⟨fun zero => ?_, fun badge unusable => ?_, fun badge usable => ?_⟩
    · exact refuses_of_owner record ready fit (if_pos zero)
    · exact refuses_of_owner record ready fit ((if_neg badge).trans (if_pos unusable))
    · exact waitsForRead_of_owner record ready fit
        ((if_neg badge).trans (if_neg (by rw [usable]; decide)))
  · refine ⟨fun unusable => ?_, fun usable zero none_ => ?_, fun k usable zero cursor => ?_, fun usable badge => ?_⟩
    · exact refuses_of_owner scan ready fit (if_pos unusable)
    all_goals have readable : (taken s).dir.condition ≠ .unusable := by rw [usable]; decide
    · exact refuses_of_owner scan ready fit (by simp [usable, zero, none_, State.refuse])
    · exact waitsForRead_of_owner scan ready fit (by simp [usable, zero, cursor, State.beginScan])
    · exact waitsForRead_of_owner scan ready fit ((if_neg readable).trans (if_neg badge))

end Sys2Proof
end

section
/-! PROOF. The event that serves the head of the priority queue (R60), and what is kept of a page read for it
(R44). -/

namespace Sys2Proof.Machine

/-- R60: the card in which the head of the priority queue has been taken, `rest` being what follows it. -/
abbrev State.servedTo (s : State) (rest : List PrioEntry) : State :=
  { s with store := { s.store with prio := rest } }

section
variable {s : State} {e : PrioEntry} {rest : List PrioEntry} (h : Serves s e rest)
include h

theorem Serves.dropPrio : s.dropPrio = s.servedTo rest := by
  obtain ⟨-, -, prio⟩ := h
  simp only [State.dropPrio, State.mapStore, prio, List.tail_cons]

theorem Serves.nextPrio : s.store.nextPrio = some e := by
  obtain ⟨-, free, prio⟩ := h
  rw [Store.nextPrio, if_pos free, prio, List.head?_cons]

theorem Serves.running : s.power = .running := by
  obtain ⟨⟨running, -⟩, -⟩ := h
  exact running

end

/-- R157: the detail STORE_FAULT was last raised with. -/
@[simp] theorem raiseFault_storeDetail (s : State) (d : Nat) :
    (s.raiseFault .storeFault d).faults.storeDetail = d := by
  rw [raiseFault_faults]; rfl

/-! ### What the array's next operation keeps -/

section
variable (s : State)

theorem arbitrate_eq : ∃ st, s.arbitrate = { s with store := st } := by
  obtain ⟨op, ps, sts, eq, touched⟩ := arbitrate_touches s
  exact ⟨_, touched⟩

@[simp] theorem arbitrate_faults : s.arbitrate.faults = s.faults := by
  obtain ⟨st, eq⟩ := arbitrate_eq s
  rw [eq]

@[simp] theorem arbitrate_notices : s.arbitrate.notices = s.notices := by
  obtain ⟨st, eq⟩ := arbitrate_eq s
  rw [eq]

@[simp] theorem arbitrate_cal : s.arbitrate.cal = s.cal := by
  obtain ⟨st, eq⟩ := arbitrate_eq s
  rw [eq]

@[simp] theorem arbitrate_date : s.arbitrate.date = s.date := by
  simp only [State.date, arbitrate_cal]

end

/-! ### A fault raised in an event -/

/-- R173: what stands of a raising `(k, d)` of the event that began in `s`: the status, and the notice among
those raised unless the kind is masked. -/
structure Raised (s u : State) (k : FaultKind) (d : Nat) : Prop where
  set : u.faults.isSet k = true
  notice : s.faults.masked k = false →
    { uptime := u.cal.uptime, body := .faultRaised k (s.faults.major k) d (s.faults.isSet k) u.date }
      ∈ u.notices.raised

section
variable {s u v : State} {k : FaultKind} {d : Nat}

theorem raiseFault_raised (s : State) (k : FaultKind) (d : Nat) : Raised s (s.raiseFault k d) k d where
  set := raiseFault_isSet s k d
  notice unmasked := by
    obtain ⟨f, ns, touched⟩ := raiseFault_touches s k d
    have cal : (s.raiseFault k d).cal = s.cal := by rw [touched]
    rw [State.date, cal, ← State.date]
    exact mem_raiseFault s k d unmasked

/-- A raising stands while the statuses only grow and the notices raised stay. -/
theorem Raised.mono (h : Raised s u k d) (set : u.faults.isSet k = true → v.faults.isSet k = true)
    (cal : v.cal = u.cal) (kept : ∀ n ∈ u.notices.raised, n ∈ v.notices.raised) : Raised s v k d where
  set := set h.set
  notice unmasked := by
    rw [State.date, cal, ← State.date]
    exact kept _ (h.notice unmasked)

/-- The raising speaks of the Fault Unit as the event found it. -/
theorem Raised.since {s' : State} (h : Raised s u k d) (faults : s'.faults = s.faults) : Raised s' u k d where
  set := h.set
  notice := by rw [faults]; exact h.notice

/-- R171, R173: at the end of the event the raising is reported. -/
theorem Raised.settle (h : Raised s u k d) : Raises s u.settle k d :=
  settle_raises s u k d h.set h.notice

theorem Raised.arbitrate (h : Raised s u k d) : Raises s u.arbitrate.settle k d :=
  (h.mono (v := u.arbitrate) (by simp) (by simp) (by simp)).settle

end

end Sys2Proof.Machine
end

section
/-! PROOF. Trip marks (R46 to R49): the record, the page and the copies that a mark request marks. -/

namespace Sys2Proof.Machine

/-! ### A record's next slot -/

theorem countP_range_lt (n k : Nat) : (List.range n).countP (fun i => decide (i < k)) = min n k := by
  induction n with
  | zero => simp
  | succ n ih =>
    rw [List.range_succ, List.countP_append, ih]
    by_cases lt : n < k
    · simp [lt]; omega
    · simp [lt]; omega

/-- R46: slots marked in order from the first count as many marks as there are. -/
theorem marks_of_slots {r : Record} {k : Nat} (budget : r.budget.isSome = true) (le : k ≤ 32)
    (slots : ∀ i, r.slots.getLsbD i = true ↔ i < k) : r.marks = k := by
  have same : (fun i => r.slots.getLsbD i) = fun i => decide (i < k) :=
    funext fun i => by rw [Bool.eq_iff_iff, slots i, decide_eq_true_iff]
  rw [Record.marks, if_pos budget, same, countP_range_lt]
  omega

theorem mark_of_left {r : Record} {n : Nat} (budget : r.budget = some n) (left : r.marks < n) :
    r.mark = { r with slots := r.slots ||| (1#32 <<< r.marks) } := by
  rw [Record.mark, budget]
  exact if_pos left

theorem mark_of_untaken {r : Record} (untaken : ∀ n, r.budget = some n → n ≤ r.marks) : r.mark = r := by
  cases budget : r.budget with
  | none => rw [Record.mark, budget]
  | some n => exact mark_of_spent r n budget (untaken n budget)

/-- R46: what marking makes of a record `r` of a page: the next slot of the badge's own record is set while its
budget lasts, and every other record stays. -/
def MarksOne (b : Badge) (r q : Record) : Prop :=
  q = { r with slots := q.slots } ∧ (r.badge ≠ b → q = r)
  ∧ (r.badge = b → (∀ n, r.budget = some n → n ≤ r.marks) → q = r)
  ∧ ∀ n, r.badge = b → r.budget = some n → r.marks < n →
    q.slots = r.slots ||| (1#32 <<< r.marks)
    ∧ (n ≤ 32 → (∀ i, r.slots.getLsbD i = true ↔ i < r.marks) →
        q.marks = r.marks + 1 ∧ ∀ i, q.slots.getLsbD i = true ↔ i < r.marks + 1)

theorem mark_marksOne (b : Badge) (r : Record) : MarksOne b r (if r.badge == b then r.mark else r) := by
  by_cases own : r.badge = b
  · rw [if_pos (by simpa using own)]
    obtain ⟨slots, marked⟩ := mark_touches r
    refine ⟨by rw [marked], fun other => absurd own other, fun _ => mark_of_untaken, fun n _ budget left => ?_⟩
    rw [mark_of_left budget left]
    refine ⟨rfl, fun top filled => ?_⟩
    have bits : ∀ i, (r.slots ||| 1#32 <<< r.marks).getLsbD i = true ↔ i < r.marks + 1 := fun i => by
      simp only [BitVec.getLsbD_or, Bool.or_eq_true, filled, BitVec.getLsbD_shiftLeft, BitVec.getLsbD_one,
        Bool.and_eq_true, decide_eq_true_iff, Bool.not_eq_true', decide_eq_false_iff_not]
      omega
    exact ⟨marks_of_slots (by simp [budget]) (by omega) bits, bits⟩
  · rw [if_neg (by simpa using own)]
    exact ⟨rfl, fun _ => rfl, fun own' => absurd own' own, fun n own' => absurd own' own⟩

/-! ### A page -/

/-- R48: what marking makes of a page. -/
def MarksPage (b : Badge) (before after : DirPage) : Prop :=
  after.retired = before.retired
  ∧ ∀ y, before.contents = .programmed y → ∃ z, after.contents = .programmed z
    ∧ z = { y with records := z.records } ∧ z.records.length = y.records.length
    ∧ ∀ (i : Nat) (r q : Record), y.records[i]? = some r → z.records[i]? = some q → MarksOne b r q

theorem contents_mark_marksPage (b : Badge) (d : DirPage) :
    MarksPage b d { d with contents := d.contents.mark b } := by
  refine ⟨rfl, fun y held => ⟨{ y with records := y.records.map fun r => if r.badge == b then r.mark else r },
    by rw [held]; rfl, rfl, List.length_map _, fun i r q before after => ?_⟩⟩
  rw [List.getElem?_map, before] at after
  obtain rfl := Option.some.inj after
  exact mark_marksOne b r

section
variable (st : Store) (b : Badge)

theorem markPage_page (p : Page) :
    (st.markPage b p).page p = { st.page p with contents := (st.page p).contents.mark b } := by
  rw [Store.markPage]
  exact page_setPage _ _ _

theorem markPage_page_of_ne {p q : Page} (ne : q ≠ p) : (st.markPage b p).page q = st.page q :=
  page_setPage_of_ne _ _ _ _ ne

/-- Marking pages in turn changes the pages alone. -/
theorem markPages_touches (ps : List Page) :
    ∃ pages, ps.foldl (fun st p => st.markPage b p) st = { st with pages := pages } := by
  induction ps generalizing st with
  | nil => exact ⟨_, rfl⟩
  | cons p ps ih =>
    obtain ⟨pages, touched⟩ := ih (st.markPage b p)
    exact ⟨pages, by rw [List.foldl_cons, touched]; rfl⟩

theorem markPages_page_of_not_mem {ps : List Page} {q : Page} (out : q ∉ ps) :
    (ps.foldl (fun st p => st.markPage b p) st).page q = st.page q := by
  induction ps generalizing st with
  | nil => rfl
  | cons p ps ih =>
    obtain ⟨ne, out⟩ := not_or.mp (List.mem_cons.not.mp out)
    rw [List.foldl_cons, ih _ out, markPage_page_of_ne st b ne]

/-- R48: each page named once is marked once. -/
theorem markPages_page_of_mem {ps : List Page} {q : Page} (nodup : ps.Nodup) (mem : q ∈ ps) :
    (ps.foldl (fun st p => st.markPage b p) st).page q
      = { st.page q with contents := (st.page q).contents.mark b } := by
  induction ps generalizing st with
  | nil => exact absurd mem List.not_mem_nil
  | cons p ps ih =>
    obtain ⟨out, nodup⟩ := List.nodup_cons.mp nodup
    rw [List.foldl_cons]
    rcases List.mem_cons.mp mem with rfl | mem
    · rw [markPages_page_of_not_mem _ _ out, markPage_page]
    · have ne : q ≠ p := fun e => out (e ▸ mem)
      rw [ih _ nodup mem, markPage_page_of_ne st b ne]

/-- R49: the programmed copies that carry a record on without an edit of its own. -/
theorem mem_markedCopies_iff (p : Page) : p ∈ st.markedCopies b ↔
    ∃ w c, st.work = some w ∧ c ∈ w.copies ∧ c.page = some p
      ∧ ∃ pr ∈ c.records, pr.badge = b ∧ pr.fresh = none := by
  cases running : st.work with
  | none => simp [Store.markedCopies, running]
  | some w =>
    have carries (c : Copy) : (c.records.any fun r => r.badge == b && r.fresh.isNone) = true ↔
        ∃ pr ∈ c.records, pr.badge = b ∧ pr.fresh = none := by
      simp [List.any_eq_true]
    simp only [Store.markedCopies, running, List.mem_filterMap]
    constructor
    · rintro ⟨c, mem, page⟩
      split at page
      · rename_i carried
        exact ⟨w, c, rfl, mem, page, (carries c).mp carried⟩
      · cases page
    · rintro ⟨w', c, e, mem, page, carried⟩
      obtain rfl := Option.some.inj e
      exact ⟨c, mem, by rw [if_pos ((carries c).mpr carried), page]⟩

end

/-! ### A mark request -/

section
variable {s : State} {b : Badge}

/-- R48: the request is counted as not taken. -/
abbrev State.notTaken (s : State) : State :=
  s.mapDir fun d => { d with marksNotTaken := hold16 (d.marksNotTaken + 1) }

theorem serveMark_of_no_targets {u : State} (h : s.markTargets b = (u, none)) :
    s.serveMark b = u.notTaken := by
  simp only [State.serveMark, h]

theorem serveMark_of_targets {u : State} {ps : List Page} (h : s.markTargets b = (u, some ps)) :
    s.serveMark b = (u.mapStore fun st => ps.foldl (fun st p => st.markPage b p) st).mapDir fun d =>
      { d with marksTaken := hold16 (d.marksTaken + 1) } := by
  simp only [State.serveMark, h]

theorem serveMark_of_unusable (unusable : s.dir.condition = .unusable) : s.serveMark b = s.notTaken :=
  serveMark_of_no_targets (by rw [State.markTargets, if_pos unusable])

variable {e : IndexEntry} (usable : s.dir.condition = .usable) (entry : s.dir.entryFor b = some e)
include usable entry

theorem serveMark_of_unread (unread : s.store.readPage e = none) :
    s.serveMark b = (s.raiseFault .storeFault e.page.val).notTaken :=
  serveMark_of_no_targets (by simp [State.markTargets, usable, entry, readFor_of_none s e unread])

variable {rs : List Record} (read : s.store.readPage e = some rs)
include read

theorem serveMark_of_unbudgeted (none_ : ∀ x, recordOf b rs = some x → x.budget = none) :
    s.serveMark b = s.notTaken := by
  refine serveMark_of_no_targets ?_
  simp only [State.markTargets, usable, entry, readFor_of_some s e rs read, reduceCtorEq, if_false]
  cases found : recordOf b rs with
  | none => rfl
  | some x => simp only [none_ x found]

variable {x : Record} {n : Nat} (found : recordOf b rs = some x) (budget : x.budget = some n)
include found budget

theorem serveMark_of_spent (spent : n ≤ x.marks) : s.serveMark b = s.notTaken := by
  refine serveMark_of_no_targets ?_
  simp only [State.markTargets, usable, entry, readFor_of_some s e rs read, found, budget, reduceCtorEq, if_false]
  exact if_neg (by omega)

theorem serveMark_of_left (left : x.marks < n) :
    s.serveMark b = (s.mapStore fun st =>
      (e.page :: s.store.markedCopies b).foldl (fun st p => st.markPage b p) st).mapDir fun d =>
        { d with marksTaken := hold16 (d.marksTaken + 1) } := by
  refine serveMark_of_targets ?_
  simp only [State.markTargets, usable, entry, readFor_of_some s e rs read, found, budget, reduceCtorEq, if_false]
  exact if_pos left

end

/-- R46: a mark request leaves the priority queue and the page states. -/
theorem serveMark_keeps (s : State) (b : Badge) :
    (s.serveMark b).store.prio = s.store.prio ∧ (s.serveMark b).store.pageState = s.store.pageState := by
  have targets : (s.markTargets b).1.store = s.store := by
    unfold State.markTargets
    split
    · rfl
    · split
      · rfl
      · rename_i e _
        have read : (s.readFor e).1.store = s.store := by
          obtain ⟨f, ns, touched⟩ := readFor_touches s e
          rw [touched]
        split <;> rename_i eq <;> rw [eq] at read
        · exact read
        · repeat' split
          all_goals exact read
  cases served : s.markTargets b with
  | mk u ps =>
    rw [served] at targets
    cases ps with
    | none => rw [serveMark_of_no_targets served, mapDir_store, targets]; exact ⟨rfl, rfl⟩
    | some ps =>
      obtain ⟨pages, touched⟩ := markPages_touches u.store b ps
      rw [serveMark_of_targets served, mapDir_store, mapStore_store, touched, targets]
      exact ⟨rfl, rfl⟩

theorem execTripMark_of_serves {s : State} {b : Badge} {rest : List PrioEntry} (h : Serves s (.mark b) rest) :
    ThenArray .tripMark s ((s.servedTo rest).serveMark b) := by
  rw [ThenArray, exec_tripMark, execTripMark, whileRunning_of_running _ _ h.running]
  simp only [h.nextPrio, h.dropPrio]

end Sys2Proof.Machine

namespace Sys2Proof

open Machine

/-- Settles O46: the cases of a mark request as it is served. -/
theorem tripMarkMarksEveryCopy : Obligations.TripMarkMarksEveryCopy := by
  unfold Obligations.TripMarkMarksEveryCopy
  intro s rest b serves
  let now := s.servedTo rest
  obtain ⟨prio, states⟩ := serveMark_keeps now b
  refine ⟨mem_markedCopies_iff s.store b, _, execTripMark_of_serves serves, prio, states,
    fun e rs x n usable entry read found budget => ⟨fun left nodup => ?_, fun spent => ?_⟩,
    fun e usable entry unread => ?_, fun untaken => ?_⟩
  · rw [serveMark_of_left (s := now) usable entry read found budget left]
    refine ⟨rfl, fun p mem => ?_, fun p out => markPages_page_of_not_mem now.store b out⟩
    have page := markPages_page_of_mem now.store b nodup mem
    exact page ▸ contents_mark_marksPage b (s.store.page p)
  · rw [serveMark_of_spent (s := now) usable entry read found budget spent]
    exact ⟨rfl, rfl⟩
  · obtain ⟨f, ns, touched⟩ := raiseFault_touches now .storeFault e.page.val
    have raised : Raised s (now.raiseFault .storeFault e.page.val).notTaken .storeFault e.page.val :=
      ((raiseFault_raised now .storeFault e.page.val).since (s' := s) rfl).mono id rfl fun _ => id
    rw [serveMark_of_unread (s := now) usable entry unread]
    refine ⟨?_, ?_, raised.arbitrate, raiseFault_storeDetail now _, fun first => ?_⟩
    · rw [touched]; rfl
    · rw [touched]; rfl
    · exact ⟨_, raiseFault_first now .storeFault e.page.val first, rfl, rfl⟩
  · have quiet : now.serveMark b = now.notTaken := by
      by_cases unusable : s.dir.condition = .unusable
      · exact serveMark_of_unusable unusable
      · have usable : s.dir.condition = .usable := by
          cases condition : s.dir.condition with
          | usable => rfl
          | unusable => exact absurd condition unusable
        obtain ⟨e, rs, entry, read, none_⟩ := untaken.resolve_left unusable
        exact serveMark_of_unbudgeted (s := now) usable entry read none_
    rw [quiet]
    exact ⟨rfl, rfl⟩

end Sys2Proof
end

section
/-! PROOF. Ranges of badge numbers (R41): ranges that follow one another without a gap, cut, joined and put in
order. -/

namespace Sys2Proof.Machine

/-- The ranges follow one another, the first from `low` on and the last up to `next`, which it leaves out. -/
def Spans : Nat → List (Nat × Nat) → Nat → Prop
  | low, [], next => low = next
  | low, r :: rest, next => r.1 = low ∧ r.1 ≤ r.2 ∧ Spans (r.2 + 1) rest next

theorem tiles_iff_spans {low : Nat} {rs : List (Nat × Nat)} :
    tiles low rs = true ↔ Spans low rs (topBadge + 1) := by
  induction rs generalizing low with
  | nil => simp [tiles, Spans]
  | cons r rs ih => simp [tiles, Spans, ih, and_assoc]

theorem spans_append {low next : Nat} {xs ys : List (Nat × Nat)} :
    Spans low (xs ++ ys) next ↔ ∃ mid, Spans low xs mid ∧ Spans mid ys next := by
  induction xs generalizing low with
  | nil => simp [Spans]
  | cons x xs ih => simp [Spans, ih, and_assoc]

theorem spans_singleton {low high : Nat} (le : low ≤ high) : Spans low [(low, high)] (high + 1) :=
  ⟨rfl, le, rfl⟩

section
variable {low next : Nat} {rs : List (Nat × Nat)}

theorem Spans.le (h : Spans low rs next) : low ≤ next := by
  induction rs generalizing low with
  | nil => exact Nat.le_of_eq h
  | cons r rs ih =>
    obtain ⟨first, ordered, rest⟩ := h
    have := ih rest
    omega

theorem Spans.bounds (h : Spans low rs next) {r : Nat × Nat} (mem : r ∈ rs) :
    low ≤ r.1 ∧ r.1 ≤ r.2 ∧ r.2 < next := by
  induction rs generalizing low with
  | nil => exact absurd mem List.not_mem_nil
  | cons a rs ih =>
    obtain ⟨first, ordered, rest⟩ := h
    rcases List.mem_cons.mp mem with rfl | mem
    · have := rest.le
      omega
    · have := ih rest mem
      omega

theorem Spans.apart (h : Spans low rs next) : rs.Pairwise fun a b => a.2 < b.1 := by
  induction rs generalizing low with
  | nil => exact List.Pairwise.nil
  | cons a rs ih =>
    obtain ⟨first, ordered, rest⟩ := h
    refine List.pairwise_cons.mpr ⟨fun b mem => ?_, ih rest⟩
    have := rest.bounds mem
    omega

theorem Spans.ascending (h : Spans low rs next) : rs.Pairwise fun a b => a.1 < b.1 := by
  refine h.apart.imp_of_mem fun {a b} mem _ lt => ?_
  have := h.bounds mem
  omega

theorem Spans.nodup (h : Spans low rs next) : rs.Nodup :=
  h.ascending.imp fun lt e => absurd (congrArg Prod.fst e) (Nat.ne_of_lt lt)

/-- Ranges cut into pieces follow one another as the whole ones did. -/
theorem Spans.flatMap {α : Type} {as : List α} {range : α → Nat × Nat} {pieces : α → List (Nat × Nat)}
    (h : Spans low (as.map range) next)
    (cut : ∀ a ∈ as, Spans (range a).1 (pieces a) ((range a).2 + 1)) : Spans low (as.flatMap pieces) next := by
  induction as generalizing low with
  | nil => exact h
  | cons a as ih =>
    obtain ⟨first, -, rest⟩ := h
    rw [List.flatMap_cons]
    exact spans_append.mpr ⟨_, first ▸ cut a List.mem_cons_self,
      ih rest fun b mem => cut b (List.mem_cons_of_mem a mem)⟩

end

/-- Ranges that partition the badge numbers lie within them. -/
theorem partition_bounds {rs : List (Nat × Nat)} (h : Partition rs) {r : Nat × Nat} (mem : r ∈ rs) :
    1 ≤ r.1 ∧ r.1 ≤ r.2 ∧ r.2 ≤ topBadge := by
  obtain ⟨l, perm, tiled⟩ := h
  have := (tiles_iff_spans.mp tiled).bounds (perm.mem_iff.mpr mem)
  omega

theorem Partition.perm {rs ts : List (Nat × Nat)} (h : Partition rs) (perm : rs.Perm ts) : Partition ts := by
  obtain ⟨l, same, tiled⟩ := h
  exact ⟨l, same.trans perm, tiled⟩

/-- R41: ranges in the order of their low bounds that partition the badge numbers follow one another. -/
theorem tiles_of_partition {rs : List (Nat × Nat)} (h : Partition rs)
    (ordered : rs.Pairwise fun a b => a.1 ≤ b.1) : tiles 1 rs = true := by
  obtain ⟨l, perm, tiled⟩ := h
  have spans := tiles_iff_spans.mp tiled
  have ascending : l.Pairwise fun a b => a.1 ≤ b.1 := spans.ascending.imp Nat.le_of_lt
  have firsts : (l.map Prod.fst).Nodup := List.pairwise_map.mpr (spans.ascending.imp Nat.ne_of_lt)
  have same : l = rs := List.Perm.eq_of_pairwise (fun a b ha hb ab ba =>
    List.inj_on_of_nodup_map firsts ha (perm.mem_iff.mpr hb) (Nat.le_antisymm ab ba)) ascending ordered perm
  exact same ▸ tiled

end Sys2Proof.Machine
end

section
/-! PROOF. Plans (R87) and layouts (R75): the ranges of the new copies take the place of those of the pages they
replace, and no copy has more than 64 records. -/

namespace Sys2Proof.Machine

/-! ### Records in badge order -/

/-- R40: records in ascending order of badge, within bounds. -/
theorem orderedWithin_iff {low high : Nat} {rs : List Record} : orderedWithin low high rs = true ↔
    rs.Pairwise (fun a b => a.badge < b.badge) ∧ ∀ r ∈ rs, low ≤ r.badge ∧ r.badge ≤ high := by
  induction rs generalizing low with
  | nil => simp [orderedWithin]
  | cons r rs ih =>
    simp only [orderedWithin, Bool.and_eq_true, decide_eq_true_iff, ih, List.pairwise_cons, List.forall_mem_cons]
    constructor
    · rintro ⟨⟨above, below⟩, ordered, within⟩
      exact ⟨⟨fun b mem => (within b mem).1, ordered⟩, ⟨above, below⟩,
        fun b mem => ⟨Nat.le_trans above (Nat.le_of_succ_le (within b mem).1), (within b mem).2⟩⟩
    · rintro ⟨⟨after, ordered⟩, ⟨above, below⟩, within⟩
      exact ⟨⟨above, below⟩, ordered, fun b mem => ⟨after b mem, (within b mem).2⟩⟩

/-- Records of a plan in ascending order of badge, within bounds. -/
def InOrder (low high : Nat) (rs : List PlanRecord) : Prop :=
  rs.Pairwise (fun a b => a.badge < b.badge) ∧ ∀ r ∈ rs, low ≤ r.badge ∧ r.badge ≤ high

theorem inOrder_carried {low high : Nat} {rs : List Record} (h : orderedWithin low high rs = true) :
    InOrder low high (rs.map PlanRecord.carried) := by
  obtain ⟨ordered, within⟩ := orderedWithin_iff.mp h
  exact ⟨List.pairwise_map.mpr ordered, List.forall_mem_map.mpr within⟩

theorem insertRecord_perm (r : PlanRecord) (rs : List PlanRecord) : (insertRecord r rs).Perm (r :: rs) := by
  induction rs with
  | nil => exact List.Perm.refl _
  | cons a rs ih =>
    unfold insertRecord
    split
    · exact List.Perm.refl _
    · exact (ih.cons a).trans (List.Perm.swap r a rs)

theorem insertRecord_ascending {r : PlanRecord} {rs : List PlanRecord}
    (ordered : rs.Pairwise fun a b => a.badge < b.badge) (other : ∀ a ∈ rs, a.badge ≠ r.badge) :
    (insertRecord r rs).Pairwise fun a b => a.badge < b.badge := by
  induction rs with
  | nil => exact List.pairwise_singleton _ _
  | cons a rs ih =>
    obtain ⟨after, tail⟩ := List.pairwise_cons.mp ordered
    unfold insertRecord
    split
    · rename_i lt
      exact List.pairwise_cons.mpr ⟨fun b mem => (List.mem_cons.mp mem).elim (fun e => e ▸ lt)
        fun mem => Nat.lt_trans lt (after b mem), ordered⟩
    · rename_i ge
      refine List.pairwise_cons.mpr ⟨fun b mem => ?_, ih tail fun b mem => other b (List.mem_cons_of_mem a mem)⟩
      rcases List.mem_cons.mp ((insertRecord_perm r rs).mem_iff.mp mem) with rfl | mem
      · exact Nat.lt_of_le_of_ne (Nat.le_of_not_lt ge) (other a List.mem_cons_self)
      · exact after b mem

/-! ### A page's row (R87, steps 3 and 4) -/

/-- One edit of a page's range keeps its records in order. -/
theorem applyEdit_inOrder {low high : Nat} {rs : List PlanRecord} {e : Edit} (h : InOrder low high rs)
    (inside : low ≤ e.badge ∧ e.badge ≤ high) : InOrder low high (applyEdit rs e) := by
  obtain ⟨ordered, within⟩ := h
  have others : (rs.filter fun r => r.badge != e.badge).Pairwise fun a b => a.badge < b.badge := ordered.filter _
  unfold applyEdit
  dsimp only
  split
  · refine ⟨insertRecord_ascending others fun a mem => by simpa using (List.mem_filter.mp mem).2, fun a mem => ?_⟩
    rcases List.mem_cons.mp ((insertRecord_perm _ _).mem_iff.mp mem) with rfl | mem
    · exact inside
    · exact within a (List.mem_of_mem_filter mem)
  · exact ⟨others, fun a mem => within a (List.mem_of_mem_filter mem)⟩

theorem length_applyEdit_le (rs : List PlanRecord) (e : Edit) : (applyEdit rs e).length ≤ rs.length + 1 := by
  have others := List.length_filter_le (fun r : PlanRecord => r.badge != e.badge) rs
  unfold applyEdit
  dsimp only
  split
  · rw [(insertRecord_perm _ _).length_eq, List.length_cons]
    omega
  · omega

theorem length_foldl_applyEdit_le (edits : List Edit) (rs : List PlanRecord) :
    (edits.foldl applyEdit rs).length ≤ rs.length + edits.length := by
  induction edits generalizing rs with
  | nil => exact Nat.le_refl _
  | cons e edits ih =>
    have := length_applyEdit_le rs e
    have := ih (applyEdit rs e)
    rw [List.foldl_cons, List.length_cons]
    omega

theorem foldl_applyEdit_inOrder {low high : Nat} {edits : List Edit} {rs : List PlanRecord}
    (h : InOrder low high rs) (inside : ∀ e ∈ edits, low ≤ e.badge ∧ e.badge ≤ high) :
    InOrder low high (edits.foldl applyEdit rs) := by
  induction edits generalizing rs with
  | nil => exact h
  | cons e edits ih =>
    exact ih (applyEdit_inOrder h (inside e List.mem_cons_self)) fun x mem => inside x (List.mem_cons_of_mem e mem)

theorem length_planRow_le (edits : List Edit) (e : IndexEntry) (rs : List Record) :
    (planRow edits e rs).records.length ≤ rs.length + edits.length := by
  have folded := length_foldl_applyEdit_le
    (edits.filter fun x => e.low ≤ x.badge && x.badge ≤ e.high) (rs.map PlanRecord.carried)
  have mine := List.length_filter_le (fun x : Edit => e.low ≤ x.badge && x.badge ≤ e.high) edits
  rw [List.length_map] at folded
  exact Nat.le_trans folded (Nat.add_le_add_left mine _)

theorem planRow_inOrder {edits : List Edit} {e : IndexEntry} {rs : List Record}
    (h : orderedWithin e.low e.high rs = true) : InOrder e.low e.high (planRow edits e rs).records :=
  foldl_applyEdit_inOrder (inOrder_carried h) fun x mem => by
    simpa [Nat.and_comm] using (List.mem_filter.mp mem).2

/-- R40, R87: records that one page or two can hold, in order where they are cut. -/
def Fits (low high : Nat) (rs : List PlanRecord) : Prop :=
  rs.length ≤ 128 ∧ (64 < rs.length → InOrder low high rs)

theorem Fits.widen {low high low' high' : Nat} {rs : List PlanRecord} (h : Fits low high rs)
    (below : low' ≤ low) (above : high ≤ high') : Fits low' high' rs := by
  obtain ⟨few, cut⟩ := h
  refine ⟨few, fun many => ?_⟩
  obtain ⟨ordered, within⟩ := cut many
  refine ⟨ordered, fun r mem => ?_⟩
  obtain ⟨lower, upper⟩ := within r mem
  exact ⟨Nat.le_trans below lower, Nat.le_trans upper above⟩

@[simp] theorem rowOf_entry (st : Store) (edits : List Edit) (done : List (IndexEntry × List Record))
    (e : IndexEntry) : (st.rowOf edits done e).entry = e := by
  unfold Store.rowOf
  repeat' split
  all_goals rfl

/-- R86, R87: a row fits where the Edit Buffer and the pages keep to 64 and the pages read are in order. -/
theorem rowOf_fits {st : Store} {edits : List Edit} {done : List (IndexEntry × List Record)} (e : IndexEntry)
    (few : edits.length ≤ 64) (pages : ∀ p x, (st.page p).contents = .programmed x → x.records.length ≤ 64)
    (read : ∀ x ∈ done, orderedWithin x.1.low x.1.high x.2 = true ∧ x.2.length ≤ 64) :
    Fits e.low e.high (st.rowOf edits done e).records := by
  unfold Store.rowOf
  split
  · rename_i x rs found
    have mem := List.mem_of_find?_eq_some found
    obtain rfl : x = e := by simpa using List.find?_some found
    obtain ⟨ordered, le⟩ := read _ mem
    have le : rs.length ≤ 64 := le
    have := length_planRow_le edits x rs
    exact ⟨by omega, fun _ => planRow_inOrder ordered⟩
  · split
    · rename_i x held
      have := length_planRow_le [] e x.records
      have := pages _ _ held
      simp only [List.length_nil] at *
      exact ⟨by omega, fun many => absurd many (by omega)⟩
    · exact ⟨Nat.zero_le _, fun many => absurd many (Nat.not_lt_zero _)⟩

/-! ### The copies of one range (R87, step 6) -/

def PlanCover.range (c : PlanCover) : Nat × Nat := (c.low, c.high)

def PlanRow.range (r : PlanRow) : Nat × Nat := r.entry.range

section
variable {c : PlanCover} (fits : Fits c.low c.high c.records)
include fits

/-- R87: a range rewritten becomes one copy, or two cut at the median. -/
theorem coverCopies_spans (ordered : c.low ≤ c.high) (rewritten : c.rewritten = true) :
    Spans c.low (c.copies.map Copy.range) (c.high + 1) := by
  obtain ⟨few, cut⟩ := fits
  unfold PlanCover.copies
  simp only [rewritten, Bool.not_true, Bool.false_eq_true, if_false]
  split
  · exact spans_singleton ordered
  · rename_i many
    obtain ⟨ascending, within⟩ := cut (by omega)
    generalize half : c.records.length - c.records.length / 2 = k
    have lower : 0 < (c.records.take k).length := by rw [List.length_take]; omega
    have upper : 0 < (c.records.drop k).length := by rw [List.length_drop]; omega
    obtain ⟨a, as, low⟩ := List.exists_cons_of_length_pos lower
    obtain ⟨b, bs, high⟩ := List.exists_cons_of_length_pos upper
    have parts : c.records = (a :: as) ++ (b :: bs) := by rw [← low, ← high, List.take_append_drop]
    rw [parts] at ascending within
    have first := (within a (by simp)).1
    have last := (within b (by simp)).2
    have between := (List.pairwise_append.mp ascending).2.2 a (by simp) b (by simp)
    simp only [high, List.head?_cons, Option.map_some, Option.getD_some]
    refine ⟨rfl, show c.low ≤ b.badge - 1 from ?_, ?_, last, rfl⟩
    · exact Nat.le_sub_one_of_lt (Nat.lt_of_le_of_lt first between)
    · exact (Nat.sub_add_cancel (Nat.one_le_of_lt between)).symm

theorem coverCopies_records {x : Copy} (mem : x ∈ c.copies) : x.page = none ∧ x.records.length ≤ 64 := by
  obtain ⟨few, -⟩ := fits
  unfold PlanCover.copies at mem
  dsimp only at mem
  split at mem
  · exact absurd mem List.not_mem_nil
  · split at mem
    · rename_i le
      obtain rfl := List.mem_singleton.mp mem
      exact ⟨rfl, le⟩
    · rcases List.mem_cons.mp mem with rfl | mem
      · exact ⟨rfl, by rw [List.length_take]; omega⟩
      · obtain rfl := List.mem_singleton.mp mem
        exact ⟨rfl, by rw [List.length_drop]; omega⟩

end

theorem coverCopies_of_kept {c : PlanCover} (kept : c.rewritten = false) : c.copies = [] := by
  simp [PlanCover.copies, kept]

/-! ### The covers (R87, step 5) -/

/-- The covers so far, highest first, and the low bound of the emptied pages below which none is left unemptied:
together they reach from 1 up to `next`. -/
structure CoveredTo (acc : List PlanCover) (floor : Option Badge) (next : Nat) : Prop where
  spans : floor = none → Spans 1 (acc.reverse.map PlanCover.range) next
  lowest : ∀ low, floor = some low → acc = [] ∧ low = 1 ∧ 1 ≤ next
  fits : ∀ c ∈ acc, Fits c.low c.high c.records

/-- R87: an emptied page gives its range to the cover below it. -/
theorem CoveredTo.widen {c : PlanCover} {below : List PlanCover} {floor : Option Badge} {low high : Nat}
    (h : CoveredTo (c :: below) floor low) (le : low ≤ high) :
    CoveredTo ({ c with high := high, rewritten := true } :: below) floor (high + 1) := by
  have open_ : floor = none := by
    cases e : floor with
    | none => rfl
    | some low =>
      obtain ⟨none_, -⟩ := h.lowest low e
      exact absurd none_ (List.cons_ne_nil c below)
  have spans := h.spans open_
  rw [List.reverse_cons, List.map_append] at spans
  obtain ⟨mid, before, first, ordered, last⟩ := spans_append.mp spans
  have last : c.range.2 + 1 = low := last
  refine ⟨fun _ => ?_, fun low e => absurd (open_.symm.trans e) (by simp), fun x mem => ?_⟩
  · rw [List.reverse_cons, List.map_append]
    exact spans_append.mpr ⟨mid, before, first, show c.range.1 ≤ high by omega, rfl⟩
  · rcases List.mem_cons.mp mem with rfl | mem
    · exact (h.fits c List.mem_cons_self).widen (Nat.le_refl _) (show c.range.2 ≤ high by omega)
    · exact h.fits x (List.mem_cons_of_mem c mem)

theorem coverRows_coveredTo {rows : List PlanRow} {acc : List PlanCover} {floor : Option Badge} {next stop : Nat}
    (rest : Spans next (rows.map PlanRow.range) stop)
    (fits : ∀ r ∈ rows, Fits r.entry.low r.entry.high r.records) (h : CoveredTo acc floor next) :
    CoveredTo (coverRows rows acc floor).1.reverse (coverRows rows acc floor).2 stop := by
  induction rows generalizing acc floor next with
  | nil =>
    obtain rfl : next = stop := rest
    simpa [coverRows] using h
  | cons r rows ih =>
    obtain ⟨first, ordered, rest⟩ := rest
    have own := fits r List.mem_cons_self
    have go := fun {acc floor} => ih (acc := acc) (floor := floor) rest
      (fun x mem => fits x (List.mem_cons_of_mem r mem))
    unfold coverRows
    split
    · cases acc with
      | cons c below => exact go (h.widen (show next ≤ r.range.2 by omega))
      | nil =>
        refine go ⟨fun e => absurd e (by cases floor <;> simp), fun low e => ⟨rfl, ?_, ?_⟩, by simp⟩
        · cases floor with
          | none =>
            obtain rfl : r.entry.low = low := by simpa using e
            exact first.trans (h.spans rfl).symm
          | some low' =>
            obtain rfl : low' = low := by simpa using e
            exact (h.lowest _ rfl).2.1
        · exact Nat.le_add_left 1 _
    · cases floor with
      | some low =>
        obtain ⟨rfl, rfl, le⟩ := h.lowest low rfl
        refine go ⟨fun _ => spans_singleton (show 1 ≤ r.range.2 by omega), fun _ e => absurd e (by simp), ?_⟩
        intro c mem
        obtain rfl := List.mem_singleton.mp mem
        exact own.widen (show 1 ≤ r.range.1 by omega) (Nat.le_refl _)
      | none =>
        refine go ⟨fun _ => ?_, fun _ e => absurd e (by simp), ?_⟩
        · rw [List.reverse_cons, List.map_append]
          exact spans_append.mpr ⟨next, h.spans rfl, first, ordered, rfl⟩
        · exact List.forall_mem_cons.mpr ⟨own, h.fits⟩

/-- R87: each page that its edits do not empty gives one cover. -/
theorem coverRows_pages {rows : List PlanRow} {acc : List PlanCover} {floor : Option Badge}
    (lowest : ∀ low, floor = some low → acc = []) :
    (coverRows rows acc floor).1.map PlanCover.page = acc.reverse.map PlanCover.page
      ++ (rows.filter fun r => !r.emptied).map fun r => r.entry.page := by
  induction rows generalizing acc floor with
  | nil => simp [coverRows]
  | cons r rows ih =>
    unfold coverRows
    split
    · rename_i emptied
      cases acc with
      | cons c below =>
        rw [ih fun low e => absurd (lowest low e) (List.cons_ne_nil c below)]
        simp [emptied]
      | nil =>
        rw [ih fun _ _ => rfl]
        simp [emptied]
    · rename_i kept
      cases floor with
      | some low =>
        obtain rfl := lowest low rfl
        rw [ih fun _ e => absurd e (by simp)]
        simp [kept, PlanRow.cover]
      | none =>
        rw [ih fun _ e => absurd e (by simp)]
        simp [kept, PlanRow.cover]

/-- A cover that is not rewritten is the page as it stands. -/
theorem coverRows_kept {rows : List PlanRow} {acc : List PlanCover} {floor : Option Badge} {c : PlanCover}
    (mem : c ∈ (coverRows rows acc floor).1) (kept : c.rewritten = false) :
    c ∈ acc ∨ ∃ r ∈ rows, c = r.cover := by
  induction rows generalizing acc floor with
  | nil => exact .inl (by simpa [coverRows] using mem)
  | cons r rows ih =>
    have later : ∀ {acc' : List PlanCover}, (c ∈ acc' ∨ ∃ x ∈ rows, c = x.cover) → (c ∈ acc' → c ∈ acc ∨ c = r.cover) →
        c ∈ acc ∨ ∃ x ∈ r :: rows, c = x.cover := fun step own => by
      rcases step with mem | ⟨x, mem, e⟩
      · exact (own mem).imp_right fun e => ⟨r, List.mem_cons_self, e⟩
      · exact .inr ⟨x, List.mem_cons_of_mem r mem, e⟩
    unfold coverRows at mem
    split at mem
    · cases acc with
      | cons a below =>
        refine later (ih mem) fun mem => .inl ?_
        rcases List.mem_cons.mp mem with rfl | mem
        · exact absurd kept (by simp)
        · exact List.mem_cons_of_mem a mem
      | nil => exact later (ih mem) fun mem => absurd mem List.not_mem_nil
    · cases floor with
      | some low =>
        refine later (ih mem) fun mem => ?_
        obtain rfl := List.mem_singleton.mp mem
        exact absurd kept (by simp)
      | none =>
        exact later (ih mem) fun mem => (List.mem_cons.mp mem).symm

end Sys2Proof.Machine
end

section
/-! PROOF. What a plan and a layout are made of: the ranges of the copies with those of the pages kept partition the
badge numbers (R41, R75, R87). -/

namespace Sys2Proof.Machine

/-! ### The plan of a commit (R87) -/

/-- The covers of a plan, lowest first. -/
def planCovers (rows : List PlanRow) : List PlanCover := (coverRows rows [] none).1

theorem planOf_copies (rows : List PlanRow) : (planOf rows).copies = match (coverRows rows [] none).2 with
    | some _ => [emptyCopy]
    | none => (planCovers rows).flatMap PlanCover.copies := rfl

theorem planOf_released (rows : List PlanRow) : (planOf rows).released =
    (rows.filter PlanRow.emptied).map (fun r => r.entry.page)
      ++ ((planCovers rows).filter PlanCover.rewritten).map PlanCover.page := rfl

theorem planCovers_pages (rows : List PlanRow) : (planCovers rows).map PlanCover.page
    = (rows.filter fun r => !r.emptied).map fun r => r.entry.page :=
  coverRows_pages fun _ _ => rfl

/-- R87: the pages a plan replaces are pages of the index. -/
theorem planOf_released_subset {rows : List PlanRow} {q : Page} (mem : q ∈ (planOf rows).released) :
    ∃ r ∈ rows, r.entry.page = q := by
  have covered : ∀ c ∈ planCovers rows, ∃ r ∈ rows, r.entry.page = c.page := fun c mem => by
    have page : c.page ∈ (planCovers rows).map PlanCover.page := List.mem_map_of_mem mem
    rw [planCovers_pages] at page
    obtain ⟨r, mem, e⟩ := List.mem_map.mp page
    exact ⟨r, List.mem_of_mem_filter mem, e⟩
  rw [planOf_released] at mem
  rcases List.mem_append.mp mem with mem | mem
  · obtain ⟨r, mem, e⟩ := List.mem_map.mp mem
    exact ⟨r, List.mem_of_mem_filter mem, e⟩
  · obtain ⟨c, cover, rfl⟩ := List.mem_map.mp mem
    exact covered c (List.mem_of_mem_filter cover)

/-- A range of a plan as its copies, or the page kept, take it. -/
def PlanCover.pieces (c : PlanCover) : List (Nat × Nat) :=
  c.copies.map Copy.range ++ if c.rewritten then [] else [c.range]

theorem PlanCover.pieces_spans {c : PlanCover} (fits : Fits c.low c.high c.records) (ordered : c.low ≤ c.high) :
    Spans c.range.1 c.pieces (c.range.2 + 1) := by
  unfold PlanCover.pieces
  by_cases rewritten : c.rewritten = true
  · rw [if_pos rewritten, List.append_nil]
    exact coverCopies_spans fits ordered rewritten
  · rw [if_neg rewritten, coverCopies_of_kept (by simpa using rewritten)]
    exact spans_singleton ordered

section
variable {rows : List PlanRow}

/-- The pages that a plan keeps. -/
def keptRows (rows : List PlanRow) : List PlanRow :=
  rows.filter fun r => !(planOf rows).released.contains r.entry.page

theorem mem_keptRows_iff {r : PlanRow} :
    r ∈ keptRows rows ↔ r ∈ rows ∧ r.entry.page ∉ (planOf rows).released := by
  simp [keptRows, List.mem_filter]

variable (pages : (rows.map fun r => r.entry.page).Nodup)
include pages

/-- R87: the pages kept are those whose cover is not rewritten. -/
theorem mem_kept_ranges_iff {x : Nat × Nat} :
    x ∈ ((planCovers rows).filter fun c => !c.rewritten).map PlanCover.range
      ↔ x ∈ (keptRows rows).map PlanRow.range := by
  have same_row : ∀ r ∈ rows, ∀ r' ∈ rows, r.entry.page = r'.entry.page → r = r' := fun r hr r' hr' e =>
    List.inj_on_of_nodup_map pages hr hr' e
  have covers_nodup : ((planCovers rows).map PlanCover.page).Nodup := by
    rw [planCovers_pages]
    exact pages.sublist (List.filter_sublist.map _)
  have unemptied : ∀ c ∈ planCovers rows, ∃ r ∈ rows, r.emptied = false ∧ r.entry.page = c.page := fun c mem => by
    have page : c.page ∈ (planCovers rows).map PlanCover.page := List.mem_map_of_mem mem
    rw [planCovers_pages] at page
    obtain ⟨r, mem, e⟩ := List.mem_map.mp page
    obtain ⟨mem, kept⟩ := List.mem_filter.mp mem
    exact ⟨r, mem, by simpa using kept, e⟩
  have as_it_stands : ∀ c ∈ planCovers rows, c.rewritten = false → ∃ r ∈ rows, c = r.cover := fun c mem kept =>
    (coverRows_kept mem kept).resolve_left List.not_mem_nil
  constructor
  · intro range
    obtain ⟨c, cover, rfl⟩ := List.mem_map.mp range
    obtain ⟨mem, kept⟩ := List.mem_filter.mp cover
    have kept : c.rewritten = false := by simpa using kept
    obtain ⟨r, row, e⟩ := as_it_stands c mem kept
    have page : c.page = r.entry.page := by rw [e]; rfl
    refine List.mem_map.mpr ⟨r, mem_keptRows_iff.mpr ⟨row, fun released => ?_⟩, by rw [e]; rfl⟩
    rw [planOf_released, List.mem_append, List.mem_map, List.mem_map] at released
    rcases released with ⟨r', mem', e'⟩ | ⟨c', mem', e'⟩
    · obtain ⟨row', emptied⟩ := List.mem_filter.mp mem'
      obtain ⟨r'', row'', unemptied, e''⟩ := unemptied c mem
      obtain rfl := same_row r' row' r'' row'' (by rw [e', e'', page])
      exact absurd emptied (by simp [unemptied])
    · obtain ⟨cover', rewritten⟩ := List.mem_filter.mp mem'
      obtain rfl := List.inj_on_of_nodup_map covers_nodup cover' mem (by rw [e', page])
      exact absurd rewritten (by simp [kept])
  · intro range
    obtain ⟨r, still, rfl⟩ := List.mem_map.mp range
    obtain ⟨row, stays⟩ := mem_keptRows_iff.mp still
    rw [planOf_released, List.mem_append, not_or] at stays
    obtain ⟨unemptied, unrewritten⟩ := stays
    have kept : r.emptied = false := by
      by_contra emptied
      exact unemptied (List.mem_map.mpr ⟨r, List.mem_filter.mpr ⟨row, by simpa using emptied⟩, rfl⟩)
    have page : r.entry.page ∈ (planCovers rows).map PlanCover.page := by
      rw [planCovers_pages]
      exact List.mem_map.mpr ⟨r, List.mem_filter.mpr ⟨row, by simp [kept]⟩, rfl⟩
    obtain ⟨c, mem, e⟩ := List.mem_map.mp page
    have standing : c.rewritten = false := by
      by_contra rewritten
      exact unrewritten (List.mem_map.mpr ⟨c, List.mem_filter.mpr ⟨mem, by simpa using rewritten⟩, e⟩)
    obtain ⟨r', row', e'⟩ := as_it_stands c mem standing
    obtain rfl : r' = r := same_row r' row' r row (by rw [← e, e']; rfl)
    exact List.mem_map.mpr ⟨c, List.mem_filter.mpr ⟨mem, by simp [standing]⟩, by rw [e']; rfl⟩

variable (spans : Spans 1 (rows.map PlanRow.range) (topBadge + 1))
  (fits : ∀ r ∈ rows, Fits r.entry.low r.entry.high r.records)
include spans fits

omit pages in
theorem planCovers_coveredTo :
    CoveredTo (planCovers rows).reverse (coverRows rows [] none).2 (topBadge + 1) :=
  coverRows_coveredTo spans fits ⟨fun _ => rfl, fun _ e => absurd e (by simp), by simp⟩

omit pages in
theorem planCovers_fits {c : PlanCover} (mem : c ∈ planCovers rows) : Fits c.low c.high c.records :=
  (planCovers_coveredTo spans fits).fits c (List.mem_reverse.mpr mem)

omit pages in
/-- R87: the new copies are on no page yet, and hold at most 64 records each. -/
theorem planOf_copies_records {x : Copy} (mem : x ∈ (planOf rows).copies) :
    x.page = none ∧ x.records.length ≤ 64 := by
  rw [planOf_copies] at mem
  split at mem
  · obtain rfl := List.mem_singleton.mp mem
    exact ⟨rfl, Nat.zero_le _⟩
  · obtain ⟨c, cover, mem⟩ := List.mem_flatMap.mp mem
    exact coverCopies_records (planCovers_fits spans fits cover) mem

/-- R41, R87: the ranges of the plan's copies with those of the pages it keeps partition the badge numbers. -/
theorem planOf_partition :
    Partition ((keptRows rows).map PlanRow.range ++ (planOf rows).copies.map Copy.range) := by
  have covered := planCovers_coveredTo spans fits
  rw [planOf_copies]
  split
  · rename_i low floor
    obtain ⟨none_, -⟩ := covered.lowest low floor
    have all_emptied : (planCovers rows).map PlanCover.page = [] := by
      rw [List.reverse_eq_nil_iff.mp none_, List.map_nil]
    have none_kept : keptRows rows = [] := List.eq_nil_iff_forall_not_mem.mpr fun r mem => by
      have range := (mem_kept_ranges_iff pages (x := r.range)).mpr (List.mem_map_of_mem mem)
      rw [List.reverse_eq_nil_iff.mp none_] at range
      exact absurd range List.not_mem_nil
    rw [none_kept]
    exact ⟨_, List.Perm.refl _, by decide⟩
  · rename_i floor
    have whole := covered.spans floor
    rw [List.reverse_reverse] at whole
    have cut : Spans 1 ((planCovers rows).flatMap PlanCover.pieces) (topBadge + 1) :=
      whole.flatMap fun c mem => PlanCover.pieces_spans (planCovers_fits spans fits mem)
        (whole.bounds (List.mem_map_of_mem mem)).2.1
    refine ⟨_, ?_, tiles_iff_spans.mpr cut⟩
    have kept : ((planCovers rows).filter fun c => !c.rewritten).map PlanCover.range
        = (planCovers rows).flatMap fun c => if c.rewritten then [] else [c.range] := by
      generalize planCovers rows = cs
      induction cs with
      | nil => rfl
      | cons c cs ih => by_cases rewritten : c.rewritten = true <;> simp [rewritten, ih]
    have same : (((planCovers rows).filter fun c => !c.rewritten).map PlanCover.range).Perm
        ((keptRows rows).map PlanRow.range) :=
      (List.perm_ext_iff_of_nodup (whole.nodup.sublist (List.filter_sublist.map _))
        (spans.nodup.sublist (List.filter_sublist.map _))).mpr fun x => mem_kept_ranges_iff pages
    rw [List.map_flatMap]
    refine (List.flatMap_append_perm _ _ _).symm.trans (List.perm_append_comm.trans ?_)
    rw [← kept]
    exact same.append_right _

end

/-! ### The layout of a COMPACT (R75) -/

/-- The first run starts with the first record. -/
theorem runsOf64_head {α : Type} (fuel : Nat) (rs : List α) :
    ∃ run rest, runsOf64 (fuel + 1) rs = run :: rest ∧ run.head? = rs.head? := by
  unfold runsOf64
  split
  · exact ⟨rs, [], rfl, rfl⟩
  · exact ⟨_, _, rfl, by rw [List.head?_take]; simp⟩

/-- R75: the layout's ranges follow one another over the badge numbers from `low` on. -/
theorem compactCopies_spans {low : Nat} {rs : List Record} {fuel : Nat} (enough : rs.length < fuel)
    (le : low ≤ topBadge) (ordered : orderedWithin low topBadge rs = true) :
    Spans low ((compactCopies low (runsOf64 fuel rs)).map Copy.range) (topBadge + 1) := by
  induction fuel generalizing low rs with
  | zero => exact absurd enough (Nat.not_lt_zero _)
  | succ fuel ih =>
    unfold runsOf64
    split
    · exact spans_singleton le
    · rename_i many
      obtain ⟨ascending, within⟩ := orderedWithin_iff.mp ordered
      have taken : 0 < (rs.take 64).length := by rw [List.length_take]; omega
      have left : 0 < (rs.drop 64).length := by rw [List.length_drop]; omega
      obtain ⟨a, as, first⟩ := List.exists_cons_of_length_pos taken
      obtain ⟨b, bs, next⟩ := List.exists_cons_of_length_pos left
      have parts : rs = (a :: as) ++ (b :: bs) := by rw [← first, ← next, List.take_append_drop]
      have shorter : (rs.drop 64).length < fuel := by rw [List.length_drop]; omega
      obtain ⟨fuel, rfl⟩ : ∃ n, fuel = n + 1 := ⟨fuel - 1, by omega⟩
      obtain ⟨run, runs, cut, head⟩ := runsOf64_head fuel (rs.drop 64)
      rw [next] at head shorter cut
      rw [parts] at ascending within
      obtain ⟨-, later, between⟩ := List.pairwise_append.mp ascending
      have after : orderedWithin b.badge topBadge (b :: bs) = true := by
        refine orderedWithin_iff.mpr ⟨later, fun r mem => ⟨?_, (within r (List.mem_append_right _ mem)).2⟩⟩
        rcases List.mem_cons.mp mem with rfl | mem
        · exact Nat.le_refl _
        · exact Nat.le_of_lt ((List.pairwise_cons.mp later).1 r mem)
      have rest := ih (low := b.badge) shorter (within b (by simp)).2 after
      have lt : low < b.badge := Nat.lt_of_le_of_lt (within a (by simp)).1 (between a (by simp) b (by simp))
      rw [cut] at rest
      rw [next, cut]
      simp only [compactCopies, head, List.head?_cons, Option.map_some, Option.getD_some, List.map_cons]
      exact ⟨rfl, Nat.le_sub_one_of_lt lt, by rw [Copy.range, Nat.sub_add_cancel (Nat.one_le_of_lt lt)]; exact rest⟩

theorem length_of_mem_runsOf64 {α : Type} {fuel : Nat} {rs run : List α} (enough : rs.length < fuel)
    (mem : run ∈ runsOf64 fuel rs) : run.length ≤ 64 := by
  induction fuel generalizing rs with
  | zero => exact absurd enough (Nat.not_lt_zero _)
  | succ fuel ih =>
    unfold runsOf64 at mem
    split at mem
    · obtain rfl := List.mem_singleton.mp mem
      assumption
    · rcases List.mem_cons.mp mem with rfl | mem
      · rw [List.length_take]; omega
      · exact ih (by rw [List.length_drop]; omega) mem

theorem compactCopies_records {low : Badge} {runs : List (List Record)} {x : Copy}
    (mem : x ∈ compactCopies low runs) :
    x.page = none ∧ ∃ run ∈ runs, x.records = run.map PlanRecord.carried := by
  induction runs generalizing low with
  | nil => exact absurd mem List.not_mem_nil
  | cons run runs ih =>
    cases runs with
    | nil =>
      obtain rfl := List.mem_singleton.mp mem
      exact ⟨rfl, run, List.mem_cons_self, rfl⟩
    | cons next rest =>
      rcases List.mem_cons.mp mem with rfl | mem
      · exact ⟨rfl, run, List.mem_cons_self, rfl⟩
      · obtain ⟨page, x', mem', e⟩ := ih mem
        exact ⟨page, x', List.mem_cons_of_mem run mem', e⟩

theorem compactLayout_records {rs : List Record} {x : Copy} (mem : x ∈ compactLayout rs) :
    x.page = none ∧ x.records.length ≤ 64 := by
  obtain ⟨page, run, mem, e⟩ := compactCopies_records mem
  exact ⟨page, by rw [e, List.length_map]; exact length_of_mem_runsOf64 (Nat.lt_succ_self _) mem⟩

/-- R75: the layout's ranges partition the badge numbers. -/
theorem compactLayout_partition {rs : List Record} (ordered : orderedWithin 1 topBadge rs = true) :
    Partition ((compactLayout rs).map Copy.range) :=
  ⟨_, List.Perm.refl _, tiles_iff_spans.mpr (compactCopies_spans (Nat.lt_succ_self _) (by decide) ordered)⟩

end Sys2Proof.Machine
end

section
/-! PROOF. What the invariant of the pages and the running work does not see: the events that leave the index, the
pages, the array's operation and the work as they stand. -/

namespace Sys2Proof.Machine

/-- The parts of the card that WorkRight speaks of stand, beside saves that join the work queue, a batch that
closes, and a request in hand that is answered or waits for something else than a plan. -/
structure SameWork (s t : State) : Prop where
  index : t.dir.index = s.dir.index
  condition : t.dir.condition = s.dir.condition
  phase : t.site.phase = s.site.phase
  pages : t.store.pages = s.store.pages
  states : t.store.pageState = s.store.pageState
  erases : t.store.eraseQ = s.store.eraseQ
  work : t.store.work = s.store.work
  op : t.store.op.map ArrayOp.kind = s.store.op.map ArrayOp.kind
  queue : ∃ q, t.store.workQ = s.store.workQ ++ q ∧ WorkEntry.logMark ∉ q
  batch : t.batch.state = s.batch.state ∨ t.batch.state = .closed ∧ t.site.isPlanning = false
  hand : t.site.inHand = s.site.inHand ∨ t.site.inHand = none
    ∨ s.site.phase = .open_ ∧ t.site.isPlanning = false

theorem isPlanning_congr {p q : Port} (h : p.inHand = q.inHand) : p.isPlanning = q.isPlanning := by
  rw [Port.isPlanning, Port.isPlanning, h]

theorem isPlanning_of_none {p : Port} (h : p.inHand = none) : p.isPlanning = false := by
  rw [Port.isPlanning, h]

theorem isPlanning_of_planning {p : Port} {f : SiteFrame} {todo : List IndexEntry}
    {done : List (IndexEntry × List Record)} (h : p.inHand = some { frame := f, wait := .planning todo done }) :
    p.isPlanning = true := by
  rw [Port.isPlanning, h]

/-- Ranges on pages: a page that carries a copy's range still does where the page stands. -/
theorem carriesRange_congr {st st' : Store} {p : Page} (h : st'.page p = st.page p) (c : Copy) :
    CarriesRange st' p c ↔ CarriesRange st p c := by
  rw [CarriesRange, CarriesRange, h]

section
variable {s t u : State}

theorem SameWork.refl (s : State) : SameWork s s :=
  ⟨rfl, rfl, rfl, rfl, rfl, rfl, rfl, rfl, ⟨[], (List.append_nil _).symm, List.not_mem_nil⟩, .inl rfl, .inl rfl⟩

theorem SameWork.trans (h : SameWork s t) (k : SameWork t u) : SameWork s u where
  index := k.index.trans h.index
  condition := k.condition.trans h.condition
  phase := k.phase.trans h.phase
  pages := k.pages.trans h.pages
  states := k.states.trans h.states
  erases := k.erases.trans h.erases
  work := k.work.trans h.work
  op := k.op.trans h.op
  queue := by
    obtain ⟨q, joined, none_⟩ := h.queue
    obtain ⟨q', joined', none_'⟩ := k.queue
    exact ⟨q ++ q', by rw [joined', joined, List.append_assoc], by simp [none_, none_']⟩
  batch := by
    rcases k.batch with same | closed
    · rcases h.batch with before | ⟨closed, quiet⟩
      · exact .inl (same.trans before)
      · refine .inr ⟨same.trans closed, ?_⟩
        rcases k.hand with hand | none_ | ⟨-, quiet'⟩
        · rw [isPlanning_congr hand, quiet]
        · exact isPlanning_of_none none_
        · exact quiet'
    · exact .inr closed
  hand := by
    rcases k.hand with same | none_ | ⟨opened, quiet⟩
    · rcases h.hand with before | none_ | ⟨opened, quiet⟩
      · exact .inl (same.trans before)
      · exact .inr (.inl (same.trans none_))
      · exact .inr (.inr ⟨opened, by rw [isPlanning_congr same, quiet]⟩)
    · exact .inr (.inl none_)
    · exact .inr (.inr ⟨h.phase.symm.trans opened, quiet⟩)

theorem SameWork.foldl {α : Type} (f : State → α → State) (h : ∀ s a, SameWork s (f s a)) (as : List α)
    (s : State) : SameWork s (as.foldl f s) := by
  induction as generalizing s with
  | nil => exact SameWork.refl s
  | cons a as ih => exact (h s a).trans (ih _)

theorem SameWork.ite {c : Prop} [Decidable c] (h : SameWork s t) (k : SameWork s u) :
    SameWork s (if c then t else u) := by
  split
  · exact h
  · exact k

/-- The store, the directory, the batch and the port stand. -/
theorem SameWork.of_parts (dir : t.dir = s.dir) (store : t.store = s.store) (batch : t.batch = s.batch)
    (site : t.site = s.site) : SameWork s t where
  index := by rw [dir]
  condition := by rw [dir]
  phase := by rw [site]
  pages := by rw [store]
  states := by rw [store]
  erases := by rw [store]
  work := by rw [store]
  op := by rw [store]
  queue := ⟨[], by rw [store, List.append_nil], List.not_mem_nil⟩
  batch := .inl (by rw [batch])
  hand := .inl (by rw [site])

/-- The port alone has changed. -/
theorem SameWork.of_site (dir : t.dir = s.dir) (store : t.store = s.store) (batch : t.batch = s.batch)
    (phase : t.site.phase = s.site.phase)
    (hand : t.site.inHand = s.site.inHand ∨ t.site.inHand = none ∨ s.site.phase = .open_ ∧ t.site.isPlanning = false) :
    SameWork s t where
  index := by rw [dir]
  condition := by rw [dir]
  phase := phase
  pages := by rw [store]
  states := by rw [store]
  erases := by rw [store]
  work := by rw [store]
  op := by rw [store]
  queue := ⟨[], by rw [store, List.append_nil], List.not_mem_nil⟩
  batch := .inl (by rw [batch])
  hand := hand

variable (h : SameWork s t)
include h

theorem SameWork.page (p : Page) : t.store.page p = s.store.page p := by
  rw [Store.page, Store.page, h.pages]

theorem SameWork.stateOf (p : Page) : t.store.stateOf p = s.store.stateOf p := by
  rw [Store.stateOf, Store.stateOf, h.states]

theorem SameWork.mem_queue_iff : WorkEntry.logMark ∈ t.store.workQ ↔ WorkEntry.logMark ∈ s.store.workQ := by
  obtain ⟨q, joined, none_⟩ := h.queue
  simp [joined, none_]

/-- R41: the index stays in its order, and its partition stays. -/
theorem SameWork.indexRight (r : IndexRight s) : IndexRight t := by
  rw [IndexRight, h.index, h.condition, h.phase]
  exact r

theorem SameWork.planRight (r : PlanRight s) : PlanRight t := by
  obtain ⟨opened, planned⟩ := r
  refine ⟨fun batch => ?_, fun f todo done waits => ?_⟩
  · rw [h.condition, h.work]
    rcases h.batch with same | ⟨closed, -⟩
    · exact opened (same ▸ batch)
    · exact absurd (closed ▸ batch) (by decide)
  · have planning := isPlanning_of_planning waits
    have stands : t.site.inHand = s.site.inHand := by
      rcases h.hand with same | none_ | ⟨-, quiet⟩
      · exact same
      · exact absurd (none_.symm.trans waits) (by simp)
      · exact absurd (quiet.symm.trans planning) (by decide)
    have same : t.batch.state = s.batch.state := by
      rcases h.batch with same | ⟨-, quiet⟩
      · exact same
      · exact absurd (quiet.symm.trans planning) (by decide)
    rw [same]
    exact planned f todo done (stands ▸ waits)

theorem SameWork.quiet (r : StoreQuietUntilOpen s) : StoreQuietUntilOpen t := by
  intro phase
  rw [h.phase] at phase
  obtain ⟨batch, hand, work, op⟩ := r phase
  refine ⟨?_, ?_, h.work.trans work, ?_⟩
  · rcases h.batch with same | ⟨closed, -⟩
    · exact same.trans batch
    · exact closed
  · rcases h.hand with same | none_ | ⟨opened, -⟩
    · exact same.trans hand
    · exact none_
    · exact absurd opened phase
  · exact Option.map_eq_none_iff.mp (by rw [h.op, op]; rfl)

end

/-! ### The shared operations -/

section
variable (s : State)

theorem mapReader_sameWork (c : Chan) (f : Channel → Channel) : SameWork s (s.mapReader c f) :=
  .of_parts rfl rfl rfl rfl

theorem mapGroup_sameWork (g : Group) (f : GroupMgr → GroupMgr) : SameWork s (s.mapGroup g f) :=
  .of_parts rfl rfl rfl rfl

theorem mapRecall_sameWork (g : Group) (f : RecallIn → RecallIn) : SameWork s (s.mapRecall g f) :=
  .of_parts rfl rfl rfl rfl

theorem mapNotices_sameWork (f : NoticeUnit → NoticeUnit) : SameWork s (s.mapNotices f) :=
  .of_parts rfl rfl rfl rfl

theorem mapFaults_sameWork (f : FaultUnit → FaultUnit) : SameWork s (s.mapFaults f) :=
  .of_parts rfl rfl rfl rfl

theorem settle_sameWork : SameWork s s.settle := mapNotices_sameWork s _

theorem raiseNotice_sameWork (b : NoticeBody) : SameWork s (s.raiseNotice b) := mapNotices_sameWork s _

theorem raiseFault_sameWork (k : FaultKind) (d : Nat) : SameWork s (s.raiseFault k d) := by
  obtain ⟨f, ns, touched⟩ := raiseFault_touches s k d
  rw [touched]
  exact .of_parts rfl rfl rfl rfl

theorem SameButGroups.sameWork {t : State} (h : SameButGroups s t) : SameWork s t := by
  obtain ⟨gs, rs, ns, rfl⟩ := h
  exact .of_parts rfl rfl rfl rfl

theorem readFor_sameWork (e : IndexEntry) : SameWork s (s.readFor e).1 := by
  obtain ⟨f, ns, touched⟩ := readFor_touches s e
  rw [touched]
  exact .of_parts rfl rfl rfl rfl

theorem lookup_sameWork (b : Badge) : SameWork s (s.lookup b).1 := by
  obtain ⟨f, ns, touched⟩ := lookup_touches s b
  rw [touched]
  exact .of_parts rfl rfl rfl rfl

/-- R60, R61: a request that joins the priority queue leaves the array's operation as it is. -/
theorem placePrio_op (e : PrioEntry) :
    (s.placePrio e).store.op.map ArrayOp.kind = s.store.op.map ArrayOp.kind := by
  unfold State.placePrio State.mapStore
  dsimp only
  split
  · rename_i running
    split
    · simp [running]
    · rfl
  · rfl

theorem placePrio_sameWork (e : PrioEntry) : SameWork s (s.placePrio e) := by
  have op := placePrio_op s e
  obtain ⟨op', capped, touched⟩ := placePrio_touches s e
  rw [touched] at op ⊢
  exact { SameWork.refl s with op := op }

/-- A list of entries of the priority queue, which the invariant does not see. -/
theorem withPrio_sameWork (q : List PrioEntry) : SameWork s (s.mapStore fun st => { st with prio := q }) :=
  { SameWork.refl s with }

theorem dropPrio_sameWork : SameWork s s.dropPrio := { SameWork.refl s with }

theorem saveQueued_sameWork : SameWork s { s with store := saveQueued s.store } := by
  unfold saveQueued
  split
  · exact { SameWork.refl s with queue := ⟨[.save 0], rfl, by simp⟩ }
  · exact SameWork.refl s
  · exact { SameWork.refl s with }

theorem queueSave_sameWork : SameWork s s.queueSave := by
  rw [queueSave_eq]
  exact saveQueued_sameWork s

/-- R161, R162: an answer leaves no request in hand. -/
theorem handOver_sameWork (t : SiteTx) : SameWork s (s.handOver t) := by
  rw [handOver_eq]
  exact .of_site rfl rfl rfl rfl (.inr (.inl rfl))

theorem reply_sameWork (f : SiteFrame) (x : Result) (d : List Byte) : SameWork s (s.reply f x d) :=
  handOver_sameWork s _

theorem setInHand_sameWork (f : SiteFrame) (w : PortWait) (opened : s.site.phase = .open_)
    (other : ∀ todo done, w ≠ .planning todo done) : SameWork s (s.setInHand f w) := by
  refine .of_site rfl rfl rfl rfl (.inr (.inr ⟨opened, ?_⟩))
  cases w with
  | planning todo done => exact absurd rfl (other todo done)
  | recordRead _ => rfl
  | scan _ _ _ => rfl
  | scanned _ _ => rfl
  | stage _ => rfl

theorem mapBatch_sameWork (f : Batch → Batch) (h : (f s.batch).state = s.batch.state) :
    SameWork s (s.mapBatch f) :=
  { SameWork.refl s with batch := .inl h }

theorem closeBatch_sameWork (quiet : s.site.isPlanning = false) : SameWork s (s.mapBatch fun _ => Batch.startUp) :=
  { SameWork.refl s with batch := .inr ⟨rfl, quiet⟩ }

theorem restartIdle_sameWork : SameWork s s.restartIdle := mapBatch_sameWork s _ rfl

theorem mapDir_sameWork (f : Directory → Directory) (index : (f s.dir).index = s.dir.index)
    (condition : (f s.dir).condition = s.dir.condition) : SameWork s (s.mapDir f) :=
  { SameWork.refl s with index := index, condition := condition }

theorem checkSpare_sameWork (n : Nat) : SameWork s (s.checkSpare n) :=
  .ite (raiseFault_sameWork _ _ _) (.refl s)

end

end Sys2Proof.Machine
end

section
/-! PROOF. The events of the readers, the engine, the group controllers, the inputs and the deadlines leave the
pages and the running work as they stand. -/

namespace Sys2Proof.Machine

/-! ### The Admission Engine and the readers -/

section
variable (s : State)

theorem withEngine_sameWork (q : List Request) (en : Engine) :
    SameWork s { s with queue := q, engine := en } :=
  .of_parts rfl rfl rfl rfl

theorem takeDecision_sameWork (r : Request) (res : Option LookupResult) :
    SameWork s (s.takeDecision r res) := by
  obtain ⟨gs, rs, ns, tt, touched⟩ := takeDecision_touches s r res
  rw [touched]
  exact .of_parts rfl rfl rfl rfl

theorem engineTake_sameWork (n : Nat) : SameWork s (s.engineTake n) := by
  induction n generalizing s with
  | zero => exact .refl s
  | succ n ih =>
    have decided (q : List Request) (r : Request) (res : Option LookupResult) :
        SameWork s (({ s with queue := q }.takeDecision r res).engineTake n) :=
      (withEngine_sameWork s q s.engine).trans ((takeDecision_sameWork _ r res).trans (ih _))
    unfold State.engineTake
    split
    · exact .refl s
    · split
      · exact .refl s
      · dsimp only
        split
        · exact decided _ _ _
        · split
          · exact decided _ _ _
          · exact (withEngine_sameWork s _ _).trans (placePrio_sameWork _ _)

theorem engineNext_sameWork : SameWork s s.engineNext := engineTake_sameWork s _

theorem engineResult_sameWork (res : LookupResult) : SameWork s (s.engineResult res) := by
  unfold State.engineResult
  split
  · exact (takeDecision_sameWork _ _ _).trans (engineNext_sameWork _)
  · exact .refl s

theorem showAnswer_sameWork (c : Chan) (a : Answer) : SameWork s (s.showAnswer c a) := by
  rw [showAnswer_touches]
  exact mapReader_sameWork _ _ _

theorem sendRecord_sameWork (c : Chan) (r : ReaderRecord) : SameWork s (s.sendRecord c r) := by
  obtain ⟨q, touched⟩ := sendRecord_touches s c r
  rw [touched]
  exact mapReader_sameWork _ _ _

theorem endDisplay_sameWork (c : Chan) : SameWork s (s.endDisplay c) := by
  obtain ⟨f, touched⟩ := endDisplay_touches s c
  rw [touched]
  exact mapReader_sameWork _ _ _

theorem offer_sameWork (c : Chan) (b : Option Badge) (ask : Ask) : SameWork s (s.offer c b ask) := by
  unfold State.offer
  refine .ite ?_ ((mapReader_sameWork _ _ _).trans (showAnswer_sameWork _ _ _))
  exact (withEngine_sameWork s _ s.engine).trans ((mapReader_sameWork _ _ _).trans (engineNext_sameWork _))

theorem lineFrame_sameWork (c : Chan) : SameWork s (s.lineFrame c) := by
  obtain ⟨f, ns, touched⟩ := lineFrame_touches s c
  rw [touched]
  exact .of_parts rfl rfl rfl rfl

theorem endEntry_sameWork (c : Chan) (e : Entry) : SameWork s (s.endEntry c e) := by
  unfold State.endEntry
  dsimp only
  split
  · exact .refl s
  · refine .ite (offer_sameWork _ _ _ _) ?_
    split
    · exact offer_sameWork _ _ _ _
    · exact (mapReader_sameWork _ _ _).trans (showAnswer_sameWork _ _ _)

theorem setEntry_tone_sameWork (c : Chan) (e : Entry) (t : Tone) :
    SameWork s ((s.setEntry c e).sendTone c t) :=
  (mapReader_sameWork _ _ _).trans (sendRecord_sameWork _ _ _)

theorem idleBadge_sameWork (c : Chan) (b : Badge) : SameWork s (s.idleBadge c b) := by
  unfold State.idleBadge
  split
  · exact setEntry_tone_sameWork _ _ _ _
  · exact (sendRecord_sameWork _ _ _).trans (offer_sameWork _ _ _ _)
  · exact .refl s

theorem showStarting_sameWork (c : Chan) : SameWork s (s.showStarting c) :=
  ((mapReader_sameWork _ _ _).trans (sendRecord_sameWork _ _ _)).trans (sendRecord_sameWork _ _ _)

theorem entryBadge_sameWork (c : Chan) (e : Entry) (b : Badge) : SameWork s (s.entryBadge c e b) := by
  unfold State.entryBadge
  split <;> exact setEntry_tone_sameWork _ _ _ _

theorem takeBadge_sameWork (c : Chan) (b : Badge) : SameWork s (s.takeBadge c b) := by
  unfold State.takeBadge
  dsimp only
  split
  · exact .refl s
  · exact .refl s
  · exact showStarting_sameWork _ _
  · exact sendRecord_sameWork _ _ _
  · exact .ite (sendRecord_sameWork _ _ _) (idleBadge_sameWork _ _ _)
  · exact .ite (sendRecord_sameWork _ _ _) ((endDisplay_sameWork _ _).trans (idleBadge_sameWork _ _ _))
  · split
    · exact .ite (sendRecord_sameWork _ _ _) (entryBadge_sameWork _ _ _ _)
    · exact .refl s

theorem entryChar_sameWork (c : Chan) (e : Entry) (b : Byte) : SameWork s (s.entryChar c e b) :=
  .ite (setEntry_tone_sameWork _ _ _ _) (sendRecord_sameWork _ _ _)

theorem lobbyKey_sameWork (c : Chan) (k : KeyKind) : SameWork s (s.lobbyKey c k) := by
  unfold State.lobbyKey
  dsimp only
  split
  · exact setEntry_tone_sameWork _ _ _ _
  · exact sendRecord_sameWork _ _ _
  · exact (endDisplay_sameWork _ _).trans (setEntry_tone_sameWork _ _ _ _)
  · exact sendRecord_sameWork _ _ _
  · exact (endDisplay_sameWork _ _).trans (sendRecord_sameWork _ _ _)
  · split
    · exact .refl s
    · split
      · exact entryChar_sameWork _ _ _ _
      · exact (sendRecord_sameWork _ _ _).trans (endEntry_sameWork _ _ _)
      · exact (mapReader_sameWork _ _ _).trans (sendRecord_sameWork _ _ _)
      · exact sendRecord_sameWork _ _ _
  · exact .refl s

theorem takeKey_sameWork (c : Chan) (k : Byte) : SameWork s (s.takeKey c k) := by
  unfold State.takeKey
  dsimp only
  split
  · exact .refl s
  · exact .refl s
  · exact showStarting_sameWork _ _
  · exact sendRecord_sameWork _ _ _
  · split
    · exact lobbyKey_sameWork _ _ _
    · exact sendRecord_sameWork _ _ _

/-- The time base moves on within the second. -/
theorem reach_sameWork {t : Nat} {u : State} (h : s.reach t = some u) : SameWork s u := by
  unfold State.reach at h
  split at h
  · obtain rfl := Option.some.inj h
    exact .refl s
  · split at h
    · obtain rfl := Option.some.inj h
      exact .of_parts rfl rfl rfl rfl
    · cases h

theorem entryTimeout_sameWork (c : Chan) (t : EntryTimer) : SameWork s (s.entryTimeout c t) := by
  unfold State.entryTimeout
  split
  · refine .ite ?_ (.refl s)
    split
    · rename_i reached
      exact (reach_sameWork s reached).trans (endEntry_sameWork _ _ _)
    · exact .refl s
  · exact .refl s

/-! ### The group controllers -/

theorem unmatched_sameWork (g : Group) (tag : Byte) : SameWork s (s.unmatched g tag) :=
  .ite (raiseFault_sameWork _ _ _) (.refl s)

theorem requestMark_sameWork (b : Option Badge) : SameWork s (s.requestMark b) := by
  unfold State.requestMark
  split
  · exact placePrio_sameWork _ _
  · exact .refl s

theorem deliver_sameWork (c : Chan) (a : Answer) : SameWork s (s.deliver c a) :=
  (deliver_same s c a).sameWork

theorem journey_sameWork (b : Option Badge) (p : Path) (ls : List Leg) (d : Landing) :
    SameWork s (s.journey b p ls d) := by
  unfold State.journey
  repeat' split
  all_goals exact .of_parts rfl rfl rfl rfl

theorem takeAssign_sameWork (g : Group) (tag car : Byte) : SameWork s (s.takeAssign g tag car) := by
  unfold State.takeAssign
  split
  · exact unmatched_sameWork _ _ _
  · split
    · exact unmatched_sameWork _ _ _
    · split
      · split
        · exact .refl s
        · exact (((mapGroup_sameWork s g _).trans (requestMark_sameWork _ _)).trans
            (deliver_sameWork _ _ _)).trans (journey_sameWork _ _ _ _ _)
      · exact unmatched_sameWork _ _ _

theorem takeEnabled_sameWork (g : Group) (tag : Byte) : SameWork s (s.takeEnabled g tag) := by
  unfold State.takeEnabled
  split
  · exact unmatched_sameWork _ _ _
  · split
    · exact unmatched_sameWork _ _ _
    · split
      · exact .refl s
      · exact (((mapGroup_sameWork s g _).trans (mapGroup_sameWork _ g _)).trans
          (requestMark_sameWork _ _)).trans (deliver_sameWork _ _ _)

theorem takeRefusal_sameWork (g : Group) (tag : Byte) : SameWork s (s.takeRefusal g tag) := by
  unfold State.takeRefusal
  split
  · exact unmatched_sameWork _ _ _
  · split
    · exact mapGroup_sameWork s g _
    · exact (mapGroup_sameWork s g _).trans (deliver_sameWork _ _ _)

theorem regroup_sameWork (g : Group) (cause : GroupCause) (always : Bool) (change : Option RecallChange) :
    SameWork s (s.regroup g cause always change) :=
  (regroup_same s g cause always change).sameWork

theorem takeGroupState_sameWork (g : Group) (a : Byte) : SameWork s (s.takeGroupState g a) :=
  .ite ((mapGroup_sameWork s g _).trans (regroup_sameWork _ _ _ _ _)) (raiseFault_sameWork _ _ _)

theorem takeCarState_sameWork (g : Group) (car landing motion door inService : Byte) :
    SameWork s (s.takeCarState g car landing motion door inService) := by
  have ended (c : Car) (code : AnswerCode) : SameWork s (s.endEnables g c code) :=
    (endEnables_same s g c code).sameWork
  unfold State.takeCarState
  split
  · split
    · exact raiseFault_sameWork _ _ _
    · exact (SameWork.ite (ended _ _) (.ite (ended _ _) (.refl s))).trans (mapGroup_sameWork _ g _)
  · exact raiseFault_sameWork _ _ _

/-! ### The inputs and the receivers -/

theorem setRecall_sameWork (g : Group) (after : RecallState) : SameWork s (s.setRecall g after) :=
  .ite (.refl s) ((mapRecall_sameWork s g _).trans (regroup_sameWork _ _ _ _ _))

theorem fixRecall_sameWork (g : Group) : SameWork s (s.fixRecall g) :=
  .ite ((mapRecall_sameWork s g _).trans (setRecall_sameWork _ _ _)) (.refl s)

theorem mapInput_sameWork (i : Input) (f : Debounce → Debounce) : SameWork s (s.mapInput i f) := by
  cases i <;> exact .of_parts rfl rfl rfl rfl

theorem countDone_sameWork {i : Input} {first : Bool} {u : State} (h : s.countDone i first = some u) :
    SameWork s u := by
  obtain ⟨t, -, done⟩ := Option.bind_eq_some_iff.mp h
  obtain ⟨v, reached, rfl⟩ := Option.map_eq_some_iff.mp done
  exact (reach_sameWork s reached).trans (mapInput_sameWork _ _ _)

theorem lineEvent_sameWork (g : Group) : SameWork s (s.lineEvent g) :=
  .ite (setRecall_sameWork _ _ _) (.refl s)

theorem lineChange_sameWork (g : Group) (active : Bool) : SameWork s (s.lineChange g active) := by
  refine .ite ?_ (.refl s)
  split
  · rename_i done
    exact (countDone_sameWork s done).trans (lineEvent_sameWork _ _)
  · exact .refl s

theorem setRx_sameWork (l : Link) (x : Receiver) : SameWork s (s.setRx l x) := by
  cases l with
  | site => exact .of_site rfl rfl rfl rfl (.inl rfl)
  | group g => exact .of_parts rfl rfl rfl rfl
  | reader c => exact .of_parts rfl rfl rfl rfl

theorem raiseDiscard_sameWork (l : Link) (cause : DiscardCause) : SameWork s (s.raiseDiscard l cause) := by
  cases l with
  | site => exact raiseFault_sameWork _ _ _
  | group g => exact raiseFault_sameWork _ _ _
  | reader c => exact .refl s

/-! ### The second event -/

theorem advance_sameWork : SameWork s s.advance := by
  have ticked : SameWork s s.ticked := .of_parts rfl rfl rfl rfl
  cases set : s.cal.state with
  | unset => rw [advance_of_unset set]; exact ticked
  | set =>
    by_cases short : s.cal.second < 59
    · rw [advance_of_second set short]
      exact .of_parts rfl rfl rfl rfl
    · rw [advance_of_minute set short]
      refine ticked.trans ?_
      by_cases met : s.ticked.atMinute.armMet = true
      · rw [minuteBoundary_of_met met]
        exact (saveQueued_sameWork s.ticked).trans (.of_parts rfl rfl rfl rfl)
      · rw [minuteBoundary_of_unmet met]
        exact .of_parts rfl rfl rfl rfl

/-- R84: an expired batch is one that no BATCH COMMIT is being planned for. -/
theorem checkBatch_sameWork : SameWork s s.checkBatch := by
  unfold State.checkBatch
  split
  · rename_i due
    simp only [State.batchDue, Bool.and_eq_true, Bool.not_eq_true'] at due
    exact (closeBatch_sameWork s due.1.2).trans (raiseNotice_sameWork _ _)
  · exact .refl s

theorem checkSilence_sameWork (c : Chan) : SameWork s (s.checkSilence c) := by
  refine .ite ?_ (.refl s)
  obtain ⟨rs, q, f, ns, touched⟩ := goOffline_touches s c
  rw [touched]
  exact .of_parts rfl rfl rfl rfl

theorem checkDisplay_sameWork (c : Chan) : SameWork s (s.checkDisplay c) := by
  obtain ⟨f, touched⟩ := checkDisplay_touches s c
  rw [touched]
  exact mapReader_sameWork _ _ _

theorem checkLink_sameWork (g : Group) : SameWork s (s.checkLink g) := by
  refine .ite ?_ (.refl s)
  obtain ⟨gs, rs, f, ns, touched⟩ := linkGoesSilent_touches s g
  rw [touched]
  exact .of_parts rfl rfl rfl rfl

theorem checkReply_sameWork (g : Group) (tag : Byte) : SameWork s (s.checkReply g tag) := by
  unfold State.checkReply
  split
  · exact .ite (cancelOrder_same s g _ _).sameWork (.refl s)
  · exact .refl s

theorem checkCancel_sameWork (g : Group) (tag : Byte) : SameWork s (s.checkCancel g tag) := by
  unfold State.checkCancel
  split
  · exact .ite (mapGroup_sameWork s g _) (.refl s)
  · exact .refl s

theorem checkHold_sameWork (g : Group) (car : Car) : SameWork s (s.checkHold g car) :=
  .ite (withdraw_same s g car).sameWork (.refl s)

theorem checkGroup_sameWork (g : Group) : SameWork s (s.checkGroup g) :=
  (((checkLink_sameWork s g).trans (.foldl _ (fun s t => checkReply_sameWork s g t) _ _)).trans
    (.foldl _ (fun s t => checkCancel_sameWork s g t) _ _)).trans
    (.foldl _ (fun s c => checkHold_sameWork s g c) _ _)

theorem checkAll_sameWork : SameWork s s.checkAll :=
  ((checkBatch_sameWork s).trans (.foldl _ (fun s c => (checkSilence_sameWork s c).trans
    (checkDisplay_sameWork _ c)) _ _)).trans (.foldl _ checkGroup_sameWork _ _)

theorem secondEvent_sameWork (first : State → State) (h : ∀ u, SameWork u (first u)) :
    SameWork s (s.secondEvent first) :=
  ((advance_sameWork s).trans (h _)).trans (checkAll_sameWork _)

theorem deadlineEvent_sameWork (due : State → Bool) (deliver : State → State)
    (h : ∀ u, SameWork u (deliver u)) : SameWork s (s.deadlineEvent due deliver) :=
  .ite (secondEvent_sameWork s deliver h) (.refl s)

/-! ### The Site Link Port -/

theorem receiveFrame_sameWork (f : SiteFrame) : SameWork s (s.receiveFrame f) :=
  have hunting : SameWork s (s.mapSite fun p => { p with rx := .hunting }) := .of_site rfl rfl rfl rfl (.inl rfl)
  hunting.trans (.ite (.of_site rfl rfl rfl rfl (.inl rfl)) (raiseFault_sameWork _ _ _))

theorem transmitNext_sameWork : SameWork s s.transmitNext := by
  unfold State.transmitNext
  split
  · exact .refl s
  · split
    · exact .of_site rfl rfl rfl rfl (.inl rfl)
    · split
      · exact .refl s
      · exact .of_site rfl rfl rfl rfl (.inl rfl)

theorem answerScan_sameWork : SameWork s s.answerScan := by
  unfold State.answerScan
  split
  · exact (mapDir_sameWork s _ rfl rfl).trans (reply_sameWork _ _ _ _)
  · exact .refl s

theorem handResult_sameWork : SameWork s s.handResult := by
  unfold State.handResult
  split
  · exact engineResult_sameWork _ _
  · exact .refl s

theorem drainLines_sameWork : SameWork s s.drainLines := .of_parts rfl rfl rfl rfl

end

/-- A request that is taken: the port has nothing in hand, and nothing beside the port has changed. -/
structure Taken (s u : State) : Prop where
  dir : u.dir = s.dir
  store : u.store = s.store
  batch : u.batch = s.batch
  phase : u.site.phase = s.site.phase
  idle : s.site.inHand = none
  hand : u.site.inHand = none

section
variable {s u : State}

theorem Taken.sameWork (h : Taken s u) : SameWork s u :=
  .of_site h.dir h.store h.batch h.phase (.inr (.inl h.hand))

theorem takeFrame_taken {f : SiteFrame} (h : s.takeFrame f = some u) :
    Taken s (u.mapSite fun p => { p with restartArm := false }) := by
  unfold State.takeFrame at h
  split at h
  · rename_i can
    have none_ : s.site.inHand = none := by
      simp only [Port.canTake, Bool.and_eq_true] at can
      exact Option.isNone_iff_eq_none.mp can.1.1
    split at h
    · obtain rfl := Option.some.inj h
      exact ⟨rfl, rfl, rfl, rfl, none_, none_⟩
    · split at h
      · obtain rfl := Option.some.inj h
        exact ⟨rfl, rfl, rfl, rfl, none_, none_⟩
      · cases h
  · cases h

/-- R163: what a request does: nothing that the invariant sees, unless its owner carries it out. -/
theorem siteRequest_cases {type : Byte} {r : Req} {early fits : Bool} {owner : SiteFrame → State → State}
    {t : State} (h : siteRequest type r early fits owner s = .next t) :
    SameWork s t ∨ ∃ f u, Taken s u ∧ (s.site.phase = .open_ ∨ early = true) ∧ t = (owner f u).settle := by
  unfold siteRequest at h
  by_cases running : s.power = .running
  · rw [whileRunning_of_running _ _ running] at h
    obtain rfl := Host.Outcome.next.inj h
    dsimp only
    split
    · exact .inl ((receiveFrame_sameWork s _).trans (settle_sameWork _))
    · rename_i u took
      have taken := takeFrame_taken took
      split
      · exact .inl ((taken.sameWork.trans (reply_sameWork _ _ _ _)).trans (settle_sameWork _))
      · rename_i opened
        split
        · exact .inl ((taken.sameWork.trans (reply_sameWork _ _ _ _)).trans (settle_sameWork _))
        · refine .inr ⟨_, _, taken, ?_, rfl⟩
          by_cases phase : s.site.phase = .open_
          · exact .inl phase
          · exact .inr (by simpa [phase] using opened)
  · rw [whileRunning_of_down _ _ running] at h
    obtain rfl := Host.Outcome.next.inj h
    exact .inl (.refl s)

/-- A request whose owner leaves the pages and the work as they stand. -/
theorem siteRequest_sameWork {type : Byte} {r : Req} {early fits : Bool} {owner : SiteFrame → State → State}
    {t : State} (h : siteRequest type r early fits owner s = .next t)
    (carried : ∀ f u, Taken s u → SameWork u (owner f u)) : SameWork s t := by
  rcases siteRequest_cases h with same | ⟨f, u, taken, -, rfl⟩
  · exact same
  · exact (taken.sameWork.trans (carried f u taken)).trans (settle_sameWork _)

theorem whileRunning_cases {f : State → State} {t : State} (h : whileRunning f s = .next t) :
    t = s ∨ s.power = .running ∧ t = (f s).settle := by
  by_cases running : s.power = .running
  · rw [whileRunning_of_running _ _ running] at h
    exact .inr ⟨running, (Host.Outcome.next.inj h).symm⟩
  · rw [whileRunning_of_down _ _ running] at h
    exact .inl (Host.Outcome.next.inj h).symm

theorem whileRunning_sameWork {f : State → State} {t : State} (h : whileRunning f s = .next t)
    (same : SameWork s (f s)) : SameWork s t := by
  rcases whileRunning_cases h with rfl | ⟨-, rfl⟩
  · exact .refl t
  · exact same.trans (settle_sameWork _)

end

end Sys2Proof.Machine
end

section
/-! PROOF. The requests of the table that leave the pages and the running work as they stand, and the events of the
store that only read. -/

namespace Sys2Proof.Machine

section
variable (s : State)

/-! ### What the requests set -/

theorem stageEdit_sameWork (f : SiteFrame) (e : Edit) : SameWork s (s.stageEdit f e) :=
  ((mapBatch_sameWork s _ rfl).trans (restartIdle_sameWork _)).trans (reply_sameWork _ _ _ _)

theorem portLookup_sameWork (f : SiteFrame) (w : PortWait) (b : Badge) (opened : s.site.phase = .open_)
    (other : ∀ todo done, w ≠ .planning todo done) : SameWork s (s.portLookup f w b) :=
  .ite (reply_sameWork _ _ _ _) ((setInHand_sameWork s f w opened other).trans (placePrio_sameWork _ _))

theorem tryStage_sameWork (f : SiteFrame) (e : Edit) (opened : s.site.phase = .open_) :
    SameWork s (s.tryStage f e) :=
  .ite (reply_sameWork _ _ _ _) (.ite (stageEdit_sameWork _ _ _)
    (.ite (reply_sameWork _ _ _ _) (portLookup_sameWork s f _ _ opened (by simp))))

theorem stageResult_sameWork (f : SiteFrame) (e : Edit) (res : LookupResult) :
    SameWork s (s.stageResult f e res) := by
  refine .ite (reply_sameWork _ _ _ _) ?_
  split
  · exact reply_sameWork _ _ _ _
  · exact stageEdit_sameWork _ _ _
  · exact .ite (reply_sameWork _ _ _ _) (stageEdit_sameWork _ _ _)

theorem recordResult_sameWork (f : SiteFrame) (res : LookupResult) : SameWork s (s.recordResult f res) := by
  unfold State.recordResult
  split <;> exact reply_sameWork _ _ _ _

theorem portResult_sameWork (res : LookupResult) : SameWork s (s.portResult res) := by
  unfold State.portResult
  split
  · exact recordResult_sameWork _ _ _
  · exact stageResult_sameWork _ _ _ _
  · exact .refl s

theorem beginScan_sameWork (f : SiteFrame) (start : Badge) (opened : s.site.phase = .open_) :
    SameWork s (s.beginScan f start) :=
  (setInHand_sameWork s f _ opened (by simp)).trans (placePrio_sameWork _ _)

theorem scanPage_sameWork (f : SiteFrame) (start next : Badge) (gathered : List Record) (e : IndexEntry)
    (rs : List Record) (opened : s.site.phase = .open_) : SameWork s (s.scanPage f start next gathered e rs) :=
  .ite (setInHand_sameWork s f _ opened (by simp)) (.ite (setInHand_sameWork s f _ opened (by simp))
    ((setInHand_sameWork s f _ opened (by simp)).trans (placePrio_sameWork _ _)))

/-- R54, R163: a scan is in hand on an OPEN card alone; without one nothing is read. -/
theorem serveScan_sameWork (quiet : s.site.inHand ≠ none → s.site.phase = .open_) : SameWork s s.serveScan := by
  unfold State.serveScan
  split
  · rename_i waits
    have opened := quiet (by rw [waits]; simp)
    split
    · exact reply_sameWork _ _ _ _
    · rename_i e _
      have read := readFor_sameWork s e
      split
      · rename_i eq
        rw [eq] at read
        exact read.trans (reply_sameWork _ _ _ _)
      · rename_i eq
        rw [eq] at read
        exact read.trans (scanPage_sameWork _ _ _ _ _ _ _ (read.phase.trans opened))
  · exact .refl s

variable {s} in
theorem SameWork.reply {u : State} (h : SameWork s u) (f : SiteFrame) (x : Result) (d : List Byte) :
    SameWork s (u.reply f x d) :=
  h.trans (reply_sameWork u f x d)

variable {s} in
theorem SameWork.saved {u : State} (h : SameWork s u) : SameWork s u.queueSave :=
  h.trans (queueSave_sameWork u)

variable {s} in
theorem SameWork.noticed {u : State} (h : SameWork s u) (b : NoticeBody) : SameWork s (u.raiseNotice b) :=
  h.trans (raiseNotice_sameWork u b)

theorem settleMark_sameWork (c : Chan) : SameWork s (s.settleMark c) := by
  obtain ⟨f, q, touched⟩ := settleMark_touches s c
  rw [touched]
  exact .of_parts rfl rfl rfl rfl

theorem raiseOffline_sameWork (c : Chan) (x : ChanState) : SameWork s (s.raiseOffline c x) :=
  (raiseFault_sameWork _ _ _).trans (raiseNotice_sameWork _ _)

theorem reconfigure_sameWork (c : Chan) (cfg : ChanConfig) : SameWork s (s.reconfigure c cfg) := by
  have blanked (shown : Bool) : SameWork s (if shown then s.sendRecord c .blank else s) :=
    .ite (sendRecord_sameWork _ _ _) (.refl s)
  have marked (shown : Bool) (f : Channel → Channel) :=
    ((blanked shown).trans (mapReader_sameWork _ c f)).trans (settleMark_sameWork _ c)
  have set (shown : Bool) (f g : Channel → Channel) := (marked shown f).trans (mapReader_sameWork _ c g)
  exact .ite (set _ _ _) (.ite (set _ _ _) (.ite (set _ _ _) ((set _ _ _).trans (raiseOffline_sameWork _ _ _))))

theorem setChannel_sameWork (c : Chan) (cfg : ChanConfig) : SameWork s (s.setChannel c cfg) :=
  (SameWork.ite (mapReader_sameWork _ _ _) (reconfigure_sameWork _ _ _)).trans (queueSave_sameWork _)

theorem setGroup_sameWork (g : Group) (cfg : GroupConfig) : SameWork s (s.setGroup g cfg) :=
  ((mapRecall_sameWork s g _).trans (.ite (setRecall_sameWork _ _ _) (.refl _))).trans (queueSave_sameWork _)

theorem mapReplaced_sameWork (before : ZoneMap) : SameWork s (s.mapReplaced before) :=
  .foldl _ (fun s _ => .ite (raiseFault_sameWork s _ _) (.refl s)) _ _

theorem replaceMap_sameWork (z : ZoneMap) : SameWork s (s.replaceMap z) :=
  .saved (SameWork.trans (by exact .of_parts rfl rfl rfl rfl) (mapReplaced_sameWork _ _))

theorem reworkLine_sameWork : SameWork s s.reworkLine := mapFaults_sameWork s _

theorem clearFaults_sameWork (named : BitVec 12) : SameWork s (s.clearFaults named) := by
  refine ((mapFaults_sameWork s _).trans (.foldl _ (fun s k => ?_) _ _)).trans (reworkLine_sameWork _)
  split
  · exact raiseFault_sameWork _ _ _
  · exact .refl s

theorem engineRead_sameWork (b : Badge) (now : Bool) : SameWork s (s.engineRead b now) := by
  unfold State.engineRead
  refine (lookup_sameWork s b).trans (.ite (engineResult_sameWork _ _) ?_)
  split
  · exact .of_parts rfl rfl rfl rfl
  · exact .refl _

theorem portRead_sameWork (b : Badge) : SameWork s (s.portRead b) :=
  (lookup_sameWork s b).trans (portResult_sameWork _ _)

end

/-! ### The requests -/

section
variable {s t : State} {r : Req}

theorem open_of_late {type : Byte} {fits : Bool} {owner : SiteFrame → State → State}
    (h : siteRequest type r false fits owner s = .next t)
    (carried : ∀ f u, Taken s u → u.site.phase = .open_ → SameWork u (owner f u)) : SameWork s t := by
  rcases siteRequest_cases h with same | ⟨f, u, taken, opened, rfl⟩
  · exact same
  · have phase : u.site.phase = .open_ := taken.phase.trans (opened.resolve_right (by decide))
    exact (taken.sameWork.trans (carried f u taken phase)).trans (settle_sameWork _)

/-- A request that is only answered. -/
theorem answer_sameWork {type : Byte} {early fits : Bool} {x : SiteFrame → State → Result}
    {d : SiteFrame → State → List Byte}
    (h : siteRequest type r early fits (fun f u => u.reply f (x f u) (d f u)) s = .next t) : SameWork s t :=
  siteRequest_sameWork h fun _ _ _ => reply_sameWork _ _ _ _

theorem execClockSet_sameWork (h : execClockSet r s = .next t) : SameWork s t :=
  siteRequest_sameWork h fun _ _ _ => .ite (reply_sameWork _ _ _ _)
    (.reply (.noticed (by exact .of_parts rfl rfl rfl rfl) _) _ _ _)

theorem execBatchAbandon_sameWork (h : execBatchAbandon r s = .next t) : SameWork s t :=
  siteRequest_sameWork h fun f u taken => by
    split
    · exact reply_sameWork _ _ _ _
    · exact reply_sameWork _ _ _ _
    · exact (closeBatch_sameWork u (isPlanning_of_none taken.hand)).trans (reply_sameWork _ _ _ _)

theorem execStagePut_sameWork (h : execStagePut r s = .next t) : SameWork s t :=
  open_of_late h fun _ _ _ opened => .ite (reply_sameWork _ _ _ _) (by
    split
    · exact reply_sameWork _ _ _ _
    · exact tryStage_sameWork _ _ _ opened)

theorem execStageDrop_sameWork (h : execStageDrop r s = .next t) : SameWork s t :=
  open_of_late h fun _ _ _ opened => .ite (reply_sameWork _ _ _ _)
    (.ite (reply_sameWork _ _ _ _) (tryStage_sameWork _ _ _ opened))

theorem execRecordRead_sameWork (h : execRecordRead r s = .next t) : SameWork s t :=
  open_of_late h fun _ _ _ opened => .ite (reply_sameWork _ _ _ _) (portLookup_sameWork _ _ _ _ opened (by simp))

theorem execDirectoryScan_sameWork (h : execDirectoryScan r s = .next t) : SameWork s t :=
  open_of_late h fun _ _ _ opened => .ite (reply_sameWork _ _ _ _) (.ite (by
    split
    · exact beginScan_sameWork _ _ _ opened
    · exact reply_sameWork _ _ _ _) (beginScan_sameWork _ _ _ opened))

theorem execProfileWrite_sameWork (h : execProfileWrite r s = .next t) : SameWork s t :=
  siteRequest_sameWork h fun _ _ _ => .ite (reply_sameWork _ _ _ _) (by
    split
    · exact reply_sameWork _ _ _ _
    · exact .reply (by exact .of_parts rfl rfl rfl rfl) _ _ _)

theorem execHolidayWrite_sameWork (h : execHolidayWrite r s = .next t) : SameWork s t :=
  siteRequest_sameWork h fun _ _ _ => .ite (reply_sameWork _ _ _ _) (by
    split
    · exact reply_sameWork _ _ _ _
    · exact .reply (.saved (by exact .of_parts rfl rfl rfl rfl)) _ _ _)

theorem execProfileRead_sameWork (h : execProfileRead r s = .next t) : SameWork s t :=
  siteRequest_sameWork h fun _ _ _ => .ite (reply_sameWork _ _ _ _) (reply_sameWork _ _ _ _)

theorem execSwitchArm_sameWork (h : execSwitchArm r s = .next t) : SameWork s t :=
  siteRequest_sameWork h fun _ u _ => .ite (reply_sameWork _ _ _ _)
    (.reply (by exact .of_parts rfl rfl rfl rfl) _ _ _)

theorem execSwitchDisarm_sameWork (h : execSwitchDisarm r s = .next t) : SameWork s t :=
  siteRequest_sameWork h fun _ u _ => .ite (reply_sameWork _ _ _ _)
    (.reply (by exact .of_parts rfl rfl rfl rfl) _ _ _)

theorem execZoneWrite_sameWork (h : execZoneWrite r s = .next t) : SameWork s t :=
  siteRequest_sameWork h fun _ _ _ => .ite (reply_sameWork _ _ _ _) (by
    split
    · exact reply_sameWork _ _ _ _
    · exact (replaceMap_sameWork _ _).trans (reply_sameWork _ _ _ _))

theorem execChannelSet_sameWork (h : execChannelSet r s = .next t) : SameWork s t :=
  siteRequest_sameWork h fun _ _ _ => by
    split
    · exact reply_sameWork _ _ _ _
    · exact (setChannel_sameWork _ _ _).trans (reply_sameWork _ _ _ _)

theorem execChannelRead_sameWork (h : execChannelRead r s = .next t) : SameWork s t :=
  siteRequest_sameWork h fun _ _ _ => by
    split <;> exact reply_sameWork _ _ _ _

theorem execGroupSet_sameWork (h : execGroupSet r s = .next t) : SameWork s t :=
  siteRequest_sameWork h fun _ _ _ => .ite (reply_sameWork _ _ _ _) (by
    split
    · exact reply_sameWork _ _ _ _
    · exact (setGroup_sameWork _ _ _).trans (reply_sameWork _ _ _ _))

theorem execGroupRead_sameWork (h : execGroupRead r s = .next t) : SameWork s t :=
  siteRequest_sameWork h fun _ _ _ => by
    split <;> exact reply_sameWork _ _ _ _

theorem execGroupResume_sameWork (h : execGroupResume r s = .next t) : SameWork s t :=
  siteRequest_sameWork h fun _ _ _ => by
    split
    · split
      · exact (setRecall_sameWork _ _ _).trans (reply_sameWork _ _ _ _)
      · exact reply_sameWork _ _ _ _
      · exact reply_sameWork _ _ _ _
    · exact reply_sameWork _ _ _ _

theorem execTransferPurge_sameWork (h : execTransferPurge r s = .next t) : SameWork s t :=
  siteRequest_sameWork h fun _ u _ => .ite (reply_sameWork _ _ _ _)
    (.ite (.reply (by exact .of_parts rfl rfl rfl rfl) _ _ _)
      (reply_sameWork _ _ _ _))

theorem execNoticeSet_sameWork (h : execNoticeSet r s = .next t) : SameWork s t :=
  siteRequest_sameWork h fun _ u _ =>
    ((mapNotices_sameWork u _).trans (queueSave_sameWork _)).trans (reply_sameWork _ _ _ _)

theorem execFaultClear_sameWork (h : execFaultClear r s = .next t) : SameWork s t :=
  siteRequest_sameWork h fun _ _ _ => .ite (reply_sameWork _ _ _ _)
    ((clearFaults_sameWork _ _).trans (reply_sameWork _ _ _ _))

theorem execFaultSet_sameWork (h : execFaultSet r s = .next t) : SameWork s t :=
  siteRequest_sameWork h fun _ u _ => .ite (reply_sameWork _ _ _ _) (.ite (reply_sameWork _ _ _ _)
    ((((mapFaults_sameWork u _).trans (reworkLine_sameWork _)).trans (queueSave_sameWork _)).trans
      (reply_sameWork _ _ _ _)))

theorem execTimingSet_sameWork (h : execTimingSet r s = .next t) : SameWork s t :=
  siteRequest_sameWork h fun _ u _ => .ite (reply_sameWork _ _ _ _)
    (.reply (.saved (by exact .of_parts rfl rfl rfl rfl)) _ _ _)

theorem execRestartArm_sameWork (h : execRestartArm r s = .next t) : SameWork s t :=
  siteRequest_sameWork h fun _ _ _ =>
    .reply (by exact .of_site rfl rfl rfl rfl (.inl rfl)) _ _ _

theorem execRestart_sameWork (h : execRestart r s = .next t) : SameWork s t :=
  siteRequest_sameWork h fun _ _ _ => .ite (handOver_sameWork _ _) (reply_sameWork _ _ _ _)

theorem execUnknownType_sameWork {type : Byte} (h : execUnknownType type r s = .next t) : SameWork s t := by
  unfold execUnknownType at h
  split at h
  · exact whileRunning_sameWork h (receiveFrame_sameWork _ _)
  · exact answer_sameWork h

/-! ### Other events -/

theorem execUnknownReaderFrame_sameWork {c : Chan} {type : Byte} {p : List Byte}
    (h : execUnknownReaderFrame c type p s = .next t) : SameWork s t :=
  whileRunning_sameWork h ((lineFrame_sameWork s c).trans (.ite (.ite (takeBadge_sameWork _ _ _)
    (.ite (takeKey_sameWork _ _ _) (.refl _))) (.refl _)))

theorem execFirstStableLevel_sameWork {i : Input} (h : execFirstStableLevel i s = .next t) : SameWork s t :=
  whileRunning_sameWork h (by
    split
    · exact .refl s
    · rename_i done
      refine (countDone_sameWork s done).trans ?_
      split
      · exact fixRecall_sameWork _ _
      · exact .refl _)

theorem execServiceKeyChange_sameWork (h : execServiceKeyChange s = .next t) : SameWork s t :=
  whileRunning_sameWork h (by
    cases done : s.countDone .key false with
    | none => exact .refl s
    | some u => exact countDone_sameWork s done)

theorem execByteGapTimeout_sameWork {l : Link} {late : Option Byte}
    (h : execByteGapTimeout l late s = .next t) : SameWork s t :=
  whileRunning_sameWork h (by
    split
    · exact .refl s
    · split
      · rename_i reached
        exact ((reach_sameWork s reached).trans (setRx_sameWork _ _ _)).trans (raiseDiscard_sameWork _ _ _)
      · exact .refl s)

theorem execFrameDiscard_sameWork {l : Link} {bs : List Byte} (h : execFrameDiscard l bs s = .next t) :
    SameWork s t :=
  whileRunning_sameWork h (by
    split
    · exact (setRx_sameWork _ _ _).trans (raiseDiscard_sameWork _ _ _)
    · exact .refl s)

theorem execUnknownGroupFrame_sameWork {g : Group} {type : Byte} {p : List Byte}
    (h : execUnknownGroupFrame g type p s = .next t) : SameWork s t :=
  whileRunning_sameWork h (.ite (.refl s) ((setRx_sameWork _ _ _).trans (raiseFault_sameWork _ _ _)))

/-! ### Requests that are only answered -/

theorem execIdentify_sameWork (h : execIdentify r s = .next t) : SameWork s t := answer_sameWork h

theorem execStatus_sameWork (h : execStatus r s = .next t) : SameWork s t := answer_sameWork h

theorem execClockRead_sameWork (h : execClockRead r s = .next t) : SameWork s t := answer_sameWork h

theorem execStoreStatus_sameWork (h : execStoreStatus r s = .next t) : SameWork s t := answer_sameWork h

theorem execHolidayRead_sameWork (h : execHolidayRead r s = .next t) : SameWork s t := answer_sameWork h

theorem execZoneRead_sameWork (h : execZoneRead r s = .next t) : SameWork s t := answer_sameWork h

theorem execTransferRead_sameWork (h : execTransferRead r s = .next t) : SameWork s t := answer_sameWork h

theorem execFaultRead_sameWork (h : execFaultRead r s = .next t) : SameWork s t := answer_sameWork h

theorem execTimingRead_sameWork (h : execTimingRead r s = .next t) : SameWork s t := answer_sameWork h

/-! ### The deadlines -/

section
variable {c : Chan} {g : Group} {tag : Byte} {car : Car}

theorem execSecondEvent_sameWork (h : execSecondEvent s = .next t) : SameWork s t :=
  whileRunning_sameWork h (secondEvent_sameWork s _ .refl)

theorem execMinuteBoundary_sameWork (h : execMinuteBoundary s = .next t) : SameWork s t :=
  whileRunning_sameWork h (.ite (secondEvent_sameWork s _ .refl) (.refl s))

theorem execBatchExpired_sameWork (h : execBatchExpired s = .next t) : SameWork s t :=
  whileRunning_sameWork h (deadlineEvent_sameWork s _ _ checkBatch_sameWork)

theorem execReaderOffline_sameWork (h : execReaderOffline c s = .next t) : SameWork s t :=
  whileRunning_sameWork h (deadlineEvent_sameWork s _ _ fun u => checkSilence_sameWork u c)

theorem execDisplayDeadline_sameWork (h : execDisplayDeadline c s = .next t) : SameWork s t :=
  whileRunning_sameWork h (deadlineEvent_sameWork s _ _ fun u => checkDisplay_sameWork u c)

theorem execStartingDisplayEnd_sameWork (h : execStartingDisplayEnd c s = .next t) : SameWork s t :=
  whileRunning_sameWork h (deadlineEvent_sameWork s _ _ fun u => checkDisplay_sameWork u c)

theorem execInterKeyTimeout_sameWork (h : execInterKeyTimeout c s = .next t) : SameWork s t :=
  whileRunning_sameWork h (entryTimeout_sameWork s c _)

theorem execBadgeWaitTimeout_sameWork (h : execBadgeWaitTimeout c s = .next t) : SameWork s t :=
  whileRunning_sameWork h (entryTimeout_sameWork s c _)

theorem execReplyDeadline_sameWork (h : execReplyDeadline g tag s = .next t) : SameWork s t :=
  whileRunning_sameWork h (deadlineEvent_sameWork s _ _ fun u => checkReply_sameWork u g tag)

theorem execCancelDeadline_sameWork (h : execCancelDeadline g tag s = .next t) : SameWork s t :=
  whileRunning_sameWork h (deadlineEvent_sameWork s _ _ fun u => checkCancel_sameWork u g tag)

theorem execHoldExpiry_sameWork (h : execHoldExpiry g car s = .next t) : SameWork s t :=
  whileRunning_sameWork h (deadlineEvent_sameWork s _ _ fun u => checkHold_sameWork u g car)

theorem execLinkSilent_sameWork (h : execLinkSilent g s = .next t) : SameWork s t :=
  whileRunning_sameWork h (deadlineEvent_sameWork s _ _ fun u => checkLink_sameWork u g)

end

/-! ### The lines -/

section
variable {c : Chan} {g : Group} {tag car : Byte}

theorem execBadge_sameWork {badge : BitVec 40} (h : execBadge c badge s = .next t) : SameWork s t :=
  whileRunning_sameWork h ((lineFrame_sameWork s c).trans (takeBadge_sameWork _ c _))

theorem execKey_sameWork {key : Byte} (h : execKey c key s = .next t) : SameWork s t :=
  whileRunning_sameWork h ((lineFrame_sameWork s c).trans (takeKey_sameWork _ c key))

theorem execAlive_sameWork (h : execAlive c s = .next t) : SameWork s t :=
  whileRunning_sameWork h (lineFrame_sameWork s c)

theorem execGroupState_sameWork {accepting : Byte} (h : execGroupState g accepting s = .next t) : SameWork s t :=
  whileRunning_sameWork h ((setRx_sameWork s _ _).trans (takeGroupState_sameWork _ g _))

theorem execCarState_sameWork {landing motion door inService : Byte}
    (h : execCarState g car landing motion door inService s = .next t) : SameWork s t :=
  whileRunning_sameWork h ((setRx_sameWork s _ _).trans (takeCarState_sameWork _ g _ _ _ _ _))

theorem execAssign_sameWork (h : execAssign g tag car s = .next t) : SameWork s t :=
  whileRunning_sameWork h ((setRx_sameWork s _ _).trans (takeAssign_sameWork _ g tag car))

theorem execEnabled_sameWork (h : execEnabled g tag s = .next t) : SameWork s t :=
  whileRunning_sameWork h ((setRx_sameWork s _ _).trans (takeEnabled_sameWork _ g tag))

theorem execRefuse_sameWork (h : execRefuse g tag s = .next t) : SameWork s t :=
  whileRunning_sameWork h ((setRx_sameWork s _ _).trans (takeRefusal_sameWork _ g tag))

theorem execCancelled_sameWork (h : execCancelled g tag s = .next t) : SameWork s t :=
  whileRunning_sameWork h ((setRx_sameWork s _ _).trans (takeRefusal_sameWork _ g tag))

end

theorem execRawLevelChange_sameWork {i : Input} {level : Level} (h : execRawLevelChange i level s = .next t) :
    SameWork s t := by
  obtain rfl := Host.Outcome.next.inj h
  exact mapInput_sameWork s i _

theorem execLineBecomesActive_sameWork {g : Group} (h : execLineBecomesActive g s = .next t) : SameWork s t :=
  whileRunning_sameWork h (lineChange_sameWork s g true)

theorem execLineBecomesInactive_sameWork {g : Group} (h : execLineBecomesInactive g s = .next t) : SameWork s t :=
  whileRunning_sameWork h (lineChange_sameWork s g false)

theorem execSiteFrameReceive_sameWork {type : Byte} (h : execSiteFrameReceive type r s = .next t) : SameWork s t :=
  whileRunning_sameWork h (receiveFrame_sameWork s _)

theorem execInFrame_sameWork {l : Link} {byte : Byte} (h : execInFrame l s byte = .next t) : SameWork s t :=
  whileRunning_sameWork h (setRx_sameWork s _ _)

end

end Sys2Proof.Machine
end

section
/-! PROOF. The invariant of the pages and the running work, taken apart: what it says of the index and the store,
and how each change of the store keeps it. -/

namespace Sys2Proof.Machine

/-! ### The invariant in parts -/

/-- What CopiesTile, CopiesHeld and WorkInPhase say of one work. -/
structure WorkFits (s : State) (w : Work) : Prop where
  tile : w.phase ≠ .reading →
    Partition ((s.dir.index.filter fun e => !w.released.contains e.page).map IndexEntry.range
      ++ w.copies.map Copy.range)
  nodup : w.heldPages.Nodup
  held : ∀ c ∈ w.copies, ∀ p, c.page = some p → s.store.stateOf p = .stale .held ∧ CarriesRange s.store p c
  records : ∀ c ∈ w.copies, c.records.length ≤ 64
  released : ∀ p ∈ w.released, ∃ e ∈ s.dir.index, e.page = p
  logging : w.phase = .logging → w.unprogrammed = 0
  read : w.phase ≠ .reading → w.todo = []
  reading : w.phase = .reading → w.copies = [] ∧ (∃ read, s.dir.index = read ++ w.todo)
    ∧ orderedWithin 1 topBadge w.gathered = true ∧ ∀ r ∈ w.gathered, ∀ e ∈ w.todo, r.badge < e.low

/-- What WorkRight says of the index and the store. -/
structure CoreRight (s : State) : Prop where
  apart : IndexApart s
  pages : PagesRight s.store
  fits : ∀ w, s.store.work = some w → WorkFits s w
  array : ArrayOnWork s
  eraseQueue : EraseQueueRight s

section
variable {s t : State}

theorem WorkRight.core (h : WorkRight s) : CoreRight s where
  apart := h.apart
  pages := h.pages
  fits w running := by
    obtain ⟨records, released, logging, read, reading⟩ := h.inPhase w running
    obtain ⟨nodup, held⟩ := h.held w running
    exact ⟨h.tile w running, nodup, held, records, released, logging, read, reading⟩
  array := h.array
  eraseQueue := h.eraseQueue

theorem CoreRight.workRight (h : CoreRight s) (plan : PlanRight s) (quiet : StoreQuietUntilOpen s) :
    WorkRight s where
  apart := h.apart
  pages := h.pages
  tile w running := (h.fits w running).tile
  held w running := ⟨(h.fits w running).nodup, (h.fits w running).held⟩
  inPhase w running :=
    have f := h.fits w running
    ⟨f.records, f.released, f.logging, f.read, f.reading⟩
  array := h.array
  eraseQueue := h.eraseQueue
  plan := plan
  quiet := quiet

/-- The held pages stay held, with the ranges they carry. -/
def HeldStays (st st' : Store) : Prop :=
  ∀ p, st.stateOf p = .stale .held → st'.stateOf p = .stale .held ∧ ∀ c, CarriesRange st p c → CarriesRange st' p c

theorem HeldStays.of_same {st st' : Store} (pages : st'.pages = st.pages) (states : st'.pageState = st.pageState) :
    HeldStays st st' := fun p held => by
  have state : st'.stateOf p = st.stateOf p := by rw [Store.stateOf, Store.stateOf, states]
  have page : st'.page p = st.page p := by rw [Store.page, Store.page, pages]
  exact ⟨state.trans held, fun c => (carriesRange_congr page c).mpr⟩

theorem WorkFits.of_held {w : Work} (h : WorkFits s w) (index : t.dir.index = s.dir.index)
    (stays : HeldStays s.store t.store) : WorkFits t w where
  tile := by rw [index]; exact h.tile
  nodup := h.nodup
  held c mem p page := by
    obtain ⟨held, carries⟩ := h.held c mem p page
    obtain ⟨held', kept⟩ := stays p held
    exact ⟨held', kept c carries⟩
  records := h.records
  released := by rw [index]; exact h.released
  logging := h.logging
  read := h.read
  reading := by rw [index]; exact h.reading

/-- The operation, the queue and the work may change where the index, the pages and the erase queue stand. -/
theorem CoreRight.of_pages (h : CoreRight s) (index : t.dir.index = s.dir.index)
    (pages : t.store.pages = s.store.pages) (states : t.store.pageState = s.store.pageState)
    (erases : t.store.eraseQ = s.store.eraseQ) (fits : ∀ w, t.store.work = some w → WorkFits s w)
    (array : ArrayOnWork t) : CoreRight t := by
  have state (p : Page) : t.store.stateOf p = s.store.stateOf p := by rw [Store.stateOf, Store.stateOf, states]
  have page (p : Page) : t.store.page p = s.store.page p := by rw [Store.page, Store.page, pages]
  exact {
    apart := by simpa only [IndexApart, index, state] using h.apart
    pages := by simpa only [PagesRight, HeadersInRange, page] using h.pages
    fits := fun w running => (fits w running).of_held index (.of_same pages states)
    array := array
    eraseQueue := by simpa only [EraseQueueRight, erases, state] using h.eraseQueue }

theorem CoreRight.congr (h : CoreRight s) (index : t.dir.index = s.dir.index) (store : t.store = s.store) :
    CoreRight t :=
  h.of_pages index (by rw [store]) (by rw [store]) (by rw [store]) (fun w runs => h.fits w (store ▸ runs))
    (by simpa only [ArrayOnWork, store] using h.array)

theorem SameWork.coreRight (h : SameWork s t) (r : CoreRight s) : CoreRight t := by
  refine r.of_pages h.index h.pages h.states h.erases (fun w runs => r.fits w (h.work.symm.trans runs)) ?_
  obtain ⟨program, erase, mark, once, logging⟩ := r.array
  obtain ⟨q, joined, none_⟩ := h.queue
  simp only [ArrayOnWork, h.op, h.work, h.stateOf, carriesRange_congr (h.page _), h.mem_queue_iff]
  refine ⟨program, erase, fun running => ?_, ?_, logging⟩
  · rw [joined, List.head?_append, mark running]
    rfl
  · rw [joined, List.count_append, List.count_eq_zero_of_not_mem none_]
    exact once

theorem SameWork.workRight (h : SameWork s t) (r : WorkRight s) : WorkRight t :=
  (h.coreRight r.core).workRight (h.planRight r.plan) (h.quiet r.quiet)

/-! ### The array's operation and the work queue -/

/-- The array works on no copy of the running work and marks no number. -/
def ArrayApart (s : State) : Prop :=
  (∀ i p, s.store.op.map ArrayOp.kind ≠ some (.program i p)) ∧ s.store.op.map ArrayOp.kind ≠ some .logMark

theorem arrayApart_of_none (h : s.store.op = none) : ArrayApart s := by
  simp [ArrayApart, h]

/-- While the array does nothing only the MARK in the work queue speaks of the work. -/
theorem arrayOnWork_of_none (op : s.store.op = none) (once : s.store.workQ.count .logMark ≤ 1)
    (logging : .logMark ∈ s.store.workQ → ∃ w, s.store.work = some w ∧ w.phase = .logging) : ArrayOnWork s := by
  have none_ {k : OpKind} : s.store.op.map ArrayOp.kind ≠ some k := by simp [op]
  exact ⟨fun _ _ k => absurd k none_, fun _ k => absurd k none_, fun k => absurd k none_, once, logging⟩

theorem CoreRight.endOp (h : CoreRight s) : CoreRight s.endOp := by
  obtain ⟨-, -, -, once, logging⟩ := h.array
  exact h.of_pages rfl rfl rfl rfl h.fits (arrayOnWork_of_none rfl once logging)

theorem CoreRight.dropWork (h : CoreRight s) (op : s.store.op = none) : CoreRight s.dropWork := by
  obtain ⟨-, -, -, once, logging⟩ := h.array
  have tail : List.Sublist s.dropWork.store.workQ s.store.workQ := List.tail_sublist _
  exact h.of_pages rfl rfl rfl rfl h.fits (arrayOnWork_of_none op ((tail.count_le _).trans once) fun mem =>
    logging (tail.mem mem))

/-- An operation that the array may take up: an erase of a page that is ERASING, of a log page, or a step of a
settings save. -/
theorem CoreRight.withOp (h : CoreRight s) (o : Option ArrayOp)
    (array : ArrayOnWork (s.mapStore fun st => { st with op := o })) :
    CoreRight (s.mapStore fun st => { st with op := o }) :=
  h.of_pages rfl rfl rfl rfl h.fits array

/-- The work queue changes behind a MARK that runs, and no MARK joins it. -/
theorem CoreRight.withQueue (h : CoreRight s) (q : List WorkEntry)
    (head : s.store.op.map ArrayOp.kind = some .logMark → q.head? = some .logMark)
    (once : q.count .logMark ≤ 1)
    (logging : .logMark ∈ q → ∃ w, s.store.work = some w ∧ w.phase = .logging) :
    CoreRight (s.mapStore fun st => { st with workQ := q }) := by
  obtain ⟨program, erase, -, -, -⟩ := h.array
  exact h.of_pages rfl rfl rfl rfl h.fits ⟨program, erase, head, once, logging⟩

/-- R60: entries that join the tail. -/
theorem CoreRight.joinQueue (h : CoreRight s) (q : List WorkEntry) (none_ : WorkEntry.logMark ∉ q) :
    CoreRight (s.mapStore fun st => { st with workQ := st.workQ ++ q }) := by
  obtain ⟨-, -, mark, once, logging⟩ := h.array
  refine h.withQueue _ (fun running => ?_) ?_ fun mem => logging ?_
  · rw [List.head?_append, mark running]
    rfl
  · rw [List.count_append, List.count_eq_zero_of_not_mem none_]
    exact once
  · exact (List.mem_append.mp mem).resolve_right none_

/-! ### Pages -/

/-- A page that is no DATA page, no held copy and not in the erase queue may change, as long as the array does
nothing. -/
theorem CoreRight.setPage (h : CoreRight s) {p : Page} {d : DirPage} {x : PageState} (op : s.store.op = none)
    (image : ∀ y, d.contents = .programmed y → (1 ≤ y.low ∧ y.high ≤ topBadge) ∧ y.records.length ≤ 64)
    (data : s.store.stateOf p ≠ .data) (held : s.store.stateOf p ≠ .stale .held) (waits : p ∉ s.store.eraseQ) :
    CoreRight (s.mapStore fun st => (st.setPage p d).setState p x) := by
  have state {q : Page} (ne : q ≠ p) :
      (s.mapStore fun st => (st.setPage p d).setState p x).store.stateOf q = s.store.stateOf q :=
    stateOf_setState_of_ne _ _ _ x ne
  have page {q : Page} (ne : q ≠ p) :
      (s.mapStore fun st => (st.setPage p d).setState p x).store.page q = s.store.page q :=
    page_setPage_of_ne _ _ _ d ne
  obtain ⟨apart, pages, entries⟩ := h.apart
  obtain ⟨-, -, -, once, logging⟩ := h.array
  obtain ⟨nodup, stale⟩ := h.eraseQueue
  exact {
    apart := ⟨apart, pages, fun e mem => by
      obtain ⟨low, le, high, dat⟩ := entries e mem
      exact ⟨low, le, high, (state fun eq => data (eq ▸ dat)).trans dat⟩⟩
    pages := by
      have each (q : Page) (y : PageImage)
          (img : ((s.store.setPage p d).page q).contents = .programmed y) :
          (1 ≤ y.low ∧ y.high ≤ topBadge) ∧ y.records.length ≤ 64 := by
        by_cases eq : q = p
        · subst eq
          rw [page_setPage] at img
          exact image y img
        · rw [page_setPage_of_ne _ _ _ _ eq] at img
          exact ⟨h.pages.1 q y img, h.pages.2 q y img⟩
      exact ⟨fun q y img => (each q y img).1, fun q y img => (each q y img).2⟩
    fits := fun w running => (h.fits w running).of_held rfl fun q stands => by
      have ne : q ≠ p := fun eq => held (eq ▸ stands)
      exact ⟨(state ne).trans stands, fun c => (carriesRange_congr (page ne) c).mpr⟩
    array := arrayOnWork_of_none op once logging
    eraseQueue := ⟨nodup, fun q mem => by
      rw [state fun eq => waits (eq ▸ mem)]
      exact stale q mem⟩ }

/-- A page that is being written or erased is no DATA page, no held copy and not in the erase queue. -/
theorem CoreRight.setBusy (h : CoreRight s) {p : Page} {d : DirPage} {x : PageState} (op : s.store.op = none)
    (image : ∀ y, d.contents = .programmed y → (1 ≤ y.low ∧ y.high ≤ topBadge) ∧ y.records.length ≤ 64)
    (busy : s.store.stateOf p = .writing ∨ (s.store.stateOf p).isErasing = true) :
    CoreRight (s.mapStore fun st => (st.setPage p d).setState p x) := by
  have other {y : PageState} (no : y ≠ .writing) (no' : y.isErasing = false) : s.store.stateOf p ≠ y := by
    rintro rfl
    rcases busy with w | e
    · exact no w
    · exact absurd (no'.symm.trans e) (by decide)
  refine h.setPage op image (other (by decide) rfl) (other (by decide) rfl) fun mem => ?_
  rcases h.eraseQueue.2 p mem with eq | eq
  · exact other (by decide) rfl eq
  · exact other (by decide) rfl eq

/-- What a page carries stays in range when only its marks and its complete mark change. -/
theorem CoreRight.image (h : CoreRight s) (p : Page) (y : PageImage)
    (img : (s.store.page p).contents = .programmed y) :
    (1 ≤ y.low ∧ y.high ≤ topBadge) ∧ y.records.length ≤ 64 :=
  ⟨h.pages.1 p y img, h.pages.2 p y img⟩

/-- R58: a page is retired with what it holds. -/
theorem CoreRight.retire (h : CoreRight s) {p : Page} (op : s.store.op = none)
    (busy : s.store.stateOf p = .writing ∨ (s.store.stateOf p).isErasing = true) :
    CoreRight (s.mapStore fun st => st.retire p) :=
  h.setBusy (d := { s.store.page p with retired := true }) op (h.image p) busy

end

end Sys2Proof.Machine
end

section
/-! PROOF. The operations that the array takes up, the work queue and the ends of the running work keep the
invariant of the pages. -/

namespace Sys2Proof.Machine

/-! ### What an event of the store leaves of the rest -/

/-- The index, the condition, the phase and the request in hand stand; a work that ends may close the batch, and no
work begins. Until admission opens the array takes nothing up. -/
structure AroundStore (s t : State) : Prop where
  index : t.dir.index = s.dir.index
  condition : t.dir.condition = s.dir.condition
  phase : t.site.phase = s.site.phase
  hand : t.site.inHand = s.site.inHand
  batch : t.batch.state = s.batch.state ∨ t.batch.state = .closed ∧ s.store.work ≠ none
  work : s.store.work = none → t.store.work = none
  array : s.site.phase ≠ .open_ → s.store.op = none → t.store.op = none

section
variable {s t u : State}

theorem AroundStore.refl (s : State) : AroundStore s s := ⟨rfl, rfl, rfl, rfl, .inl rfl, id, fun _ => id⟩

theorem AroundStore.trans (h : AroundStore s t) (k : AroundStore t u) : AroundStore s u where
  index := k.index.trans h.index
  condition := k.condition.trans h.condition
  phase := k.phase.trans h.phase
  hand := k.hand.trans h.hand
  batch := by
    rcases k.batch with same | ⟨closed, runs⟩
    · rcases h.batch with before | ⟨closed, runs⟩
      · exact .inl (same.trans before)
      · exact .inr ⟨same.trans closed, runs⟩
    · exact .inr ⟨closed, fun none_ => runs (h.work none_)⟩
  work none_ := k.work (h.work none_)
  array phase none_ := k.array (h.phase ▸ phase) (h.array phase none_)

theorem AroundStore.ite {c : Prop} [Decidable c] (h : AroundStore s t) (k : AroundStore s u) :
    AroundStore s (if c then t else u) := by
  split
  · exact h
  · exact k

theorem mapStore_around (s : State) (f : Store → Store) (work : (f s.store).work = s.store.work)
    (op : (f s.store).op = s.store.op ∨ (f s.store).op = none) : AroundStore s (s.mapStore f) :=
  ⟨rfl, rfl, rfl, rfl, .inl rfl, fun none_ => work.trans none_, fun _ none_ => by
    rcases op with same | gone
    · exact same.trans none_
    · exact gone⟩

/-- Beside the faults and the notices nothing has changed. -/
theorem AroundStore.of_parts (dir : t.dir = s.dir) (store : t.store = s.store) (batch : t.batch = s.batch)
    (site : t.site = s.site) : AroundStore s t :=
  ⟨by rw [dir], by rw [dir], by rw [site], by rw [site], .inl (by rw [batch]), by rw [store]; exact id,
    fun _ => by rw [store]; exact id⟩

theorem raiseFault_around (s : State) (k : FaultKind) (d : Nat) : AroundStore s (s.raiseFault k d) := by
  obtain ⟨f, ns, touched⟩ := raiseFault_touches s k d
  rw [touched]
  exact .of_parts rfl rfl rfl rfl

theorem checkSpare_around (s : State) (n : Nat) : AroundStore s (s.checkSpare n) :=
  .ite (raiseFault_around _ _ _) (.refl s)

theorem mapWork_around (s : State) (f : Work → Work) : AroundStore s (s.mapWork f) :=
  ⟨rfl, rfl, rfl, rfl, .inl rfl, fun none_ => by
    show s.store.work.map f = none
    rw [none_]
    rfl, fun _ => id⟩

theorem endOp_around (s : State) : AroundStore s s.endOp := mapStore_around s _ rfl (.inr rfl)

theorem dropWork_around (s : State) : AroundStore s s.dropWork := mapStore_around s _ rfl (.inl rfl)

/-- R71, R80, R84, R162: the batch, the request in hand and the quiet before the opening, after an event of the
store. -/
theorem AroundStore.workRight (h : AroundStore s t) (r : WorkRight s) (core : CoreRight t) : WorkRight t := by
  refine core.workRight ⟨fun opened => ?_, fun f todo done waits => ?_⟩ fun phase => ?_
  · rw [h.condition]
    have before : s.batch.state = .open_ := by
      rcases h.batch with same | ⟨closed, -⟩
      · exact same.symm.trans opened
      · exact absurd (closed.symm.trans opened) (by decide)
    obtain ⟨condition, none_⟩ := r.plan.1 before
    exact ⟨condition, h.work none_⟩
  · obtain ⟨opened, passed⟩ := r.plan.2 f todo done (h.hand.symm.trans waits)
    refine ⟨?_, passed⟩
    rcases h.batch with same | ⟨-, runs⟩
    · exact same.trans opened
    · exact absurd (r.plan.1 opened).2 runs
  · rw [h.phase] at phase
    obtain ⟨batch, hand, work, op⟩ := r.quiet phase
    refine ⟨?_, h.hand.trans hand, h.work work, h.array phase op⟩
    rcases h.batch with same | ⟨closed, -⟩
    · exact same.trans batch
    · exact closed

/-! ### Operations that begin -/

theorem arrayOnWork_of_kind (h : ArrayOnWork s) {o : Option ArrayOp}
    (same : o.map ArrayOp.kind = s.store.op.map ArrayOp.kind) :
    ArrayOnWork (s.mapStore fun st => { st with op := o }) := by
  obtain ⟨program, erase, mark, once, logging⟩ := h
  exact ⟨fun i p k => program i p (same.symm.trans k), fun p k => erase p (same.symm.trans k),
    fun k => mark (same.symm.trans k), once, logging⟩

/-- The array takes an operation up. -/
theorem CoreRight.begins (h : CoreRight s) (k : OpKind)
    (program : ∀ i p, k = .program i p → s.store.stateOf p = .writing ∧ ∃ w c, s.store.work = some w
      ∧ w.phase ≠ .reading ∧ w.copies[i]? = some c ∧ CarriesRange s.store p c)
    (erase : ∀ p, k = .eraseDir p → (s.store.stateOf p).isErasing = true)
    (mark : k = .logMark → s.store.workQ.head? = some .logMark) :
    CoreRight (s.mapStore fun st => { st with op := some (ArrayOp.begin_ k) }) := by
  obtain ⟨-, -, -, once, logging⟩ := h.array
  exact h.withOp _ ⟨fun i p e => program i p (Option.some.inj e), fun p e => erase p (Option.some.inj e),
    fun e => mark (Option.some.inj e), once, logging⟩

/-- R63: the head of the erase queue goes into its ERASE. -/
theorem CoreRight.beginErase (h : CoreRight s) (op : s.store.op = none) :
    CoreRight (s.mapStore Store.beginErase) := by
  cases queue : s.store.eraseQ with
  | nil =>
    have none_ : s.store.beginErase = s.store := by simp [Store.beginErase, queue]
    rwa [State.mapStore, none_]
  | cons p rest =>
    obtain ⟨nodup, stale⟩ := h.eraseQueue
    rw [queue] at nodup stale
    obtain ⟨first, nodup⟩ := List.nodup_cons.mp nodup
    have dropped : CoreRight (s.mapStore fun st => { st with eraseQ := rest }) :=
      { h with
        fits := fun w running => (h.fits w running).of_held rfl (.of_same rfl rfl)
        eraseQueue := ⟨nodup, fun q mem => stale q (List.mem_cons_of_mem p mem)⟩ }
    have head := stale p List.mem_cons_self
    have other {x : PageState} (no : x ≠ .stale .abandoned) (no' : x ≠ .stale .superseded) :
        s.store.stateOf p ≠ x := by
      rintro rfl
      exact head.elim no no'
    obtain ⟨k, d, image, begun⟩ : ∃ k d, (∀ y, d.contents = .programmed y →
        (1 ≤ y.low ∧ y.high ≤ topBadge) ∧ y.records.length ≤ 64) ∧ s.store.beginErase =
        { ((s.store.setPage p d).setState p (.erasing k)) with
          eraseQ := rest, op := some (ArrayOp.begin_ (.eraseDir p)) } := by
      unfold Store.beginErase
      rw [queue]
      refine ⟨_, _, fun y img => ?_, rfl⟩
      dsimp only at img
      split at img
      · rename_i x held
        obtain rfl := PageContents.programmed.inj img
        exact h.image p x held
      · cases img
    have set := dropped.setPage (x := .erasing k) op image (other (by decide) (by decide))
      (other (by decide) (by decide)) first
    have begins := set.begins (.eraseDir p) (by simp) (fun q eq => by
      obtain rfl := OpKind.eraseDir.inj eq
      exact congrArg PageState.isErasing (stateOf_setState _ p _)) (by simp)
    have same : s.mapStore Store.beginErase = { s with store := s.store.beginErase } := rfl
    rw [same, begun]
    exact begins

theorem length_copyRecords_le (s : State) (c : Copy) : (s.copyRecords c).length ≤ c.records.length :=
  List.length_filterMap_le _ _

theorem WorkFits.copy_ready {w : Work} (h : WorkFits s w) {i : Nat} {c : Copy} (copy : w.copies[i]? = some c) :
    w.phase ≠ .reading ∧ (1 ≤ c.low ∧ c.high ≤ topBadge) ∧ c.records.length ≤ 64 := by
  have phase : w.phase ≠ .reading := fun reading => by
    rw [(h.reading reading).1] at copy
    cases copy
  have mem := List.mem_of_getElem? copy
  obtain ⟨low, -, high⟩ := partition_bounds (h.tile phase) (r := c.range)
    (List.mem_append_right _ (List.mem_map_of_mem mem))
  exact ⟨phase, ⟨low, high⟩, h.records c mem⟩

/-- What a page reads as the PROGRAM of a copy begins on it. -/
def begunImage (w : Work) (c : Copy) (rs : List Record) : PageImage :=
  { low := c.low, high := c.high, count := rs.length, commit := w.number, complete := false, records := rs }

/-- R58: a copy's PROGRAM begins on a free page. -/
theorem CoreRight.beginProgram (h : CoreRight s) (op : s.store.op = none) (i : Nat) {p : Page}
    (free : s.store.stateOf p = .free) : CoreRight (s.beginProgram i p) := by
  unfold State.beginProgram
  split
  · exact h
  · rename_i w running
    split
    · exact h
    · rename_i c copy
      obtain ⟨phase, range, few⟩ := (h.fits w running).copy_ready copy
      have other {x : PageState} (no : x ≠ .free) : s.store.stateOf p ≠ x := free ▸ no.symm
      have set := h.setPage (p := p) (d := { contents := .programmed (begunImage w c (s.copyRecords c)), retired := false })
        (x := .writing) op
        (fun y img => by
          obtain rfl := PageContents.programmed.inj img
          exact ⟨range, (length_copyRecords_le s c).trans few⟩)
        (other (by decide)) (other (by decide)) fun mem => by
          rcases h.eraseQueue.2 p mem with eq | eq
          · exact other (by decide) eq
          · exact other (by decide) eq
      refine set.begins (.program i p) (fun j q eq => ?_) (by simp) (by simp)
      obtain ⟨rfl, rfl⟩ := OpKind.program.inj eq
      exact ⟨stateOf_setState _ p _, w, c, running, phase, copy, _,
        congrArg DirPage.contents (page_setPage s.store p _), rfl, rfl⟩

theorem lowestFree_free {st : Store} {p : Page} (h : st.lowestFree = some p) : st.stateOf p = .free := by
  have free := List.find?_some h
  cases state : st.stateOf p with
  | free => rfl
  | _ => simp [state, PageState.isFree] at free

/-- R60, R61: what the array takes up of its own accord. -/
theorem CoreRight.arbitrate (h : CoreRight s) : CoreRight s.arbitrate := by
  unfold State.arbitrate
  split
  · exact h
  · split
    · rename_i op running
      split
      · exact h.withOp _ (arrayOnWork_of_kind h.array (by rw [running]; rfl))
      · exact h
    · rename_i op
      split
      · exact h
      · split
        · exact h.beginErase op
        · rename_i i rest _
          split
          · rename_i p found
            exact h.beginProgram op i (lowestFree_free found)
          · exact h.beginErase op
        · exact h.begins _ (by simp) (by simp) (by simp)
        · rename_i queue
          exact h.begins _ (by simp) (by simp) fun _ => by rw [queue]; rfl
        · exact h
        · refine h.begins _ (fun _ _ eq => ?_) (fun _ eq => ?_) fun eq => ?_
          all_goals
            split at eq
            · cases eq
            · split at eq <;> cases eq

theorem arbitrate_around (s : State) : AroundStore s s.arbitrate := by
  by_cases phase : s.site.phase = .open_
  · obtain ⟨op, ps, sts, eq, touched⟩ := arbitrate_touches s
    rw [touched]
    exact ⟨rfl, rfl, rfl, rfl, .inl rfl, id, fun closed => absurd phase closed⟩
  · have same : s.arbitrate = s := if_pos phase
    rw [same]
    exact .refl s

theorem WorkRight.arbitrate (h : WorkRight s) : WorkRight s.arbitrate :=
  (arbitrate_around s).workRight h h.core.arbitrate

end

end Sys2Proof.Machine
end

section
/-! PROOF. The phases of the running work, its end by COMMIT_FAIL, and the ends of the array's operations keep the
invariant of the pages. -/

namespace Sys2Proof.Machine

/-! ### Pages that change their state together -/

section
variable (st : Store) (ps : List Page) (x : PageState) (k : Stale)

theorem foldl_setState_eq : ∃ v, ps.foldl (fun st p => st.setState p x) st = { st with pageState := v } := by
  induction ps generalizing st with
  | nil => exact ⟨_, rfl⟩
  | cons p ps ih => exact ih (st.setState p x)

theorem stateOf_foldl_setState (q : Page) :
    (ps.foldl (fun st p => st.setState p x) st).stateOf q = if q ∈ ps then x else st.stateOf q := by
  induction ps generalizing st with
  | nil => simp
  | cons p ps ih =>
    rw [List.foldl_cons, ih]
    by_cases mem : q ∈ ps
    · simp [mem]
    · by_cases eq : q = p
      · subst eq
        simp [mem]
      · simp [mem, eq, stateOf_setState_of_ne _ _ _ _ eq]

@[simp] theorem mem_ascending_iff (q : Page) : q ∈ ascending ps ↔ q ∈ ps := by
  simp [ascending]

theorem ascending_nodup : (ascending ps).Nodup :=
  ((finList_ascending 544).imp ne_of_lt).filter _

/-- R58: pages become STALE in the condition `k` and join the erase queue. -/
theorem toStale_spec : ∃ v, st.toStale ps k = { st with pageState := v, eraseQ := st.eraseQ ++ ascending ps }
    ∧ ∀ q : Page, v[q] = if q ∈ ps then .stale k else st.stateOf q := by
  obtain ⟨v, eq⟩ := foldl_setState_eq st (ascending ps) (.stale k)
  refine ⟨v, by simp only [Store.toStale, eq], fun q => ?_⟩
  have fold := stateOf_foldl_setState st (ascending ps) (.stale k) q
  rw [eq] at fold
  simpa [Store.stateOf] using fold

/-- R57, R58: pages of no erase queue join it, each once. -/
theorem joined_nodup {eraseQ : List Page} (nodup : eraseQ.Nodup) (apart : ∀ p ∈ ps, p ∉ eraseQ) :
    (eraseQ ++ ascending ps).Nodup :=
  List.nodup_append'.mpr ⟨nodup, ascending_nodup ps, fun p old joins =>
    apart p ((mem_ascending_iff ps p).mp joins) old⟩

end

/-! ### The running work -/

section
variable {s t : State}

/-- The copies of the running work are pages held, and so no DATA page, none ERASING and none in the erase queue. -/
theorem WorkFits.held_page {w : Work} (h : WorkFits s w) {p : Page} (mem : p ∈ w.heldPages) :
    s.store.stateOf p = .stale .held := by
  obtain ⟨c, copy, page⟩ := List.mem_filterMap.mp mem
  exact (h.held c copy p page).1

theorem CoreRight.held_not_queued (h : CoreRight s) {p : Page} (held : s.store.stateOf p = .stale .held) :
    p ∉ s.store.eraseQ := fun mem => by
  rcases h.eraseQueue.2 p mem with eq | eq <;> exact absurd (held.symm.trans eq) (by decide)

/-- R62, R76, R91: what the end by COMMIT_FAIL does to the index and the store. -/
structure Failed (s t : State) (w : Work) : Prop where
  dir : t.dir = s.dir
  site : t.site = s.site
  batch : t.batch = s.batch ∨ t.batch = Batch.startUp
  store : ∃ v, t.store = { s.store with
      pageState := v, eraseQ := s.store.eraseQ ++ ascending w.heldPages
      workQ := s.store.workQ.filter fun x => !x.ofWork
      work := none }
    ∧ ∀ p : Page, v[p] = if p ∈ w.heldPages then .stale .abandoned else s.store.stateOf p

theorem failWork_failed (s : State) {w : Work} (running : s.store.work = some w) (cause : FailCause) :
    Failed s (s.failWork cause) w := by
  obtain ⟨v, eq, states⟩ := toStale_spec s.store w.heldPages .abandoned
  unfold State.failWork
  rw [running]
  simp only [State.mapStore, eq]
  obtain ⟨f, ns, touched⟩ := raiseFault_touches { s with store := { s.store with
      pageState := v, eraseQ := s.store.eraseQ ++ ascending w.heldPages
      workQ := s.store.workQ.filter fun x => !x.ofWork
      work := none } } .commitFail (w.number % 65536)
  rw [touched]
  cases w.kind with
  | compact => exact ⟨rfl, rfl, .inl rfl, v, rfl, states⟩
  | commit => exact ⟨rfl, rfl, .inr rfl, v, rfl, states⟩

theorem failWork_of_none {cause : FailCause} (h : s.store.work = none) : s.failWork cause = s := by
  simp [State.failWork, h]

theorem failWork_around (s : State) (cause : FailCause) : AroundStore s (s.failWork cause) := by
  cases running : s.store.work with
  | none =>
    rw [failWork_of_none running]
    exact .refl s
  | some w =>
    obtain ⟨dir, site, batch, v, store, -⟩ := failWork_failed s running cause
    refine ⟨by rw [dir], by rw [dir], by rw [site], by rw [site], ?_, fun _ => by rw [store], fun _ none_ => ?_⟩
    · rcases batch with same | closed
      · exact .inl (by rw [same])
      · exact .inr ⟨by rw [closed]; rfl, by rw [running]; simp⟩
    · rw [store]
      exact none_

/-- R62: the copies are abandoned and no entry of the work is left in the queue. -/
theorem CoreRight.failWork (h : CoreRight s) (free : ArrayApart s) (cause : FailCause) :
    CoreRight (s.failWork cause) := by
  cases running : s.store.work with
  | none => rwa [failWork_of_none running]
  | some w =>
    obtain ⟨dir, -, -, v, store, states⟩ := failWork_failed s running cause
    have held {p : Page} (mem : p ∈ w.heldPages) := (h.fits w running).held_page mem
    generalize s.failWork cause = t at dir store
    have state (p : Page) : t.store.stateOf p
        = if p ∈ w.heldPages then .stale .abandoned else s.store.stateOf p := by
      rw [store]
      exact states p
    have other {p : Page} {x : PageState} (at_ : s.store.stateOf p = x) (no : x ≠ .stale .held) :
        t.store.stateOf p = x := by
      rw [state, if_neg fun mem => no (at_.symm.trans (held mem)), at_]
    obtain ⟨apart, pages, entries⟩ := h.apart
    obtain ⟨-, erase, -, -, -⟩ := h.array
    obtain ⟨nodup, stale⟩ := h.eraseQueue
    have op : t.store.op = s.store.op := by rw [store]
    have page (p : Page) : t.store.page p = s.store.page p := by rw [store]; rfl
    have queue : .logMark ∉ t.store.workQ := by
      rw [store]
      simp [WorkEntry.ofWork]
    have erases : t.store.eraseQ = s.store.eraseQ ++ ascending w.heldPages := by rw [store]
    exact {
      apart := by
        rw [IndexApart, dir]
        refine ⟨apart, pages, fun e mem => ?_⟩
        obtain ⟨low, le, high, data⟩ := entries e mem
        exact ⟨low, le, high, other data (by decide)⟩
      pages := by simpa only [PagesRight, HeadersInRange, page] using h.pages
      fits := fun w' runs => by
        rw [store] at runs
        cases runs
      array := by
        obtain ⟨program, mark⟩ := free
        refine ⟨fun i p k => absurd (op ▸ k) (program i p), fun p k => ?_, fun k => absurd (op ▸ k) mark,
          ?_, fun mem => absurd mem queue⟩
        · have erasing := erase p (op ▸ k)
          rwa [other rfl fun eq => by rw [eq] at erasing; exact absurd erasing (by decide)]
        · rw [List.count_eq_zero_of_not_mem queue]
          exact Nat.zero_le 1
      eraseQueue := by
        rw [EraseQueueRight, erases]
        refine ⟨joined_nodup _ nodup fun p mem => h.held_not_queued (held mem), fun p mem => ?_⟩
        rcases List.mem_append.mp mem with old | joins
        · rcases stale p old with eq | eq
          · exact .inl (other eq (by decide))
          · exact .inr (other eq (by decide))
        · exact .inl ((state p).trans (if_pos ((mem_ascending_iff _ p).mp joins))) }

theorem CoreRight.checkLack (h : CoreRight s) (free : ArrayApart s) : CoreRight s.checkLack := by
  unfold State.checkLack
  split
  · split
    · exact h.failWork free _
    · exact h
  · exact h

theorem checkLack_around (s : State) : AroundStore s s.checkLack := by
  unfold State.checkLack
  split
  · exact .ite (failWork_around _ _) (.refl s)
  · exact .refl s

/-! ### The phases -/

/-- The running work goes on in another form: the array works for it as before. -/
theorem CoreRight.withWork (h : CoreRight s) (w : Work) (fits : WorkFits s w)
    (program : ∀ i p, s.store.op.map ArrayOp.kind = some (.program i p) → w.phase ≠ .reading
      ∧ ∃ c, w.copies[i]? = some c ∧ CarriesRange s.store p c)
    (logging : .logMark ∈ s.store.workQ → w.phase = .logging) :
    CoreRight (s.mapStore fun st => { st with work := some w }) := by
  obtain ⟨writes, erase, mark, once, -⟩ := h.array
  refine h.of_pages rfl rfl rfl rfl (fun v runs => Option.some.inj runs ▸ fits) ?_
  refine ⟨fun i p k => ⟨(writes i p k).1, w, ?_⟩, erase, mark, once, fun mem => ⟨w, rfl, logging mem⟩⟩
  obtain ⟨phase, c, copy, carries⟩ := program i p k
  exact ⟨c, rfl, phase, copy, carries⟩

theorem mapWork_of_some {w : Work} (running : s.store.work = some w) (f : Work → Work) :
    s.mapWork f = s.mapStore fun st => { st with work := some (f w) } := by
  simp only [State.mapWork, State.mapStore, running, Option.map_some]

theorem WorkFits.setPhase {w : Work} (h : WorkFits s w) (phase : w.phase ≠ .reading) {x : Phase}
    (later : x ≠ .reading) (logging : x = .logging → w.unprogrammed = 0) : WorkFits s { w with phase := x } :=
  { h with
    tile := fun _ => h.tile phase
    logging := logging
    read := fun _ => h.read phase
    reading := fun eq => absurd eq later }

/-- R66, R88: a work past its reads goes on to another phase. -/
theorem CoreRight.setPhase (h : CoreRight s) {w : Work} (running : s.store.work = some w)
    (phase : w.phase ≠ .reading) {x : Phase} (later : x ≠ .reading) (logging : x = .logging → w.unprogrammed = 0)
    (marked : w.phase = .logging → x = .logging) : CoreRight (s.mapWork fun w => { w with phase := x }) := by
  rw [mapWork_of_some running]
  obtain ⟨writes, -, -, -, logs⟩ := h.array
  refine h.withWork _ ((h.fits w running).setPhase phase later logging) (fun i p k => ?_) fun mem => ?_
  · obtain ⟨-, v, c, runs, -, copy, carries⟩ := writes i p k
    obtain rfl := Option.some.inj (running.symm.trans runs)
    exact ⟨later, c, copy, carries⟩
  · obtain ⟨v, runs, logs⟩ := logs mem
    obtain rfl := Option.some.inj (running.symm.trans runs)
    exact marked logs

theorem CoreRight.checkWait (h : CoreRight s) : CoreRight s.checkWait := by
  unfold State.checkWait
  split
  · rename_i w running
    split
    · rename_i waits
      have queued := h.joinQueue ((List.range w.copies.length).map WorkEntry.program) (by simp)
      exact queued.setPhase (w := w) running (by simp [waits.1]) (by simp) (by simp) (by simp [waits.1])
    · exact h
  · exact h

theorem checkWait_around (s : State) : AroundStore s s.checkWait := by
  unfold State.checkWait
  split
  · exact .ite ((mapStore_around s _ rfl (.inl rfl)).trans (mapWork_around _ _)) (.refl s)
  · exact .refl s

/-- R66: the MARK is queued once, for a work in LOGGING. -/
theorem CoreRight.queueLogMark (h : CoreRight s) : CoreRight s.queueLogMark := by
  unfold State.queueLogMark
  split
  · rename_i w running
    split
    · rename_i ready
      obtain ⟨logging, absent, -⟩ := ready
      have none_ : WorkEntry.logMark ∉ s.store.workQ := by simpa using absent
      refine h.withQueue _ (fun mark => ?_) ?_ fun _ => ⟨w, running, logging⟩
      · exact absurd (List.mem_of_mem_head? (h.array.2.2.1 mark)) none_
      · rw [List.count_append, List.count_eq_zero_of_not_mem none_]
        split <;> simp
    · exact h
  · exact h

theorem queueLogMark_around (s : State) : AroundStore s s.queueLogMark := by
  unfold State.queueLogMark
  split
  · exact .ite (mapStore_around s _ rfl (.inl rfl)) (.refl s)
  · exact .refl s

theorem CoreRight.checkProgrammed (h : CoreRight s) : CoreRight s.checkProgrammed := by
  unfold State.checkProgrammed
  split
  · rename_i w running
    split
    · rename_i done
      exact (h.setPhase running (by simp [done.1]) (by simp) (fun _ => done.2) (by simp [done.1])).queueLogMark
    · exact h
  · exact h

theorem checkProgrammed_around (s : State) : AroundStore s s.checkProgrammed := by
  unfold State.checkProgrammed
  split
  · exact .ite ((mapWork_around s _).trans (queueLogMark_around _)) (.refl s)
  · exact .refl s

/-- R75, R88: the copies of the work are fixed. -/
theorem CoreRight.startCopies (h : CoreRight (s.mapWork fun w => { w with phase := .commitWait }))
    (free : ArrayApart s) : CoreRight s.startCopies :=
  ((h.checkLack free).checkWait).checkProgrammed

theorem startCopies_around (s : State) : AroundStore s s.startCopies :=
  (((mapWork_around s _).trans (checkLack_around _)).trans (checkWait_around _)).trans (checkProgrammed_around _)

end

end Sys2Proof.Machine
end

section
/-! PROOF. The ends of the array's operations, the marks and the settings saves keep the invariant of the pages. -/

namespace Sys2Proof.Machine

section
variable {s t : State}

/-! ### Ends of operations -/

theorem running_kind {st : Store} {k : OpKind} (h : st.running = some k) : st.op.map ArrayOp.kind = some k := by
  unfold Store.running at h
  split at h
  · rename_i op running
    split at h
    · cases h
    · rw [running]
      exact h
  · cases h

/-- Copies in whose place others stand, with the same ranges. -/
theorem WorkFits.setCopies {w : Work} (h : WorkFits s w) (cs : List Copy)
    (ranges : cs.map Copy.range = w.copies.map Copy.range)
    (nodup : ({ w with copies := cs }).heldPages.Nodup)
    (fits : ∀ c ∈ cs, c.records.length ≤ 64
      ∧ ∀ p, c.page = some p → t.store.stateOf p = .stale .held ∧ CarriesRange t.store p c)
    (logging : w.phase = .logging → ({ w with copies := cs }).unprogrammed = 0)
    (index : t.dir.index = s.dir.index) : WorkFits t { w with copies := cs } where
  tile phase := by
    show Partition (_ ++ cs.map Copy.range)
    rw [index, ranges]
    exact h.tile phase
  nodup := nodup
  held c mem p page := (fits c mem).2 p page
  records c mem := (fits c mem).1
  released := by rw [index]; exact h.released
  logging := logging
  read := h.read
  reading phase := by
    obtain ⟨none_, rest⟩ := h.reading phase
    refine ⟨?_, by rw [index]; exact rest⟩
    rw [none_] at ranges
    exact List.map_eq_nil_iff.mp ranges

/-- R62: the PROGRAM of a copy has failed, and its next attempt counts one more. -/
def Copy.failed (c : Copy) : Copy := { c with failures := c.failures + 1 }

theorem map_modify_of_same {α β : Type} (f : α → α) (g : α → β) (same : ∀ a, g (f a) = g a) (as : List α) (i : Nat) :
    (as.modify i f).map g = as.map g := by
  induction as generalizing i with
  | nil => simp
  | cons a as ih => cases i <;> simp [same, ih]

theorem mem_modify {α : Type} {f : α → α} {as : List α} {i : Nat} {b : α} (h : b ∈ as.modify i f) :
    b ∈ as ∨ ∃ a, as[i]? = some a ∧ b = f a := by
  obtain ⟨j, lt, rfl⟩ := List.mem_iff_getElem.mp h
  rw [List.length_modify] at lt
  rw [List.getElem_modify]
  split
  · rename_i eq
    subst eq
    exact .inr ⟨as[i], List.getElem?_eq_getElem lt, rfl⟩
  · exact .inl (List.getElem_mem lt)

theorem WorkFits.copyFailed {w : Work} (h : WorkFits s w) (i : Nat) :
    WorkFits s { w with copies := w.copies.modify i Copy.failed } := by
  have pages : (w.copies.modify i Copy.failed).map Copy.page = w.copies.map Copy.page :=
    map_modify_of_same Copy.failed _ (fun _ => rfl) _ _
  refine h.setCopies _ (map_modify_of_same Copy.failed _ (fun _ => rfl) _ _) ?_ (fun c mem => ?_) (fun phase => ?_) rfl
  · have held (cs : List Copy) : cs.filterMap Copy.page = (cs.map Copy.page).filterMap id := by
      rw [List.filterMap_map]
      rfl
    show ((w.copies.modify i Copy.failed).filterMap Copy.page).Nodup
    rw [held, pages, ← held]
    exact h.nodup
  · rcases mem_modify mem with old | ⟨a, at_, rfl⟩
    · exact ⟨h.records c old, h.held c old⟩
    · have old := List.mem_of_getElem? at_
      exact ⟨h.records a old, h.held a old⟩
  · have count (cs : List Copy) : (cs.countP fun c => c.page.isNone) = (cs.map Copy.page).countP Option.isNone := by
      rw [List.countP_map]
      rfl
    show ((w.copies.modify i Copy.failed).countP fun c => c.page.isNone) = 0
    rw [count, pages, ← count]
    exact h.logging phase

/-- R58: a copy stands programmed on page `p`. -/
def Copy.on (p : Page) (c : Copy) : Copy := { c with page := some p }

theorem getElem?_split {α : Type} {as : List α} {i : Nat} {a : α} (h : as[i]? = some a) (f : α → α) :
    ∃ pre post, as = pre ++ a :: post ∧ as.modify i f = pre ++ f a :: post := by
  obtain ⟨lt, at_⟩ := List.getElem?_eq_some_iff.mp h
  obtain ⟨pre, b, post, split, rfl, done⟩ := List.exists_of_modify f lt
  have same : b = a := by
    rw [split] at h
    simpa using h
  exact ⟨pre, post, same ▸ split, same ▸ done⟩

/-- R58: copy `i` has been programmed on page `p`. -/
theorem WorkFits.copyDone {w : Work} (h : WorkFits s w) {i : Nat} {c : Copy} (copy : w.copies[i]? = some c) {p : Page}
    (fresh : s.store.stateOf p ≠ .stale .held) (index : t.dir.index = s.dir.index)
    (stays : HeldStays s.store t.store) (held : t.store.stateOf p = .stale .held)
    (carries : CarriesRange t.store p c) :
    WorkFits t { w with copies := w.copies.modify i (Copy.on p) } := by
  obtain ⟨pre, post, split, done⟩ := getElem?_split copy (Copy.on p)
  have others : p ∉ (pre ++ post).filterMap Copy.page := fun mem => by
    obtain ⟨x, old, page⟩ := List.mem_filterMap.mp mem
    refine fresh (h.held x ?_ p page).1
    rw [split]
    rcases List.mem_append.mp old with old | old
    · exact List.mem_append_left _ old
    · exact List.mem_append_right _ (List.mem_cons_of_mem c old)
  refine h.setCopies _ (map_modify_of_same (Copy.on p) _ (fun _ => rfl) _ _) ?_ (fun x mem => ?_) (fun phase => ?_) index
  · have nodup : ((pre ++ post).filterMap Copy.page).Nodup := by
      refine List.Nodup.sublist (List.Sublist.filterMap _ ?_) h.nodup
      rw [split]
      exact List.Sublist.append_left (List.sublist_cons_self c post) pre
    show ((w.copies.modify i (Copy.on p)).filterMap Copy.page).Nodup
    rw [done]
    rw [List.filterMap_append] at nodup others ⊢
    rw [List.filterMap_cons_some (show (Copy.on p c).page = some p from rfl)]
    exact (List.perm_middle.nodup_iff).mpr (List.nodup_cons.mpr ⟨others, nodup⟩)
  · rcases mem_modify mem with old | ⟨b, at_, rfl⟩
    · refine ⟨h.records x old, fun q page => ?_⟩
      obtain ⟨stands, range⟩ := h.held x old q page
      obtain ⟨stands', kept⟩ := stays q stands
      exact ⟨stands', kept x range⟩
    · obtain rfl := Option.some.inj (copy.symm.trans at_)
      refine ⟨h.records c (List.mem_of_getElem? copy), fun q page => ?_⟩
      obtain rfl := Option.some.inj page
      exact ⟨held, carries⟩
  · have none_ := h.logging phase
    have left : (w.copies.countP fun c => c.page.isNone) = 0 := none_
    show ((w.copies.modify i (Copy.on p)).countP fun c => c.page.isNone) = 0
    rw [done]
    rw [split] at left
    simp only [List.countP_eq_zero, List.mem_append, List.mem_cons] at left ⊢
    rintro x (mem | rfl | mem)
    · exact left x (.inl mem)
    · simp [Copy.on]
    · exact left x (.inr (.inr mem))

/-- R58: the array has ended the PROGRAM that left `x` on page `p`. -/
def State.copyHeld (s : State) (p : Page) (x : PageImage) : State :=
  s.endOp.dropWork.mapStore fun st =>
    (st.setPage p { st.page p with contents := .programmed { x with complete := true } }).setState p (.stale .held)

theorem programDone_eq {p : Page} {x : PageImage} (img : (s.store.page p).contents = .programmed x) (i : Nat) :
    s.programDone i p
      = ((s.copyHeld p x).mapWork fun w => { w with copies := w.copies.modify i (Copy.on p) }).checkProgrammed := by
  simp only [State.programDone, img]
  rfl

/-- R58: a PROGRAM has completed. -/
theorem CoreRight.programDone (h : CoreRight s) {i : Nat} {p : Page}
    (running : s.store.running = some (.program i p)) : CoreRight (s.programDone i p) := by
  obtain ⟨writes, -, -, -, -⟩ := h.array
  obtain ⟨writing, w, c, works, phase, copy, x, img, low, high⟩ := writes i p (running_kind running)
  have dropped : CoreRight (s.copyHeld p x) := (h.endOp.dropWork rfl).setBusy rfl
    (fun y programmed => by
      obtain rfl := PageContents.programmed.inj programmed
      exact h.image p x img) (.inl writing)
  have stays : HeldStays s.store (s.copyHeld p x).store := fun q stands => by
    have ne : q ≠ p := fun eq => absurd (writing.symm.trans (eq ▸ stands)) (by decide)
    exact ⟨(stateOf_setState_of_ne _ _ _ _ ne).trans stands,
      fun c => (carriesRange_congr (page_setPage_of_ne _ _ _ _ ne) c).mpr⟩
  have fits : WorkFits (s.copyHeld p x) { w with copies := w.copies.modify i (Copy.on p) } :=
    (h.fits w works).copyDone copy (by rw [writing]; decide) rfl stays (stateOf_setState _ _ _)
      ⟨_, congrArg DirPage.contents (page_setPage s.store p _), low, high⟩
  obtain ⟨-, -, -, -, logs⟩ := dropped.array
  rw [programDone_eq img, mapWork_of_some (s := s.copyHeld p x) works]
  refine (dropped.withWork _ fits (fun _ _ k => absurd k nofun) fun mem => ?_).checkProgrammed
  obtain ⟨v, runs, logs⟩ := logs mem
  obtain rfl := Option.some.inj (works.symm.trans runs)
  exact logs

theorem programDone_around (s : State) (i : Nat) (p : Page) : AroundStore s (s.programDone i p) :=
  ((((mapStore_around s _ rfl (.inl rfl)).trans (endOp_around _)).trans (dropWork_around _)).trans
    (mapWork_around _ _)).trans (checkProgrammed_around _)

/-- R62: a PROGRAM has failed. -/
theorem CoreRight.programFailed (h : CoreRight s) {i : Nat} {p : Page}
    (running : s.store.running = some (.program i p)) : CoreRight (s.programFailed i p) := by
  obtain ⟨writes, -, -, -, -⟩ := h.array
  obtain ⟨writing, w, c, works, -⟩ := writes i p (running_kind running)
  have retired : CoreRight (s.endOp.mapStore fun st => st.retire p) := h.endOp.retire rfl (.inl writing)
  have same := (raiseFault_sameWork (s.endOp.mapStore fun st => st.retire p) .storeProgramFail p.val).trans
    (checkSpare_sameWork _ s.store.spareSum)
  unfold State.programFailed
  dsimp only
  have order : (s.mapStore fun st => st.retire p).endOp = s.endOp.mapStore fun st => st.retire p := rfl
  rw [order]
  generalize ((s.endOp.mapStore fun st => st.retire p).raiseFault .storeProgramFail p.val).checkSpare
    s.store.spareSum = t at same ⊢
  have core := same.coreRight retired
  have op : t.store.op = none := Option.map_eq_none_iff.mp same.op
  have works : t.store.work = some w := same.work.trans works
  have array := core.array
  have counted : CoreRight (t.mapWork fun w => { w with copies := w.copies.modify i Copy.failed }) := by
    rw [mapWork_of_some works]
    refine core.withWork _ ((core.fits w works).copyFailed i) (fun j q k => absurd k (by simp [op])) fun mem => ?_
    obtain ⟨v, runs, logs⟩ := array.2.2.2.2 mem
    obtain rfl := Option.some.inj (works.symm.trans runs)
    exact logs
  have free : ArrayApart (t.mapWork fun w => { w with copies := w.copies.modify i Copy.failed }) :=
    arrayApart_of_none op
  split
  · split
    · exact counted.failWork free _
    · exact counted.checkLack free
  · exact counted

theorem programFailed_around (s : State) (i : Nat) (p : Page) : AroundStore s (s.programFailed i p) := by
  have start := (((mapStore_around s (fun st => st.retire p) rfl (.inl rfl)).trans (endOp_around _)).trans
    (raiseFault_around _ .storeProgramFail p.val)).trans (checkSpare_around _ s.store.spareSum)
  have counted := start.trans (mapWork_around _ fun w => { w with copies := w.copies.modify i Copy.failed })
  unfold State.programFailed
  dsimp only
  split
  · split
    · exact counted.trans (failWork_around _ _)
    · exact counted.trans (checkLack_around _)
  · exact counted

/-- R63: a directory page has been erased. -/
theorem CoreRight.eraseDone (h : CoreRight s) {p : Page} (running : s.store.running = some (.eraseDir p)) :
    CoreRight (s.eraseDone p) :=
  have erased : CoreRight (s.endOp.mapStore fun st =>
      (st.setPage p { contents := .erased, retired := false }).setState p .free) :=
    h.endOp.setBusy rfl nofun (.inr (h.array.2.1 p (running_kind running)))
  erased.checkWait.queueLogMark

theorem eraseDone_around (s : State) (p : Page) : AroundStore s (s.eraseDone p) :=
  (((mapStore_around s _ rfl (.inl rfl)).trans (endOp_around _)).trans (checkWait_around _)).trans
    (queueLogMark_around _)

/-- R63: the ERASE of a directory page has failed. -/
theorem CoreRight.eraseFailed (h : CoreRight s) {p : Page} (running : s.store.running = some (.eraseDir p)) :
    CoreRight (s.eraseFailed p) := by
  have retired : CoreRight (s.endOp.mapStore fun st => st.retire p) :=
    h.endOp.retire rfl (.inr (h.array.2.1 p (running_kind running)))
  have same := (raiseFault_sameWork (s.endOp.mapStore fun st => st.retire p) .storeEraseFail p.val).trans
    (checkSpare_sameWork _ s.store.spareSum)
  exact ((same.coreRight retired).checkLack
    (arrayApart_of_none (Option.map_eq_none_iff.mp same.op))).queueLogMark

theorem eraseFailed_around (s : State) (p : Page) : AroundStore s (s.eraseFailed p) :=
  (((((mapStore_around s _ rfl (.inl rfl)).trans (endOp_around _)).trans (raiseFault_around _ _ _)).trans
    (checkSpare_around _ _)).trans (checkLack_around _)).trans (queueLogMark_around _)

/-! ### The Commit Log's pages -/

/-- The log and its position, the counts and the saves are nothing that the invariant sees. -/
theorem CoreRight.withLog (h : CoreRight s) (f : Store → Store) (pages : (f s.store).pages = s.store.pages)
    (states : (f s.store).pageState = s.store.pageState) (erases : (f s.store).eraseQ = s.store.eraseQ)
    (work : (f s.store).work = s.store.work) (op : (f s.store).op = s.store.op)
    (queue : (f s.store).workQ = s.store.workQ) : CoreRight (s.mapStore f) :=
  SameWork.coreRight
    { SameWork.refl s with
      pages := pages, states := states, erases := erases, work := work
      op := congrArg (Option.map ArrayOp.kind) op
      queue := ⟨[], by rw [List.append_nil]; exact queue, List.not_mem_nil⟩ } h

theorem CoreRight.logEraseDone (h : CoreRight s) (p : Fin 8) : CoreRight (s.logEraseDone p) :=
  ((h.withLog (fun st => { st with log := st.log.set p.val (Vector.replicate 64 none) p.isLt })
    rfl rfl rfl rfl rfl rfl).endOp).dropWork rfl

theorem logEraseDone_around (s : State) (p : Fin 8) : AroundStore s (s.logEraseDone p) :=
  ((mapStore_around s _ rfl (.inl rfl)).trans (endOp_around _)).trans (dropWork_around _)

/-- R64: the erase of the next log page goes ahead of the MARK. -/
theorem CoreRight.moveLog (h : CoreRight s) (op : s.store.op = none) (next : Fin 8) : CoreRight (s.moveLog next) := by
  obtain ⟨-, -, -, once, logging⟩ := h.array
  have moved := h.withLog (fun st => { st with logPage := next, logSlot := 0 }) rfl rfl rfl rfl rfl rfl
  refine moved.withQueue _ (fun k => absurd k ?_) ?_ fun mem => logging ?_
  · simp [State.mapStore, op]
  · split
    · exact once
    · simpa using once
  · split at mem
    · exact mem
    · simpa using mem

theorem moveLog_around (s : State) (next : Fin 8) : AroundStore s (s.moveLog next) :=
  mapStore_around s _ rfl (.inl rfl)

/-- R64: the ERASE of log page `p` has failed, and the position has not moved yet. -/
def State.logLost (s : State) (p : Fin 8) : State :=
  let t := (((s.mapStore fun st =>
    { st with log := st.log.set p.val (cutLogPage s.free st.log[p]) p.isLt }).endOp).dropWork).raiseFault
      .storeEraseFail (1024 + p.val)
  { t with free := t.free + 1 }

theorem logEraseFailed_cases (s : State) (p : Fin 8) :
    s.logEraseFailed p = (s.logLost p).moveLog (nextLogPage p)
    ∨ ∃ top, s.logEraseFailed p = ((s.logLost p).mapStore fun st =>
        { st with logPage := nextLogPage top, logSlot := 0 }).failWork .logFail := by
  unfold State.logEraseFailed
  dsimp only
  split
  · split
    · exact .inr ⟨_, rfl⟩
    · exact .inl rfl
  · exact .inl rfl

theorem logLost_op (s : State) (p : Fin 8) : (s.logLost p).store.op = none :=
  Option.map_eq_none_iff.mp (raiseFault_sameWork _ .storeEraseFail (1024 + p.val)).op

theorem CoreRight.logLost (h : CoreRight s) (p : Fin 8) : CoreRight (s.logLost p) :=
  have cut := ((h.withLog (fun st => { st with log := st.log.set p.val (cutLogPage s.free st.log[p]) p.isLt })
    rfl rfl rfl rfl rfl rfl).endOp).dropWork rfl
  have raised := raiseFault_sameWork _ .storeEraseFail (1024 + p.val)
  SameWork.coreRight (t := s.logLost p) (raised.trans (by exact .of_parts rfl rfl rfl rfl)) cut

theorem logLost_around (s : State) (p : Fin 8) : AroundStore s (s.logLost p) :=
  have cut := ((mapStore_around s (fun st =>
    { st with log := st.log.set p.val (cutLogPage s.free st.log[p]) p.isLt }) rfl (.inl rfl)).trans
      (endOp_around _)).trans (dropWork_around _)
  (cut.trans (raiseFault_around _ .storeEraseFail (1024 + p.val))).trans (by exact .of_parts rfl rfl rfl rfl)

/-- R64: after a failed ERASE the position moves on, or the work ends. -/
theorem CoreRight.logEraseFailed (h : CoreRight s) (p : Fin 8) : CoreRight (s.logEraseFailed p) := by
  have lost := h.logLost p
  have op := logLost_op s p
  rcases logEraseFailed_cases s p with eq | ⟨top, eq⟩ <;> rw [eq]
  · exact lost.moveLog op _
  · have moved := lost.withLog (fun st => { st with logPage := nextLogPage top, logSlot := 0 }) rfl rfl rfl rfl rfl rfl
    exact moved.failWork (arrayApart_of_none op) _

theorem logEraseFailed_around (s : State) (p : Fin 8) : AroundStore s (s.logEraseFailed p) := by
  have lost := logLost_around s p
  rcases logEraseFailed_cases s p with eq | ⟨top, eq⟩ <;> rw [eq]
  · exact lost.trans (moveLog_around _ _)
  · exact (lost.trans (mapStore_around _ _ rfl (.inl rfl))).trans (failWork_around _ _)

/-! ### Trip marks -/

end

end Sys2Proof.Machine
end

section
/-! PROOF. The trip marks, the settings saves and the COMPACT reads keep the invariant of the pages. -/

namespace Sys2Proof.Machine

section
variable {s t : State}

/-! ### Trip marks -/

/-- R46, R48: a mark leaves of what a page holds its header and the count of its records. -/
theorem mark_programmed_iff {b : Badge} {d : PageContents} {x : PageImage} :
    d.mark b = .programmed x ↔ ∃ y, d = .programmed y
      ∧ x = { y with records := y.records.map fun r => if r.badge == b then r.mark else r } := by
  cases d with
  | erased => simp [PageContents.mark]
  | programmed y =>
    constructor
    · rintro ⟨⟩
      exact ⟨y, rfl, rfl⟩
    · rintro ⟨y, ⟨⟩, rfl⟩
      rfl

theorem page_markPage (st : Store) (b : Badge) (p q : Page) :
    ((st.markPage b p).page q).contents = (if q = p then (st.page q).contents.mark b else (st.page q).contents) := by
  by_cases eq : q = p
  · subst eq
    rw [if_pos rfl, markPage_page]
  · rw [if_neg eq, markPage_page_of_ne st b eq]

/-- R48: what a page carries after a mark, it carried before, beside the slots. -/
theorem programmed_markPage {st : Store} {b : Badge} {p q : Page} {x : PageImage}
    (h : ((st.markPage b p).page q).contents = .programmed x) :
    ∃ y, (st.page q).contents = .programmed y ∧ x.low = y.low ∧ x.high = y.high
      ∧ x.records.length = y.records.length := by
  rw [page_markPage] at h
  split at h
  · obtain ⟨y, held, rfl⟩ := mark_programmed_iff.mp h
    exact ⟨y, held, rfl, rfl, List.length_map _⟩
  · exact ⟨x, h, rfl, rfl, rfl⟩

theorem carriesRange_markPage {st : Store} {b : Badge} {p q : Page} {c : Copy} (h : CarriesRange st q c) :
    CarriesRange (st.markPage b p) q c := by
  obtain ⟨x, img, low, high⟩ := h
  rw [CarriesRange, page_markPage]
  split
  · exact ⟨_, mark_programmed_iff.mpr ⟨x, img, rfl⟩, low, high⟩
  · exact ⟨x, img, low, high⟩

theorem pagesRight_markPage {st : Store} (h : PagesRight st) (b : Badge) (p : Page) :
    PagesRight (st.markPage b p) := by
  refine ⟨fun q x img => ?_, fun q x img => ?_⟩
  · obtain ⟨y, held, low, high, -⟩ := programmed_markPage img
    rw [low, high]
    exact h.1 q y held
  · obtain ⟨y, held, -, -, length⟩ := programmed_markPage img
    rw [length]
    exact h.2 q y held

theorem CoreRight.markPage (h : CoreRight s) (b : Badge) (p : Page) :
    CoreRight (s.mapStore fun st => st.markPage b p) := by
  obtain ⟨program, erase, mark, once, logging⟩ := h.array
  exact {
    apart := h.apart
    pages := pagesRight_markPage h.pages b p
    fits := fun w running => (h.fits w running).of_held rfl fun q held => ⟨held, fun _ => carriesRange_markPage⟩
    array := ⟨fun i q k => by
      obtain ⟨writing, w, c, running, phase, copy, carries⟩ := program i q k
      exact ⟨writing, w, c, running, phase, copy, carriesRange_markPage carries⟩, erase, mark, once, logging⟩
    eraseQueue := h.eraseQueue }

theorem CoreRight.markPages (h : CoreRight s) (b : Badge) (ps : List Page) :
    CoreRight (s.mapStore fun st => ps.foldl (fun st p => st.markPage b p) st) := by
  induction ps generalizing s with
  | nil => exact h
  | cons p ps ih => exact ih (h.markPage b p)

theorem markPages_around (s : State) (b : Badge) (ps : List Page) :
    AroundStore s (s.mapStore fun st => ps.foldl (fun st p => st.markPage b p) st) := by
  induction ps generalizing s with
  | nil => exact .refl s
  | cons p ps ih =>
    exact (mapStore_around s (fun st => st.markPage b p) rfl (.inl rfl)).trans (ih _)

theorem readFor_around (s : State) (e : IndexEntry) : AroundStore s (s.readFor e).1 := by
  obtain ⟨f, ns, touched⟩ := readFor_touches s e
  rw [touched]
  exact .of_parts rfl rfl rfl rfl

/-- R48: the page of a mark is only read to find its targets. -/
theorem markTargets_cases (s : State) (b : Badge) :
    (s.markTargets b).1 = s ∨ ∃ e, (s.markTargets b).1 = (s.readFor e).1 := by
  unfold State.markTargets
  split
  · exact .inl rfl
  · split
    · exact .inl rfl
    · rename_i e _
      split
      · rename_i read
        exact .inr ⟨e, by rw [read]⟩
      · rename_i read
        refine .inr ⟨e, ?_⟩
        rw [read]
        split
        · rfl
        · split
          · rfl
          · split <;> rfl

theorem WorkRight.markTargets (h : WorkRight s) (b : Badge) : WorkRight (s.markTargets b).1 := by
  rcases markTargets_cases s b with eq | ⟨e, eq⟩ <;> rw [eq]
  · exact h
  · exact (readFor_sameWork s e).workRight h

theorem markTargets_around (s : State) (b : Badge) : AroundStore s (s.markTargets b).1 := by
  rcases markTargets_cases s b with eq | ⟨e, eq⟩ <;> rw [eq]
  · exact .refl s
  · exact readFor_around s e

theorem mapDir_around (s : State) (f : Directory → Directory) (index : (f s.dir).index = s.dir.index)
    (condition : (f s.dir).condition = s.dir.condition) : AroundStore s (s.mapDir f) :=
  ⟨index, condition, rfl, rfl, .inl rfl, id, fun _ => id⟩

theorem CoreRight.serveMark (h : CoreRight (s.markTargets b).1) : CoreRight (s.serveMark b) := by
  unfold State.serveMark
  split
  · rename_i s1 eq
    rw [eq] at h
    exact (mapDir_sameWork s1 _ rfl rfl).coreRight h
  · rename_i s1 ps eq
    rw [eq] at h
    exact (mapDir_sameWork _ _ rfl rfl).coreRight (h.markPages b ps)

theorem serveMark_around (s : State) (b : Badge) : AroundStore s (s.serveMark b) := by
  have targets := markTargets_around s b
  unfold State.serveMark
  split
  · rename_i s1 eq
    rw [eq] at targets
    exact targets.trans (mapDir_around _ _ rfl rfl)
  · rename_i s1 ps eq
    rw [eq] at targets
    exact (targets.trans (markPages_around _ b ps)).trans (mapDir_around _ _ rfl rfl)

theorem WorkRight.serveMark (h : WorkRight s) (b : Badge) : WorkRight (s.serveMark b) :=
  (serveMark_around s b).workRight h (h.markTargets b).core.serveMark

/-! ### Settings saves -/

/-- R68: the next entry of a save takes the place of the one that has ended. -/
theorem CoreRight.saveEntryDone (h : CoreRight s) (k : Nat) : CoreRight (s.saveEntryDone k) := by
  have ended := h.endOp
  obtain ⟨-, -, -, once, logging⟩ := (ended.dropWork rfl).array
  refine ended.withQueue (.save (k + 1) :: s.store.workQ.tail) nofun ?_ fun mem => logging ?_
  · rwa [List.count_cons_of_ne (by simp)]
  · exact (List.mem_cons.mp mem).resolve_left (by simp)

theorem saveEntryDone_around (s : State) (k : Nat) : AroundStore s (s.saveEntryDone k) :=
  (mapStore_around s _ rfl (.inl rfl)).trans (endOp_around _)

theorem CoreRight.saveDone (h : CoreRight s) : CoreRight s.saveDone := by
  have ended := ((h.withLog (fun st =>
      { st with area := { complete := true, checkMatches := true, image := st.save.image.getD st.area.image }
                save := { st.save with state := .idle, last := .ok, retry := false, image := none } })
    rfl rfl rfl rfl rfl rfl).endOp).dropWork rfl
  unfold State.saveDone
  dsimp only
  split
  · exact (queueSave_sameWork _).coreRight
      (ended.withLog (fun st => { st with save := { st.save with pending := false } }) rfl rfl rfl rfl rfl rfl)
  · exact ended

theorem queueSave_around (s : State) : AroundStore s s.queueSave := by
  rw [queueSave_eq]
  have same : AroundStore s (s.mapStore saveQueued) := by
    refine mapStore_around s _ ?_ (.inl ?_)
    all_goals
      unfold saveQueued
      split <;> rfl
  exact same

theorem saveDone_around (s : State) : AroundStore s s.saveDone := by
  have ended := ((mapStore_around s (fun st =>
      { st with area := { complete := true, checkMatches := true, image := st.save.image.getD st.area.image }
                save := { st.save with state := .idle, last := .ok, retry := false, image := none } })
    rfl (.inl rfl)).trans (endOp_around _)).trans (dropWork_around _)
  unfold State.saveDone
  dsimp only
  split
  · exact (ended.trans (mapStore_around _ _ rfl (.inl rfl))).trans (queueSave_around _)
  · exact ended

theorem CoreRight.saveFailed (h : CoreRight s) (erase : Bool) (p : Nat) : CoreRight (s.saveFailed erase p) := by
  have raised := (raiseFault_sameWork _ (if erase then .storeEraseFail else .storeProgramFail) (2048 + p)).coreRight
    (h.endOp.dropWork rfl)
  unfold State.saveFailed
  dsimp only
  generalize (if erase = true then FaultKind.storeEraseFail else FaultKind.storeProgramFail) = k at raised ⊢
  split
  · exact raised.withLog _ rfl rfl rfl rfl rfl rfl
  · exact (raised.joinQueue [.save 0] (by simp)).withLog (fun st =>
      { st with save := { st.save with state := .queued, retry := true, image := none } }) rfl rfl rfl rfl rfl rfl

theorem saveFailed_around (s : State) (erase : Bool) (p : Nat) : AroundStore s (s.saveFailed erase p) := by
  have raised := ((endOp_around s).trans (dropWork_around _)).trans
    (raiseFault_around _ (if erase then .storeEraseFail else .storeProgramFail) (2048 + p))
  unfold State.saveFailed
  dsimp only
  generalize (if erase = true then FaultKind.storeEraseFail else FaultKind.storeProgramFail) = k at raised ⊢
  split
  · exact raised.trans (mapStore_around _ _ rfl (.inl rfl))
  · exact raised.trans (mapStore_around _ _ rfl (.inl rfl))

/-- R68: a save begins once admission is open. -/
theorem WorkRight.beginSave (h : WorkRight s) (opened : s.site.phase = .open_) : WorkRight s.beginSave := by
  have begun := (h.core.begins (.saveErase 0) nofun nofun nofun).withLog (fun st => { st with
      area := { st.area with complete := false }
      save := { st.save with
        state := .running, image := some s.settings
        pending := if st.save.retry then false else st.save.pending } }) rfl rfl rfl rfl rfl rfl
  have around : AroundStore s s.beginSave :=
    ⟨rfl, rfl, rfl, rfl, .inl rfl, id, fun closed => absurd opened closed⟩
  exact around.workRight h begun

end

end Sys2Proof.Machine
end

section
/-! PROOF. The requests that begin a work, the planning reads and the COMPACT reads keep the invariant of the pages. -/

namespace Sys2Proof.Machine

/-- The index, the condition of the directory and the phase stand. -/
structure SameIndex (s t : State) : Prop where
  index : t.dir.index = s.dir.index
  condition : t.dir.condition = s.dir.condition
  phase : t.site.phase = s.site.phase

section
variable {s t u : State}

theorem SameIndex.refl (s : State) : SameIndex s s := ⟨rfl, rfl, rfl⟩

theorem SameIndex.trans (h : SameIndex s t) (k : SameIndex t u) : SameIndex s u :=
  ⟨k.index.trans h.index, k.condition.trans h.condition, k.phase.trans h.phase⟩

theorem SameWork.sameIndex (h : SameWork s t) : SameIndex s t := ⟨h.index, h.condition, h.phase⟩

theorem AroundStore.sameIndex (h : AroundStore s t) : SameIndex s t := ⟨h.index, h.condition, h.phase⟩

theorem SameIndex.indexRight (h : SameIndex s t) (r : IndexRight s) : IndexRight t := by
  rw [IndexRight, h.index, h.condition, h.phase]
  exact r

/-! ### Reads -/

/-- R44: what a page passes its read check with. -/
theorem readPage_programmed {st : Store} {e : IndexEntry} {rs : List Record} (h : st.readPage e = some rs) :
    ∃ x, (st.page e.page).contents = .programmed x ∧ x.records = rs ∧ orderedWithin e.low e.high rs = true := by
  unfold Store.readPage at h
  split at h
  · cases h
  · rename_i x held
    split at h
    · rename_i passes
      obtain rfl := Option.some.inj h
      simp only [Bool.and_eq_true] at passes
      exact ⟨x, held, rfl, passes.2⟩
    · cases h

theorem readFor_some {e : IndexEntry} {s1 : State} {rs : List Record} (h : s.readFor e = (s1, some rs)) :
    s1 = s ∧ s.store.readPage e = some rs := by
  cases read : s.store.readPage e with
  | none =>
    rw [readFor_of_none s e read] at h
    cases h
  | some xs =>
    rw [readFor_of_some s e xs read] at h
    obtain ⟨rfl, eq⟩ := Prod.mk.inj h
    exact ⟨rfl, eq⟩

theorem readFor_none {e : IndexEntry} {s1 : State} (h : s.readFor e = (s1, none)) : SameWork s s1 := by
  have same := readFor_sameWork s e
  rwa [h] at same

/-! ### COMPACT -/

/-- R66, R75: while the running work reads, the array programs no copy and no number is marked. -/
theorem CoreRight.arrayApart (h : CoreRight s) (reads : ∀ w, s.store.work = some w → w.phase = .reading) :
    ArrayApart s ∧ WorkEntry.logMark ∉ s.store.workQ := by
  obtain ⟨program, -, mark, -, logging⟩ := h.array
  have none_ : WorkEntry.logMark ∉ s.store.workQ := fun mem => by
    obtain ⟨w, running, logs⟩ := logging mem
    exact absurd ((reads w running).symm.trans logs) (by decide)
  refine ⟨⟨fun i p k => ?_, fun k => none_ (List.mem_of_mem_head? (mark k))⟩, none_⟩
  obtain ⟨-, w, c, running, phase, -⟩ := program i p k
  exact phase (reads w running)

/-- The running work that reads, or none, gives way to another form, or to the next. -/
theorem CoreRight.replaceWork (h : CoreRight s) (reads : ∀ w, s.store.work = some w → w.phase = .reading) (w : Work)
    (fits : WorkFits s w) : CoreRight (s.mapStore fun st => { st with work := some w }) :=
  have ⟨⟨program, _⟩, none_⟩ := h.arrayApart reads
  h.withWork w fits (fun i p k => absurd k (program i p)) fun mem => absurd mem none_

/-- R75: a work whose reads have ended, with its layout. -/
def Work.laidOut (index : List IndexEntry) (w : Work) : Work :=
  { w with copies := compactLayout w.gathered, released := index.map IndexEntry.page }

theorem WorkFits.laidOut {w : Work} (h : WorkFits s w) (phase : w.phase = .reading) (read : w.todo = []) :
    WorkFits s { w.laidOut s.dir.index with phase := .commitWait } := by
  obtain ⟨-, -, ordered, -⟩ := h.reading phase
  have unprogrammed {c : Copy} (mem : c ∈ compactLayout w.gathered) := (compactLayout_records mem).1
  exact {
    tile := fun _ => by
      have none_ : s.dir.index.filter (fun e => !(s.dir.index.map IndexEntry.page).contains e.page) = [] := by
        rw [List.filter_eq_nil_iff]
        intro e mem
        simpa using ⟨e, mem, rfl⟩
      show Partition ((s.dir.index.filter fun e => !(s.dir.index.map IndexEntry.page).contains e.page).map
        IndexEntry.range ++ (compactLayout w.gathered).map Copy.range)
      rw [none_]
      exact compactLayout_partition ordered
    nodup := by
      have none_ : (compactLayout w.gathered).filterMap Copy.page = [] :=
        List.filterMap_eq_nil_iff.mpr fun c mem => unprogrammed mem
      show ((compactLayout w.gathered).filterMap Copy.page).Nodup
      rw [none_]
      exact List.nodup_nil
    held := fun c mem p page => absurd ((unprogrammed mem).symm.trans page) nofun
    records := fun c mem => (compactLayout_records mem).2
    released := fun p mem => List.mem_map.mp mem
    logging := nofun
    read := fun _ => read
    reading := nofun }

theorem CoreRight.fixLayout (h : CoreRight s) {w : Work} (running : s.store.work = some w)
    (phase : w.phase = .reading) (read : w.todo = []) : CoreRight s.fixLayout := by
  have reads (v : Work) (runs : s.store.work = some v) : v.phase = .reading :=
    Option.some.inj (running.symm.trans runs) ▸ phase
  have laid := h.replaceWork reads _ ((h.fits w running).laidOut phase read)
  refine CoreRight.startCopies (s := s.mapWork _) ?_ (h.arrayApart reads).1
  have once : (s.mapWork fun w => { w with copies := compactLayout w.gathered,
                                           released := s.dir.index.map IndexEntry.page }).mapWork
      (fun w => { w with phase := .commitWait })
      = s.mapWork fun w => { w.laidOut s.dir.index with phase := .commitWait } := by
    simp only [State.mapWork, State.mapStore, Option.map_map]
    rfl
  rw [once, mapWork_of_some running]
  exact laid

theorem compactNext_around (s : State) : AroundStore s s.compactNext := by
  unfold State.compactNext
  split
  · split
    · exact (mapWork_around _ _).trans (startCopies_around _)
    · exact ⟨rfl, rfl, rfl, rfl, .inl rfl, fun none_ => by
        obtain ⟨op, capped, touched⟩ := placePrio_touches s .compactRead
        rw [touched]
        exact none_, fun _ none_ => by
          have kind := placePrio_op s .compactRead
          rw [none_] at kind
          exact Option.map_eq_none_iff.mp kind⟩
  · exact .refl s

theorem CoreRight.compactNext (h : CoreRight s) (reads : ∀ w, s.store.work = some w → w.phase = .reading) :
    CoreRight s.compactNext := by
  unfold State.compactNext
  split
  · rename_i w running
    split
    · rename_i read
      exact h.fixLayout running (reads w running) read
    · exact (placePrio_sameWork s _).coreRight h
  · exact h

theorem WorkFits.readOn {w : Work} (h : WorkFits s w) (phase : w.phase = .reading) {e : IndexEntry}
    {rest : List IndexEntry} (todo : w.todo = e :: rest) (rs : List Record)
    (ordered : orderedWithin 1 topBadge (w.gathered ++ rs) = true)
    (below : ∀ r ∈ rs, ∀ x ∈ rest, r.badge < x.low) :
    WorkFits s { w with todo := rest, gathered := w.gathered ++ rs } := by
  obtain ⟨none_, ⟨read, index⟩, -, before⟩ := h.reading phase
  exact { h with
    read := fun no => absurd phase no
    reading := fun _ => ⟨none_, ⟨read ++ [e], by rw [index, todo]; simp⟩, ordered, fun r mem x later => by
      rcases List.mem_append.mp mem with mem | mem
      · exact before r mem x (todo ▸ List.mem_cons_of_mem e later)
      · exact below r mem x later⟩ }

/-- R75: the records of the next page come after those gathered. -/
theorem WorkFits.gather_ordered {w : Work} (h : WorkFits s w) (apart : IndexApart s) (phase : w.phase = .reading)
    {e : IndexEntry} {rest : List IndexEntry} (todo : w.todo = e :: rest) {rs : List Record}
    (ordered : orderedWithin e.low e.high rs = true) :
    orderedWithin 1 topBadge (w.gathered ++ rs) = true ∧ ∀ r ∈ rs, ∀ x ∈ rest, r.badge < x.low := by
  obtain ⟨-, ⟨read, index⟩, gathered, before⟩ := h.reading phase
  obtain ⟨apart, -, entries⟩ := apart
  rw [index, todo] at apart entries
  obtain ⟨low, -, high, -⟩ := entries e (List.mem_append_right _ List.mem_cons_self)
  obtain ⟨ascending, within⟩ := orderedWithin_iff.mp gathered
  obtain ⟨ascending', within'⟩ := orderedWithin_iff.mp ordered
  have later := (List.pairwise_cons.mp (List.pairwise_append.mp apart).2.1).1
  refine ⟨orderedWithin_iff.mpr ⟨List.pairwise_append.mpr ⟨ascending, ascending', fun a old b new_ => ?_⟩,
    fun r mem => ?_⟩, fun r mem x next => ?_⟩
  · exact Nat.lt_of_lt_of_le (before a old e (todo ▸ List.mem_cons_self)) (within' b new_).1
  · rcases List.mem_append.mp mem with old | new_
    · exact within r old
    · exact ⟨Nat.le_trans low (within' r new_).1, Nat.le_trans (within' r new_).2 high⟩
  · exact Nat.lt_of_le_of_lt (within' r mem).2 (later x next)

theorem CoreRight.compactPage (h : CoreRight s) {w : Work} (running : s.store.work = some w) {e : IndexEntry}
    {rest : List IndexEntry} (todo : w.todo = e :: rest) {rs : Option (List Record)}
    (passed : ∀ xs, rs = some xs → orderedWithin e.low e.high xs = true) : CoreRight (s.compactPage rest rs) := by
  have fits := h.fits w running
  have phase : w.phase = .reading := by
    by_contra later
    exact absurd (todo.symm.trans (fits.read later)) nofun
  have reads (v : Work) (runs : s.store.work = some v) : v.phase = .reading :=
    Option.some.inj (running.symm.trans runs) ▸ phase
  obtain ⟨-, -, gathered, -⟩ := fits.reading phase
  unfold State.compactPage
  split
  · split
    · exact h.failWork (h.arrayApart reads).1 _
    · rw [mapWork_of_some running]
      have on := fits.readOn phase todo [] (by rwa [List.append_nil]) (by simp)
      rw [List.append_nil] at on
      exact (h.replaceWork reads _ on).compactNext fun v runs => Option.some.inj runs ▸ phase
  · rename_i xs
    obtain ⟨ordered, below⟩ := fits.gather_ordered h.apart phase todo (passed xs rfl)
    rw [mapWork_of_some running]
    exact (h.replaceWork reads _ (fits.readOn phase todo xs ordered below)).compactNext
      fun v runs => Option.some.inj runs ▸ phase

theorem compactPage_around (s : State) (rest : List IndexEntry) (rs : Option (List Record)) :
    AroundStore s (s.compactPage rest rs) := by
  unfold State.compactPage
  split
  · exact .ite (failWork_around _ _) ((mapWork_around _ _).trans (compactNext_around _))
  · exact (mapWork_around _ _).trans (compactNext_around _)

theorem CoreRight.serveCompact (h : CoreRight s) : CoreRight s.serveCompact := by
  unfold State.serveCompact
  split
  · rename_i w running
    split
    · exact h
    · rename_i e rest todo
      have same := readFor_sameWork s e
      split
      rename_i s1 rs read
      rw [read] at same
      refine (same.coreRight h).compactPage (same.work.trans running) todo fun xs eq => ?_
      subst eq
      obtain ⟨-, page⟩ := readFor_some read
      exact (readPage_programmed page).choose_spec.2.2
  · exact h

theorem serveCompact_around (s : State) : AroundStore s s.serveCompact := by
  unfold State.serveCompact
  split
  · split
    · exact .refl s
    · rename_i e rest todo
      have same := readFor_around s e
      split
      rename_i s1 rs read
      rw [read] at same
      exact same.trans (compactPage_around _ _ _)
  · exact .refl s

theorem WorkRight.serveCompact (h : WorkRight s) : WorkRight s.serveCompact :=
  (serveCompact_around s).workRight h h.core.serveCompact

end

end Sys2Proof.Machine
end

section
/-! PROOF. BATCH OPEN, BATCH COMMIT with its planning reads, and COMPACT keep the invariant of the pages. -/

namespace Sys2Proof.Machine

section
variable {s t u : State}

/-! ### The plan (R86, R87) -/

/-- R87: the rows of the plan of an index. -/
abbrev State.planRows (s : State) (done : List (IndexEntry × List Record)) : List PlanRow :=
  s.dir.index.map fun e => s.store.rowOf s.batch.edits done e

/-- R88: the work that an accepted commit begins. -/
def Plan.work (p : Plan) (number : Nat) : Work :=
  { kind := .commit, number := number, phase := .commitWait, copies := p.copies, released := p.released
    added := p.added, removed := p.removed, replaced := p.replaced, todo := [], gathered := [] }

theorem planRows_ranges (done : List (IndexEntry × List Record)) :
    (s.planRows done).map PlanRow.range = s.dir.index.map IndexEntry.range := by
  rw [List.map_map]
  exact List.map_congr_left fun e _ => congrArg IndexEntry.range (rowOf_entry _ _ _ e)

theorem planRows_pages (done : List (IndexEntry × List Record)) :
    ((s.planRows done).map fun r => r.entry.page) = s.dir.index.map IndexEntry.page := by
  rw [List.map_map]
  exact List.map_congr_left fun e _ => congrArg IndexEntry.page (rowOf_entry _ _ _ e)

theorem keptRows_ranges (done : List (IndexEntry × List Record)) :
    (keptRows (s.planRows done)).map PlanRow.range = (s.dir.index.filter fun e =>
      !(planOf (s.planRows done)).released.contains e.page).map IndexEntry.range := by
  unfold keptRows
  generalize (planOf (s.planRows done)).released = released
  rw [List.filter_map, List.map_map]
  have same : ((fun r : PlanRow => !released.contains r.entry.page) ∘ fun e => s.store.rowOf s.batch.edits done e)
      = fun e => !released.contains e.page := by
    funext e
    simp
  rw [same]
  exact List.map_congr_left fun e _ => congrArg IndexEntry.range (rowOf_entry _ _ _ e)

/-- R86, R87: what a plan is made from: a directory that is a partition, and an Edit Buffer and pages read that
keep to their bounds. -/
structure PlanReady (s : State) (done : List (IndexEntry × List Record)) : Prop where
  tiled : tiles 1 (s.dir.index.map IndexEntry.range) = true
  few : s.batch.edits.length ≤ 64
  passed : ∀ x ∈ done, orderedWithin x.1.low x.1.high x.2 = true ∧ x.2.length ≤ 64

variable {done : List (IndexEntry × List Record)}

theorem PlanReady.workFits (h : PlanReady s done) (core : CoreRight s) (number : Nat) :
    WorkFits s ((planOf (s.planRows done)).work number) := by
  have pages : ((s.planRows done).map fun r => r.entry.page).Nodup := planRows_pages done ▸ core.apart.2.1
  have spans : Spans 1 ((s.planRows done).map PlanRow.range) (topBadge + 1) := by
    rw [planRows_ranges]
    exact tiles_iff_spans.mp h.tiled
  have fits : ∀ r ∈ s.planRows done, Fits r.entry.low r.entry.high r.records := fun r mem => by
    obtain ⟨e, -, rfl⟩ := List.mem_map.mp mem
    rw [rowOf_entry]
    exact rowOf_fits e h.few core.pages.2 h.passed
  have copies {c : Copy} (mem : c ∈ (planOf (s.planRows done)).copies) := planOf_copies_records spans fits mem
  exact {
    tile := fun _ => by
      show Partition ((s.dir.index.filter fun e => !(planOf (s.planRows done)).released.contains e.page).map
        IndexEntry.range ++ (planOf (s.planRows done)).copies.map Copy.range)
      rw [← keptRows_ranges]
      exact planOf_partition pages spans fits
    nodup := by
      have none_ : (planOf (s.planRows done)).copies.filterMap Copy.page = [] :=
        List.filterMap_eq_nil_iff.mpr fun c mem => (copies mem).1
      show ((planOf (s.planRows done)).copies.filterMap Copy.page).Nodup
      rw [none_]
      exact List.nodup_nil
    held := fun c mem p page => absurd ((copies mem).1.symm.trans page) nofun
    records := fun c mem => (copies mem).2
    released := fun p mem => by
      obtain ⟨r, row, page⟩ := planOf_released_subset mem
      obtain ⟨e, entry, rfl⟩ := List.mem_map.mp row
      rw [rowOf_entry] at page
      exact ⟨e, entry, page⟩
    logging := nofun
    read := fun _ => rfl
    reading := nofun }

/-! ### The commit is accepted -/

/-- R86, R88: an accepted commit as its copies are about to be started. -/
def State.accepted (s : State) (f : SiteFrame) (p : Plan) : State :=
  let s1 := s.takeNumber (p.work s.store.counter)
  let s2 := s1.mapBatch fun b =>
    { b with state := .committing, deadline := none, commit := some s.store.counter, purge := purgeListOf b.edits }
  s2.reply f .accepted (u32 s.store.counter ++ u8 p.copies.length ++ u8 p.released.length)

theorem acceptCommit_eq (s : State) (f : SiteFrame) (p : Plan) :
    s.acceptCommit f p = ((s.accepted f p).startCopies).arbitrate := rfl

theorem accepted_parts (s : State) (f : SiteFrame) (p : Plan) :
    (s.accepted f p).dir = s.dir ∧ (s.accepted f p).site.phase = s.site.phase
    ∧ (s.accepted f p).site.inHand = none ∧ (s.accepted f p).batch.state = .committing
    ∧ (s.accepted f p).store = { s.store with counter := s.store.counter + 1, work := some (p.work s.store.counter) } := by
  unfold State.accepted
  rw [reply_eq]
  exact ⟨rfl, rfl, rfl, rfl, rfl⟩

theorem acceptCommit_sameIndex (s : State) (f : SiteFrame) (p : Plan) : SameIndex s (s.acceptCommit f p) := by
  obtain ⟨dir, phase, -⟩ := accepted_parts s f p
  rw [acceptCommit_eq]
  have begun : SameIndex s (s.accepted f p) := ⟨by rw [dir], by rw [dir], phase⟩
  exact (begun.trans (startCopies_around _).sameIndex).trans (arbitrate_around _).sameIndex

theorem CoreRight.takeNumber (h : CoreRight s) (none_ : s.store.work = none) (w : Work)
    (fits : WorkFits s { w with number := s.store.counter }) : CoreRight (s.takeNumber w) := by
  have counted := h.withLog (fun st => { st with counter := st.counter + 1 }) rfl rfl rfl rfl rfl rfl
  have idle (v : Work) (runs : s.store.work = some v) : v.phase = .reading := absurd (none_.symm.trans runs) nofun
  exact counted.replaceWork idle { w with number := s.store.counter } (fits.of_held rfl (.of_same rfl rfl))

theorem WorkRight.acceptCommit (h : WorkRight s) (ready : PlanReady s done) (opened : s.site.phase = .open_)
    (none_ : s.store.work = none) (f : SiteFrame) :
    WorkRight (s.acceptCommit f (planOf (s.planRows done))) := by
  have taken := h.core.takeNumber none_ ((planOf (s.planRows done)).work s.store.counter)
    (ready.workFits h.core s.store.counter)
  have free := (h.core.arrayApart fun w runs => absurd (none_.symm.trans runs) nofun).1
  rw [acceptCommit_eq]
  obtain ⟨dir, phase, hand, batch, store⟩ := accepted_parts s f (planOf (s.planRows done))
  generalize s.accepted f (planOf (s.planRows done)) = t at dir phase hand batch store
  have core : CoreRight t := taken.congr (by rw [dir]; rfl) store
  have works : t.store.work = some ((planOf (s.planRows done)).work s.store.counter) := by rw [store]
  have right : WorkRight t := core.workRight
    ⟨fun open_ => absurd (batch.symm.trans open_) (by decide), fun _ _ _ waits => absurd (hand.symm.trans waits) nofun⟩
    fun closed => absurd (phase.trans opened) closed
  have apart : ArrayApart t := by
    rw [ArrayApart, store]
    exact free
  have started : CoreRight t.startCopies :=
    (core.setPhase works (x := .commitWait) nofun nofun nofun nofun).startCopies apart
  exact ((startCopies_around t).workRight right started).arbitrate

/-! ### The planning reads -/

/-- R87: another planning read is placed, of a batch that is OPEN. -/
theorem WorkRight.setPlanning (h : WorkRight s) (opened : s.site.phase = .open_) (batch : s.batch.state = .open_)
    (passed : ∀ x ∈ done, orderedWithin x.1.low x.1.high x.2 = true ∧ x.2.length ≤ 64) (f : SiteFrame)
    (todo : List IndexEntry) : WorkRight (s.setInHand f (.planning todo done)) := by
  have core : CoreRight (s.setInHand f (.planning todo done)) := h.core.congr rfl rfl
  refine core.workRight ⟨h.plan.1, fun g todo' done' waits => ⟨batch, ?_⟩⟩
    fun closed => absurd opened closed
  obtain ⟨-, rfl⟩ := PortWait.planning.inj (congrArg InHand.wait (Option.some.inj waits))
  exact passed

theorem planNext_sameIndex (s : State) (f : SiteFrame) (todo : List IndexEntry)
    (done : List (IndexEntry × List Record)) : SameIndex s (s.planNext f todo done) := by
  have refused (x : Result) (d : List Byte) : SameIndex s (s.refuseCommit f x d) :=
    ((restartIdle_sameWork s).trans (reply_sameWork _ _ _ _)).sameIndex
  unfold State.planNext State.finishPlan
  split
  · dsimp only
    split
    · exact refused _ _
    · split
      · exact refused _ _
      · exact acceptCommit_sameIndex _ _ _
  · exact SameIndex.trans (t := s.setInHand f _) ⟨rfl, rfl, rfl⟩ (placePrio_sameWork _ _).sameIndex

theorem WorkRight.planNext (h : WorkRight s) (index : IndexRight s) (few : s.batch.edits.length ≤ 64)
    (opened : s.site.phase = .open_) (batch : s.batch.state = .open_)
    (passed : ∀ x ∈ done, orderedWithin x.1.low x.1.high x.2 = true ∧ x.2.length ≤ 64) (f : SiteFrame)
    (todo : List IndexEntry) : WorkRight (s.planNext f todo done) := by
  obtain ⟨usable, none_⟩ := h.plan.1 batch
  have refused (x : Result) (d : List Byte) : WorkRight (s.refuseCommit f x d) :=
    ((restartIdle_sameWork s).trans (reply_sameWork _ _ _ _)).workRight h
  unfold State.planNext State.finishPlan
  split
  · dsimp only
    split
    · exact refused _ _
    · split
      · exact refused _ _
      · have ready : PlanReady s done := ⟨index.2 (by rw [opened]; decide) usable, few, passed⟩
        exact h.acceptCommit ready opened none_ f
  · exact (placePrio_sameWork _ _).workRight (h.setPlanning opened batch passed f _)

theorem servePlan_sameIndex (s : State) : SameIndex s s.servePlan := by
  unfold State.servePlan
  split
  · rename_i f e rest done _
    split
    · rename_i s1 read
      exact (((readFor_none read).trans (restartIdle_sameWork s1)).trans (reply_sameWork _ _ _ _)).sameIndex
    · rename_i s1 rs read
      obtain ⟨rfl, -⟩ := readFor_some read
      exact planNext_sameIndex _ _ _ _
  · exact .refl s

/-- R86, R87: the planning read of the commit in hand. -/
theorem WorkRight.servePlan (h : WorkRight s) (index : IndexRight s) (few : s.batch.edits.length ≤ 64) :
    WorkRight s.servePlan := by
  unfold State.servePlan
  split
  · rename_i f e rest done waits
    split
    · rename_i s1 read
      exact (((readFor_none read).trans (restartIdle_sameWork s1)).trans (reply_sameWork _ _ _ _)).workRight h
    · rename_i s1 rs read
      obtain ⟨rfl, page⟩ := readFor_some read
      obtain ⟨x, held, rfl, ordered⟩ := readPage_programmed page
      obtain ⟨batch, passed⟩ := h.plan.2 f _ done waits
      have opened : s1.site.phase = .open_ := by
        by_contra closed
        obtain ⟨-, none_, -⟩ := h.quiet closed
        exact absurd (none_.symm.trans waits) nofun
      refine h.planNext index few opened batch (fun y mem => ?_) f rest
      rcases List.mem_append.mp mem with old | new_
      · exact passed y old
      · obtain rfl := List.mem_singleton.mp new_
        exact ⟨ordered, h.core.pages.2 _ x held⟩
  · exact h

end

/-! ### The requests -/

section
variable {s t : State} {r : Req}

/-- The index stands, and the invariant of the pages is kept. -/
structure Keeps (s t : State) : Prop where
  same : SameIndex s t
  right : BatchRight s → IndexRight s → WorkRight s → WorkRight t

theorem SameWork.keeps (h : SameWork s t) : Keeps s t := ⟨h.sameIndex, fun _ _ => h.workRight⟩

theorem Keeps.refl (s : State) : Keeps s s := ⟨.refl s, fun _ _ => id⟩

theorem Keeps.ite {c : Prop} [Decidable c] {u : State} (h : Keeps s t) (k : Keeps s u) :
    Keeps s (if c then t else u) := by
  split
  · exact h
  · exact k

/-- What keeps the invariant goes on from what keeps it. -/
theorem Keeps.next {u : State} (h : Keeps s t) (same : SameIndex t u) (right : WorkRight t → WorkRight u) : Keeps s u :=
  ⟨h.same.trans same, fun b i w => right (h.right b i w)⟩

theorem Keeps.sameWork {u : State} (h : Keeps s t) (k : SameWork t u) : Keeps s u := h.next k.sameIndex k.workRight

theorem Keeps.arbitrate (h : Keeps s t) : Keeps s t.arbitrate :=
  h.next (arbitrate_around t).sameIndex WorkRight.arbitrate

/-- A request whose owner keeps the invariant of the card it is taken on. -/
theorem siteRequest_keeps {type : Byte} {early fits : Bool} {owner : SiteFrame → State → State}
    (h : siteRequest type r early fits owner s = .next t)
    (carried : ∀ f u, Taken s u → (early = true ∨ u.site.phase = .open_) → Keeps u (owner f u)) : Keeps s t := by
  rcases siteRequest_cases h with same | ⟨f, u, taken, opened, rfl⟩
  · exact same.keeps
  · have owner_ := carried f u taken (opened.symm.imp_right fun o => taken.phase.trans o)
    refine Keeps.sameWork ⟨taken.sameWork.sameIndex.trans owner_.same, fun batch index right => ?_⟩ (settle_sameWork _)
    refine owner_.right ?_ (taken.sameWork.indexRight index) (taken.sameWork.workRight right)
    obtain ⟨few, nodup, closed, -⟩ := batch
    rw [BatchRight, taken.batch]
    exact ⟨few, nodup, closed, fun _ _ waits => absurd (taken.hand.symm.trans waits) nofun⟩

theorem execBatchOpen_keeps (h : execBatchOpen r s = .next t) : Keeps s t :=
  siteRequest_keeps h fun f u taken opened => by
    split
    · exact (reply_sameWork _ _ _ _).keeps
    · rename_i free
      split
      · exact (reply_sameWork _ _ _ _).keeps
      · rename_i usable
        have condition : u.dir.condition = .usable := by
          cases condition : u.dir.condition with
          | usable => rfl
          | unusable => exact absurd condition usable
        have none_ : u.store.work = none := Option.not_isSome_iff_eq_none.mp fun works => free (.inr works)
        have opens : Keeps u (u.mapBatch fun _ => { Batch.startUp with state := .open_ }) :=
          ⟨⟨rfl, rfl, rfl⟩, fun _ _ right =>
            CoreRight.workRight (s := u.mapBatch _) (right.core.congr rfl rfl)
              ⟨fun _ => ⟨condition, none_⟩, fun _ _ _ waits => absurd (taken.hand.symm.trans waits) nofun⟩
              fun closed => absurd (opened.resolve_left nofun) closed⟩
        exact (opens.sameWork (restartIdle_sameWork _)).sameWork (reply_sameWork _ _ _ _)

theorem execBatchCommit_keeps (h : execBatchCommit r s = .next t) : Keeps s t :=
  siteRequest_keeps h fun f u taken opened => by
    split
    · exact (reply_sameWork _ _ _ _).keeps
    · exact (reply_sameWork _ _ _ _).keeps
    · rename_i batch
      refine .ite ?_ (.ite ?_ ?_)
      · exact ((closeBatch_sameWork u (isPlanning_of_none taken.hand)).trans (reply_sameWork _ _ _ _)).keeps
      · exact ((restartIdle_sameWork u).trans (reply_sameWork _ _ _ _)).keeps
      · exact ⟨planNext_sameIndex _ _ _ _, fun few index right =>
          right.planNext index few.1 (opened.resolve_left nofun) batch (by simp) f _⟩

/-- R74, R75: the work that COMPACT begins. It reads the index from its first entry on. -/
def State.compactWork (s : State) : Work :=
  { kind := .compact, number := s.store.counter, phase := .reading, copies := [], released := [], added := 0
    removed := 0, replaced := 0, todo := s.dir.index, gathered := [] }

theorem workFits_compactWork (s : State) : WorkFits s s.compactWork where
  tile := fun no => absurd rfl no
  nodup := List.nodup_nil
  held := nofun
  records := nofun
  released := nofun
  logging := nofun
  read := fun no => absurd rfl no
  reading := fun _ => ⟨rfl, ⟨[], rfl⟩, rfl, nofun⟩

theorem execCompact_keeps (h : execCompact r s = .next t) : Keeps s t :=
  siteRequest_keeps h fun f u taken opened => by
    dsimp only
    split
    · exact (reply_sameWork _ _ _ _).keeps
    · rename_i free
      have batch : u.batch.state = .closed := by
        by_contra no
        exact free (.inl no)
      have none_ : u.store.work = none := Option.not_isSome_iff_eq_none.mp fun works => free (.inr works)
      refine .ite (reply_sameWork _ _ _ _).keeps (.ite (reply_sameWork _ _ _ _).keeps (Keeps.arbitrate ?_))
      have begun : Keeps u (u.takeNumber u.compactWork) := ⟨⟨rfl, rfl, rfl⟩, fun _ _ right =>
        (right.core.takeNumber none_ _ (workFits_compactWork u)).workRight
          ⟨fun open_ => absurd (batch.symm.trans open_) (by decide),
            fun _ _ _ waits => absurd (taken.hand.symm.trans waits) nofun⟩
          fun closed => absurd (opened.resolve_left nofun) closed⟩
      have replied := reply_sameWork (u.takeNumber u.compactWork) f .accepted (u32 u.store.counter)
      refine (begun.sameWork replied).next (compactNext_around _).sameIndex fun right =>
        (compactNext_around _).workRight right (right.core.compactNext fun w runs => ?_)
      obtain rfl := Option.some.inj (runs.symm.trans replied.work)
      rfl

/-- R87: a planning read. -/
theorem execPlanningRead_keeps (h : execPlanningRead s = .next t) : Keeps s t := by
  rcases whileRunning_cases h with rfl | ⟨-, rfl⟩
  · exact .refl t
  · refine Keeps.sameWork ?_ (settle_sameWork _)
    split
    · refine Keeps.arbitrate ⟨(dropPrio_sameWork s).sameIndex.trans (servePlan_sameIndex _), fun few index right => ?_⟩
      exact ((dropPrio_sameWork s).workRight right).servePlan ((dropPrio_sameWork s).indexRight index) few.1
    · exact .refl s

end

end Sys2Proof.Machine
end

section
/-! PROOF. The commit-complete event and the end of the scan leave the Page Index a partition. -/

namespace Sys2Proof.Machine

/-! ### The order of the index (R41) -/

theorem insertEntry_perm (e : IndexEntry) (ix : List IndexEntry) : (insertEntry e ix).Perm (e :: ix) := by
  induction ix with
  | nil => exact List.Perm.refl _
  | cons a rest ih =>
    unfold insertEntry
    split
    · exact List.Perm.refl _
    · exact (ih.cons a).trans (List.Perm.swap e a rest)

theorem insertEntry_ordered {e : IndexEntry} {ix : List IndexEntry} (h : ix.Pairwise fun a b => a.low ≤ b.low) :
    (insertEntry e ix).Pairwise fun a b => a.low ≤ b.low := by
  induction ix with
  | nil => exact List.pairwise_singleton _ e
  | cons a rest ih =>
    obtain ⟨first, ordered⟩ := List.pairwise_cons.mp h
    unfold insertEntry
    split
    · rename_i lt
      refine List.pairwise_cons.mpr ⟨fun b mem => ?_, h⟩
      rcases List.mem_cons.mp mem with rfl | mem
      · exact Nat.le_of_lt lt
      · exact Nat.le_trans (Nat.le_of_lt lt) (first b mem)
    · rename_i ge
      refine List.pairwise_cons.mpr ⟨fun b mem => ?_, ih ordered⟩
      rcases List.mem_cons.mp ((insertEntry_perm e rest).mem_iff.mp mem) with rfl | mem
      · exact Nat.le_of_not_lt ge
      · exact first b mem

theorem insertEntries_perm (es ix : List IndexEntry) :
    (es.foldl (fun ix e => insertEntry e ix) ix).Perm (ix ++ es) := by
  induction es generalizing ix with
  | nil => simp
  | cons e es ih =>
    refine (ih (insertEntry e ix)).trans ?_
    exact ((insertEntry_perm e ix).append_right es).trans List.perm_middle.symm

theorem insertEntries_ordered (es : List IndexEntry) {ix : List IndexEntry}
    (h : ix.Pairwise fun a b => a.low ≤ b.low) :
    (es.foldl (fun ix e => insertEntry e ix) ix).Pairwise fun a b => a.low ≤ b.low := by
  induction es generalizing ix with
  | nil => exact h
  | cons e es ih => exact ih (insertEntry_ordered h)

/-! ### The pages of a complete work -/

/-- R45, R66: programmed copies enter the index with their own ranges, each under its own page. -/
theorem entries_of_copies {st : Store} {cs : List Copy}
    (h : ∀ c ∈ cs, ∃ p, c.page = some p ∧ CarriesRange st p c) :
    ((cs.filterMap Copy.page).filterMap st.entryOf).map IndexEntry.range = cs.map Copy.range
    ∧ ((cs.filterMap Copy.page).filterMap st.entryOf).map IndexEntry.page = cs.filterMap Copy.page := by
  induction cs with
  | nil => exact ⟨rfl, rfl⟩
  | cons c cs ih =>
    obtain ⟨p, page, x, img, low, high⟩ := h c List.mem_cons_self
    obtain ⟨ranges, pages⟩ := ih fun c mem => h c (List.mem_cons_of_mem _ mem)
    have entry : st.entryOf p = some { low := x.low, high := x.high, page := p, count := x.count, commit := x.commit } := by
      simp [Store.entryOf, img]
    rw [List.filterMap_cons_some page, List.filterMap_cons_some entry, List.map_cons, List.map_cons, List.map_cons,
      ranges, pages]
    exact ⟨by simp [IndexEntry.range, Copy.range, low, high], rfl⟩

section
variable {s t : State}

theorem WorkRight.logging_of_mark (h : WorkRight s) (running : s.store.running = some .logMark) :
    ∃ w, s.store.work = some w ∧ w.phase = .logging := by
  obtain ⟨-, -, mark, -, logging⟩ := h.array
  exact logging (List.mem_of_mem_head? (mark (running_kind running)))

/-- R66: in LOGGING every copy is programmed. -/
theorem WorkFits.programmed {w : Work} (h : WorkFits s w) (logging : w.phase = .logging) :
    ∀ c ∈ w.copies, ∃ p, c.page = some p ∧ CarriesRange s.store p c := fun c mem => by
  have none_ := List.countP_eq_zero.mp (h.logging logging) c mem
  obtain ⟨p, page⟩ := Option.ne_none_iff_exists'.mp fun no : c.page = none => none_ (by rw [no]; rfl)
  exact ⟨p, page, (h.held c mem p page).2⟩

/-- R41, R75, R87: at the completing MARK the new pages' ranges, with those kept, partition the badge numbers. -/
theorem WorkRight.markPartitions (h : WorkRight s) : MarkPartitions s := fun w works running => by
  obtain ⟨v, runs, logging⟩ := h.logging_of_mark running
  obtain rfl := Option.some.inj (works.symm.trans runs)
  have fits := h.core.fits w works
  rw [Work.heldPages, (entries_of_copies (fits.programmed logging)).1]
  exact fits.tile (by rw [logging]; decide)

/-! ### The switch (R45, R66) -/

/-- What the commit-complete event of the work `w` does to the index and the store. -/
structure Switched (s t : State) (w : Work) : Prop where
  index : t.dir.index = switchIndex s.store s.dir.index w.released w.heldPages
  phase : t.site.phase = s.site.phase
  batch : t.batch.state = s.batch.state ∨ t.batch.state = .closed
  hand : t.site.inHand = s.site.inHand ∨ t.site.isPlanning = false
  pages : t.store.pages = s.store.pages
  states : ∀ q, t.store.stateOf q = if q ∈ w.released then .stale .superseded
    else if q ∈ w.heldPages then .data else s.store.stateOf q
  erases : t.store.eraseQ = s.store.eraseQ ++ ascending w.released
  op : t.store.op = none
  work : t.store.work = none
  queue : t.store.workQ = s.store.workQ.tail

theorem switchPages_switched (s : State) (w : Work) :
    Switched s ((((s.mapStore fun st => st.logNumber w.number).endOp).dropWork).switchPages w) w := by
  unfold State.switchPages
  obtain ⟨v, data⟩ := foldl_setState_eq (((s.mapStore fun st => st.logNumber w.number).endOp).dropWork).store
    w.heldPages .data
  have held := stateOf_foldl_setState (((s.mapStore fun st => st.logNumber w.number).endOp).dropWork).store
    w.heldPages .data
  rw [data] at held
  obtain ⟨v', eq, states⟩ := toStale_spec { (((s.mapStore fun st => st.logNumber w.number).endOp).dropWork).store with
    pageState := v } w.released .superseded
  simp only [State.mapStore, State.endOp, State.dropWork] at data eq held states ⊢
  simp only [data, eq]
  refine ⟨rfl, rfl, .inl rfl, .inl rfl, rfl, fun q => (states q).trans ?_, rfl, rfl, rfl, rfl⟩
  rw [held q]
  rfl

theorem Switched.checkSpare {w : Work} (h : Switched s t w) (n : Nat) : Switched s (t.checkSpare n) w := by
  unfold State.checkSpare
  split
  · obtain ⟨f, ns, touched⟩ := raiseFault_touches t .spareLow t.store.spareSum
    rw [touched]
    exact { h with }
  · exact h

theorem Switched.restartScan {w : Work} (h : Switched s t w) : Switched s t.restartScan w := by
  unfold State.restartScan
  split
  · exact { h with hand := .inr rfl }
  · exact h

/-- R66, R76, R90: the end of the running work. -/
theorem commitDone_switched (s : State) (w : Work) : Switched s (s.commitDone w) w := by
  have switched := switchPages_switched s w
  refine Switched.restartScan (Switched.checkSpare ?_ _)
  generalize (((s.mapStore fun st => st.logNumber w.number).endOp).dropWork).switchPages w = u at switched ⊢
  cases w.kind with
  | commit => exact { switched with batch := .inr rfl }
  | compact => exact { switched with }

variable {w : Work}

theorem Switched.index_perm (h : Switched s t w) : t.dir.index.Perm
    (s.dir.index.filter (fun e => !w.released.contains e.page) ++ w.heldPages.filterMap s.store.entryOf) := by
  rw [h.index]
  exact insertEntries_perm _ _

/-- R41, R45: the ranges of the new index follow one another. -/
theorem Switched.tiled (h : Switched s t w) (ordered : s.dir.index.Pairwise fun a b => a.low ≤ b.low)
    (parts : Partition ((s.dir.index.filter fun e => !w.released.contains e.page).map IndexEntry.range
      ++ (w.heldPages.filterMap s.store.entryOf).map IndexEntry.range)) :
    t.dir.index.Pairwise (fun a b => a.low ≤ b.low) ∧ tiles 1 (t.dir.index.map IndexEntry.range) = true := by
  have sorted : t.dir.index.Pairwise fun a b => a.low ≤ b.low := by
    rw [h.index]
    exact insertEntries_ordered _ (ordered.filter _)
  refine ⟨sorted, tiles_of_partition (parts.perm ?_) (List.pairwise_map.mpr sorted)⟩
  rw [← List.map_append]
  exact (h.index_perm.map _).symm

/-- R41: an index whose ranges follow one another lies apart. -/
theorem apart_of_tiles {ix : List IndexEntry} (h : tiles 1 (ix.map IndexEntry.range) = true) :
    ix.Pairwise (fun a b => a.high < b.low) ∧ ∀ e ∈ ix, 1 ≤ e.low ∧ e.low ≤ e.high ∧ e.high ≤ topBadge := by
  have spans := tiles_iff_spans.mp h
  refine ⟨List.pairwise_map.mp spans.apart, fun e mem => ?_⟩
  obtain ⟨low, le, high⟩ := spans.bounds (List.mem_map_of_mem mem)
  exact ⟨low, le, Nat.lt_succ_iff.mp high⟩

/-- R45, R57: the pages of the new index are DATA pages, each named once. -/
theorem Switched.dataPages (h : Switched s t w) (core : CoreRight s) (fits : WorkFits s w)
    (logging : w.phase = .logging) :
    (t.dir.index.map IndexEntry.page).Nodup ∧ ∀ e ∈ t.dir.index, t.store.stateOf e.page = .data := by
  obtain ⟨-, pages, entries⟩ := core.apart
  have new_ := (entries_of_copies (fits.programmed logging)).2
  have released {p : Page} (mem : p ∈ w.released) : s.store.stateOf p = .data := by
    obtain ⟨e, entry, rfl⟩ := fits.released p mem
    exact (entries e entry).2.2.2
  have held {p : Page} (mem : p ∈ w.heldPages) := fits.held_page mem
  refine ⟨((h.index_perm.map IndexEntry.page).nodup_iff).mpr ?_, fun e mem => ?_⟩
  · rw [List.map_append, Work.heldPages, new_]
    refine List.nodup_append'.mpr ⟨pages.sublist (List.filter_sublist.map _), fits.nodup, fun p kept fresh => ?_⟩
    obtain ⟨e, mem, rfl⟩ := List.mem_map.mp kept
    have data := (entries e (List.mem_of_mem_filter mem)).2.2.2
    exact absurd (data.symm.trans (held fresh)) (by decide)
  · rcases List.mem_append.mp (h.index_perm.mem_iff.mp mem) with kept | fresh
    · obtain ⟨entry, stays⟩ := List.mem_filter.mp kept
      rw [h.states, if_neg (by simpa using stays)]
      split
      · rfl
      · exact (entries e entry).2.2.2
    · have page : e.page ∈ w.heldPages := by
        rw [Work.heldPages, ← new_]
        exact List.mem_map_of_mem fresh
      rw [h.states, if_neg fun mem => absurd ((released mem).symm.trans (held page)) (by decide), if_pos page]

/-- R45, R66: the commit-complete event leaves the invariant of the pages. -/
theorem Switched.coreRight (h : Switched s t w) (core : CoreRight s) (ordered : IndexRight s)
    (running : s.store.running = some .logMark) (works : s.store.work = some w) (logging : w.phase = .logging)
    (parts : Partition ((s.dir.index.filter fun e => !w.released.contains e.page).map IndexEntry.range
      ++ (w.heldPages.filterMap s.store.entryOf).map IndexEntry.range)) : CoreRight t := by
  have fits := core.fits w works
  obtain ⟨apart, entries⟩ := apart_of_tiles (h.tiled ordered.1 parts).2
  obtain ⟨nodup, data⟩ := h.dataPages core fits logging
  obtain ⟨-, -, mark, once, -⟩ := core.array
  obtain ⟨unique, stale⟩ := core.eraseQueue
  have released {p : Page} (mem : p ∈ w.released) : s.store.stateOf p = .data := by
    obtain ⟨e, entry, rfl⟩ := fits.released p mem
    obtain ⟨-, -, was⟩ := core.apart
    exact (was e entry).2.2.2
  have page (p : Page) : t.store.page p = s.store.page p := by rw [Store.page, Store.page, h.pages]
  have queue : WorkEntry.logMark ∉ t.store.workQ := by
    have head := mark (running_kind running)
    rw [h.queue]
    cases entries : s.store.workQ with
    | nil => exact List.not_mem_nil
    | cons a rest =>
      rw [entries] at head once
      obtain rfl := Option.some.inj head
      rw [List.count_cons_self] at once
      exact List.count_eq_zero.mp (Nat.le_zero.mp (Nat.le_of_succ_le_succ once))
  exact {
    apart := ⟨apart, nodup, fun e mem => by
      obtain ⟨low, le, high⟩ := entries e mem
      exact ⟨low, le, high, data e mem⟩⟩
    pages := by simpa only [PagesRight, HeadersInRange, page] using core.pages
    fits := fun v runs => absurd (h.work.symm.trans runs) nofun
    array := arrayOnWork_of_none h.op (by rw [List.count_eq_zero_of_not_mem queue]; exact Nat.zero_le 1)
      fun mem => absurd mem queue
    eraseQueue := by
      rw [EraseQueueRight, h.erases]
      refine ⟨joined_nodup _ unique fun p mem queued => ?_, fun p mem => ?_⟩
      · rcases stale p queued with eq | eq <;> exact absurd ((released mem).symm.trans eq) (by decide)
      · rw [h.states]
        split
        · exact .inr rfl
        · rename_i no
          have old := (List.mem_append.mp mem).resolve_right fun joins => no ((mem_ascending_iff _ p).mp joins)
          rw [if_neg fun held => core.held_not_queued (fits.held_page held) old]
          exact stale p old }

theorem Switched.workRight (h : Switched s t w) (right : WorkRight s) (index : IndexRight s)
    (running : s.store.running = some .logMark) (works : s.store.work = some w) : WorkRight t := by
  obtain ⟨v, runs, logging⟩ := right.logging_of_mark running
  obtain rfl := Option.some.inj (works.symm.trans runs)
  have shut : s.batch.state ≠ .open_ := fun open_ => absurd ((right.plan.1 open_).2.symm.trans works) nofun
  refine (h.coreRight right.core index running works logging (right.markPartitions _ works running)).workRight
    ⟨fun open_ => ?_, fun f todo done waits => ?_⟩ fun closed => ?_
  · rcases h.batch with same | closed
    · exact absurd (same.symm.trans open_) shut
    · exact absurd (closed.symm.trans open_) (by decide)
  · rcases h.hand with same | quiet
    · exact absurd (right.plan.2 f todo done (same.symm.trans waits)).1 shut
    · exact absurd (quiet.symm.trans (isPlanning_of_planning waits)) (by decide)
  · rw [h.phase] at closed
    obtain ⟨-, -, none_, -⟩ := right.quiet closed
    exact absurd (none_.symm.trans works) nofun

end

end Sys2Proof.Machine
end

section
/-! PROOF. The end of the scan leaves the Page Index in order and apart (R71, R72), and a start-up leaves the pages as
they stand. -/

namespace Sys2Proof.Machine

/-! ### The candidates (R72) -/

theorem insertCandidate_perm (e : IndexEntry) (cs : List IndexEntry) : (insertCandidate e cs).Perm (e :: cs) := by
  induction cs with
  | nil => exact List.Perm.refl _
  | cons a rest ih =>
    unfold insertCandidate
    split
    · exact List.Perm.refl _
    · exact (ih.cons a).trans (List.Perm.swap e a rest)

theorem insertCandidates_perm {es cs all : List IndexEntry} (h : all = cs ++ es) :
    (es.foldl (fun cs e => insertCandidate e cs) cs).Perm all := by
  subst h
  induction es generalizing cs with
  | nil => simp
  | cons e es ih =>
    refine ih.trans ?_
    exact ((insertCandidate_perm e cs).append_right es).trans List.perm_middle.symm

/-- R71: the entry of a page that is a candidate. -/
def Store.candidateOf (st : Store) (p : Page) : Option IndexEntry :=
  match classify st.lastLogged (st.page p) with
  | .candidate i => some (i.entry p)
  | _ => none

theorem candidates_perm (st : Store) : st.candidates.Perm ((finList 544).filterMap st.candidateOf) :=
  insertCandidates_perm (List.nil_append _).symm

theorem candidateOf_some {st : Store} {p : Page} {e : IndexEntry} (h : st.candidateOf p = some e) :
    ∃ i, classify st.lastLogged (st.page p) = .candidate i ∧ e = i.entry p := by
  unfold Store.candidateOf at h
  split at h
  · rename_i i class_
    exact ⟨i, class_, (Option.some.inj h).symm⟩
  · cases h

theorem classify_candidate {l : Nat} {d : DirPage} {i : PageImage} (h : classify l d = .candidate i) :
    d.contents = .programmed i ∧ i.low ≤ i.high := by
  unfold classify at h
  split at h
  · cases h
  · split at h
    · cases h
    · rename_i x held
      split at h
      · cases h
      · rename_i sound
        split at h
        · cases h
        · obtain rfl := PageFound.candidate.inj h
          simp only [Bool.or_eq_true, decide_eq_true_iff, not_or] at sound
          exact ⟨held, Nat.le_of_not_lt sound.1.2⟩

/-- R72: each candidate is of a page of its own, which carries its range. -/
theorem candidates_spec (st : Store) : (st.candidates.map IndexEntry.page).Nodup
    ∧ ∀ e ∈ st.candidates, ∃ i, classify st.lastLogged (st.page e.page) = .candidate i ∧ e.low = i.low ∧ e.high = i.high := by
  have perm := candidates_perm st
  refine ⟨((perm.map _).nodup_iff).mpr ?_, fun e mem => ?_⟩
  · have own {p : Page} {e : IndexEntry} (h : st.candidateOf p = some e) : e.page = p := by
      obtain ⟨i, -, rfl⟩ := candidateOf_some h
      rfl
    have all := finList_ascending 544
    generalize finList 544 = ps at all
    induction ps with
    | nil => exact List.nodup_nil
    | cons p ps ih =>
      obtain ⟨first, rest⟩ := List.pairwise_cons.mp all
      cases found : st.candidateOf p with
      | none =>
        rw [List.filterMap_cons_none found]
        exact ih rest
      | some e =>
        rw [List.filterMap_cons_some found, List.map_cons, own found]
        refine List.nodup_cons.mpr ⟨fun mem => ?_, ih rest⟩
        obtain ⟨e', mem, page⟩ := List.mem_map.mp mem
        obtain ⟨q, later, found'⟩ := List.mem_filterMap.mp mem
        exact absurd (first q later) (by rw [← own found', page]; exact lt_irrefl p)
  · obtain ⟨p, -, found⟩ := List.mem_filterMap.mp (perm.mem_iff.mp mem)
    obtain ⟨i, class_, rfl⟩ := candidateOf_some found
    exact ⟨i, class_, rfl, rfl⟩

/-! ### The candidates kept (R72) -/

/-- One of the two ranges ends before the other begins. -/
def ClearOf (a b : IndexEntry) : Prop := a.high < b.low ∨ b.high < a.low

theorem overlaps_eq_false_iff {a b : IndexEntry} : a.overlaps b = false ↔ ClearOf a b := by
  simp only [IndexEntry.overlaps, ClearOf, Bool.and_eq_false_iff, decide_eq_false_iff_not, Nat.not_le]
  exact or_comm

/-- R72: one candidate after the other, as keptOf takes them. -/
def keepFrom (kept cs : List IndexEntry) : List IndexEntry :=
  cs.foldl (fun kept e => if kept.any e.overlaps then kept else kept ++ [e]) kept

theorem keepFrom_sublist (kept cs : List IndexEntry) : List.Sublist (keepFrom kept cs) (kept ++ cs) := by
  induction cs generalizing kept with
  | nil => rw [List.append_nil]; exact List.Sublist.refl _
  | cons e cs ih =>
    unfold keepFrom
    rw [List.foldl_cons]
    split
    · exact (ih kept).trans (List.Sublist.append_left (List.sublist_cons_self e cs) kept)
    · have next := ih (kept ++ [e])
      rwa [List.append_assoc] at next

theorem keepFrom_disjoint {kept cs : List IndexEntry} (h : kept.Pairwise ClearOf) :
    (keepFrom kept cs).Pairwise ClearOf := by
  induction cs generalizing kept with
  | nil => exact h
  | cons e cs ih =>
    unfold keepFrom
    rw [List.foldl_cons]
    split
    · exact ih h
    · rename_i free
      refine ih (List.pairwise_append.mpr ⟨h, List.pairwise_singleton _ e, fun a mem b last => ?_⟩)
      obtain rfl := List.mem_singleton.mp last
      have apart := List.any_eq_false.mp (by simpa using free) a mem
      exact (overlaps_eq_false_iff.mp (by simpa using apart)).symm

theorem keptOf_sublist (cs : List IndexEntry) : List.Sublist (keptOf cs) cs := keepFrom_sublist [] cs

theorem keptOf_disjoint (cs : List IndexEntry) : (keptOf cs).Pairwise ClearOf := keepFrom_disjoint List.Pairwise.nil

/-- Ranges in the order of their low bounds that are disjoint lie apart. -/
theorem apart_of_disjoint {ix : List IndexEntry} (ordered : ix.Pairwise fun a b => a.low ≤ b.low)
    (disjoint : ix.Pairwise ClearOf) (sound : ∀ e ∈ ix, e.low ≤ e.high) :
    ix.Pairwise fun a b => a.high < b.low := by
  refine (ordered.and disjoint).imp_of_mem fun {a b} _ mem both => ?_
  obtain ⟨le, apart | before⟩ := both
  · exact apart
  · exact absurd (Nat.lt_of_le_of_lt (sound b mem) before) (Nat.not_lt.mpr le)

/-! ### What is covered (R72) -/

/-- R41, R72: entries that lie apart and leave no badge number uncovered follow one another. -/
theorem tiles_of_covered {low : Nat} {ix : List IndexEntry} (apart : ix.Pairwise fun a b => a.high < b.low)
    (bounds : ∀ e ∈ ix, low ≤ e.low ∧ e.low ≤ e.high ∧ e.high ≤ topBadge) (le : low ≤ topBadge + 1)
    (covered : uncovered low ix = none) : tiles low (ix.map IndexEntry.range) = true := by
  rw [tiles_iff_spans]
  induction ix generalizing low with
  | nil =>
    unfold uncovered at covered
    split at covered
    · cases covered
    · rename_i above
      exact Nat.le_antisymm le (Nat.lt_of_not_le above)
  | cons e rest ih =>
    unfold uncovered at covered
    split at covered
    · rename_i begins
      obtain ⟨first, apart⟩ := List.pairwise_cons.mp apart
      obtain ⟨above, sound, top⟩ := bounds e List.mem_cons_self
      refine ⟨Nat.le_antisymm begins above, sound, ih apart (fun x mem => ?_) (Nat.succ_le_succ top) covered⟩
      obtain ⟨-, ordered, below⟩ := bounds x (List.mem_cons_of_mem e mem)
      exact ⟨first x mem, ordered, below⟩
    · cases covered

/-! ### The end of the scan -/

section
variable {s : State}

/-- R71, R72: the index that the scan forms. -/
def Store.scannedIndex (st : Store) : List IndexEntry :=
  (keptOf st.candidates).foldl (fun ix e => insertEntry e ix) []

theorem scannedIndex_perm (st : Store) : st.scannedIndex.Perm (keptOf st.candidates) :=
  (insertEntries_perm _ []).trans (List.Perm.of_eq (List.nil_append _))

theorem scannedIndex_ordered (st : Store) : st.scannedIndex.Pairwise fun a b => a.low ≤ b.low :=
  insertEntries_ordered _ List.Pairwise.nil

theorem scannedIndex_candidate {st : Store} {e : IndexEntry} (mem : e ∈ st.scannedIndex) :
    e ∈ keptOf st.candidates
    ∧ ∃ i, classify st.lastLogged (st.page e.page) = .candidate i ∧ e.low = i.low ∧ e.high = i.high := by
  have kept := (scannedIndex_perm st).mem_iff.mp mem
  exact ⟨kept, (candidates_spec st).2 e ((keptOf_sublist _).mem kept)⟩

theorem scannedIndex_bounds {st : Store} (headers : HeadersInRange st) {e : IndexEntry} (mem : e ∈ st.scannedIndex) :
    1 ≤ e.low ∧ e.low ≤ e.high ∧ e.high ≤ topBadge := by
  obtain ⟨-, i, class_, low, high⟩ := scannedIndex_candidate mem
  obtain ⟨held, sound⟩ := classify_candidate class_
  obtain ⟨least, most⟩ := headers e.page i held
  rw [low, high]
  exact ⟨least, sound, most⟩

theorem scannedIndex_apart {st : Store} (headers : HeadersInRange st) :
    st.scannedIndex.Pairwise fun a b => a.high < b.low := by
  have disjoint : st.scannedIndex.Pairwise ClearOf :=
    ((scannedIndex_perm st).pairwise_iff fun {a b} h => h.symm).mpr (keptOf_disjoint _)
  exact apart_of_disjoint (scannedIndex_ordered st) disjoint fun e mem => (scannedIndex_bounds headers mem).2.1

/-- What the end of the scan does to the index and the store. -/
structure Scanned (s t : State) : Prop where
  index : t.dir.index = s.store.scannedIndex
  condition : t.dir.condition = .usable → uncovered 1 s.store.scannedIndex = none
  batch : t.batch = s.batch
  hand : t.site.inHand = s.site.inHand
  pages : t.store.pages = s.store.pages
  states : ∀ p, t.store.stateOf p
    = scannedState s.store.lastLogged (keptOf s.store.candidates) p (s.store.page p)
  erases : t.store.eraseQ.Nodup ∧ ∀ p ∈ t.store.eraseQ, (t.store.stateOf p).isStale = true
  op : t.store.op = s.store.op
  work : t.store.work = s.store.work
  queue : t.store.workQ = s.store.workQ

theorem stateOf_scanned (st : Store) (kept : List IndexEntry) (p : Page) :
    (st.scanned kept).stateOf p = scannedState st.lastLogged kept p (st.page p) := by
  have at_ := vmake_getElem (n := 544) (fun n =>
    if h : n < 544 then scannedState st.lastLogged kept ⟨n, h⟩ (st.page ⟨n, h⟩) else .free) p
  refine Eq.trans ?_ (at_.trans (dif_pos p.isLt))
  rfl

theorem scanned_erases (st : Store) (kept : List IndexEntry) : (st.scanned kept).eraseQ.Nodup
    ∧ ∀ p ∈ (st.scanned kept).eraseQ, ((st.scanned kept).stateOf p).isStale = true := by
  have nodup : (finList 544).Nodup := (finList_ascending 544).imp ne_of_lt
  unfold Store.scanned
  generalize finList 544 = ps at nodup
  exact ⟨nodup.filter _, fun p mem => (List.mem_filter.mp mem).2⟩

/-- R71, R72: what the scan leaves of the store. -/
theorem scanned_parts (st : Store) (kept : List IndexEntry) : ∃ states page slot counter queue,
    st.scanned kept = { st with
      pageState := states, logPage := page, logSlot := slot, counter := counter, eraseQ := queue } := by
  unfold Store.scanned
  generalize st.scannedPosition = position
  exact ⟨_, position.1, position.2, _, _, rfl⟩

theorem Scanned.sameWork {t u : State} (h : Scanned s t) (k : SameWork t u) (batch : u.batch = t.batch)
    (hand : u.site.inHand = t.site.inHand) (queue : u.store.workQ = t.store.workQ) (op : u.store.op = t.store.op) :
    Scanned s u where
  index := k.index.trans h.index
  condition usable := h.condition (k.condition.symm.trans usable)
  batch := batch.trans h.batch
  hand := hand.trans h.hand
  pages := k.pages.trans h.pages
  states p := (k.stateOf p).trans (h.states p)
  erases := by simpa only [k.erases, k.stateOf] using h.erases
  op := op.trans h.op
  work := k.work.trans h.work
  queue := queue.trans h.queue

theorem Scanned.raiseFault {t : State} (h : Scanned s t) (k : FaultKind) (d : Nat) : Scanned s (t.raiseFault k d) := by
  have same := raiseFault_sameWork t k d
  obtain ⟨f, ns, touched⟩ := raiseFault_touches t k d
  rw [touched] at same ⊢
  exact h.sameWork same rfl rfl rfl rfl

theorem scan_scanned {kept : List IndexEntry} (h : kept = keptOf s.store.candidates) :
    Scanned s ((s.mapStore fun st => st.scanned kept).mapDir fun d => d.scanned kept) := by
  have states := stateOf_scanned s.store kept
  have erases := scanned_erases s.store kept
  have index : kept.foldl (fun ix e => insertEntry e ix) [] = s.store.scannedIndex := by rw [h]; rfl
  obtain ⟨v, page, slot, counter, queue, eq⟩ := scanned_parts s.store kept
  unfold State.mapStore
  beta_reduce
  rw [eq] at states erases ⊢
  rw [h] at states
  refine ⟨index, fun usable => ?_, rfl, rfl, rfl, states, erases, rfl, rfl, rfl⟩
  by_contra gap
  have covered : (uncovered 1 (kept.foldl (fun ix e => insertEntry e ix) [])).isSome = true :=
    Option.isSome_iff_ne_none.mpr (index ▸ gap)
  exact absurd ((if_pos covered).symm.trans usable) (by decide)

/-- R72: SCAN_END. -/
theorem scanEnds_scanned (s : State) : Scanned s s.scanEnds := by
  have start := scan_scanned (s := s) rfl
  have loading {t : State} (h : Scanned s t) : Scanned s (t.mapSite fun p => { p with phase := .loading }) := { h with }
  unfold State.scanEnds
  dsimp only
  generalize (s.mapStore fun st => st.scanned (keptOf s.store.candidates)).mapDir
    (fun d => d.scanned (keptOf s.store.candidates)) = u at start ⊢
  have gap : Scanned s (u.raiseGap (uncovered 1 u.dir.index)) := by
    unfold State.raiseGap
    split
    · exact start.raiseFault _ _
    · exact start
  refine loading ?_
  unfold State.raiseScanSpare
  split
  · exact gap.raiseFault _ _
  · exact gap

theorem scannedState_of_kept {l : Nat} {kept : List IndexEntry} {e : IndexEntry} {d : DirPage} {i : PageImage}
    (mem : e ∈ kept) (class_ : classify l d = .candidate i) : scannedState l kept e.page d = .data := by
  have found : kept.any (fun x => x.page == e.page) = true := List.any_eq_true.mpr ⟨e, mem, beq_self_eq_true _⟩
  simp [scannedState, class_, found]

theorem scannedState_of_stale {l : Nat} {kept : List IndexEntry} {p : Page} {d : DirPage}
    (h : (scannedState l kept p d).isStale = true) :
    scannedState l kept p d = .stale .abandoned ∨ scannedState l kept p d = .stale .superseded := by
  cases class_ : classify l d with
  | stale => exact .inr (by simp [scannedState, class_])
  | abandoned => exact .inl (by simp [scannedState, class_])
  | retired => simp [scannedState, class_, PageState.isStale] at h
  | free => simp [scannedState, class_, PageState.isStale] at h
  | candidate i =>
    by_cases kept_ : kept.any (fun e => e.page == p) = true
    · simp [scannedState, class_, kept_, PageState.isStale] at h
    · exact .inr (by simp [scannedState, class_, kept_])

variable {t : State}

/-- R41, R71, R72: the scan leaves the Page Index in order, and a USABLE directory covered. -/
theorem Scanned.indexRight (h : Scanned s t) (headers : HeadersInRange s.store) : IndexRight t := by
  rw [IndexRight, h.index]
  refine ⟨scannedIndex_ordered _, fun _ usable => ?_⟩
  exact tiles_of_covered (scannedIndex_apart headers) (fun e mem => scannedIndex_bounds headers mem) (by decide)
    (h.condition usable)

/-- R71, R72: the scan forms the index of DATA pages, and queues every STALE page for its erase. -/
theorem Scanned.workRight (h : Scanned s t) (right : WorkRight s) (closed : s.site.phase ≠ .open_) : WorkRight t := by
  obtain ⟨batch, hand, work, op⟩ := right.quiet closed
  have batch' : t.batch.state = .closed := by rw [h.batch, batch]
  have hand' : t.site.inHand = none := h.hand.trans hand
  have page (p : Page) : t.store.page p = s.store.page p := by rw [Store.page, Store.page, h.pages]
  obtain ⟨-, -, -, once, logging⟩ := right.array
  have core : CoreRight t := {
    apart := by
      rw [IndexApart, h.index]
      refine ⟨scannedIndex_apart right.pages.1, ?_, fun e mem => ?_⟩
      · exact (((scannedIndex_perm _).map _).nodup_iff).mpr
          ((candidates_spec _).1.sublist ((keptOf_sublist _).map _))
      · obtain ⟨low, le, high⟩ := scannedIndex_bounds right.pages.1 mem
        obtain ⟨kept, i, class_, -⟩ := scannedIndex_candidate mem
        exact ⟨low, le, high, (h.states e.page).trans (scannedState_of_kept kept class_)⟩
    pages := by simpa only [PagesRight, HeadersInRange, page] using right.pages
    fits := fun w runs => absurd ((h.work.trans work).symm.trans runs) nofun
    array := arrayOnWork_of_none (h.op.trans op) (by rw [h.queue]; exact once) (by rw [h.queue, h.work]; exact logging)
    eraseQueue := ⟨h.erases.1, fun p mem => by
      have stale := h.erases.2 p mem
      rw [h.states] at stale ⊢
      exact scannedState_of_stale stale⟩ }
  exact core.workRight ⟨fun open_ => absurd (batch'.symm.trans open_) (by decide),
    fun _ _ _ waits => absurd (hand'.symm.trans waits) nofun⟩ fun _ => ⟨batch', hand', h.work.trans work, h.op.trans op⟩

end

/-! ### Start-up (R28, R169) -/

section
variable {s t : State}

/-- Every volatile part of the index, the store, the batch and the port is at its value after start-up. -/
structure FromPages (pages : Vector DirPage 544) (t : State) : Prop where
  dir : t.dir = Directory.startUp
  site : t.site = Port.startUp
  batch : t.batch = Batch.startUp
  pages : t.store.pages = pages
  erases : t.store.eraseQ = []
  op : t.store.op = none
  work : t.store.work = none
  queue : t.store.workQ = []

variable {pages : Vector DirPage 544}

theorem FromPages.indexRight (h : FromPages pages t) : IndexRight t := by
  rw [IndexRight, h.dir, h.site]
  exact ⟨List.Pairwise.nil, fun scans => absurd rfl scans⟩

theorem FromPages.workRight (h : FromPages s.store.pages t) (right : PagesRight s.store) : WorkRight t := by
  have page (p : Page) : t.store.page p = s.store.page p := by rw [Store.page, Store.page, h.pages]
  have hand : t.site.inHand = none := by rw [h.site]; rfl
  have core : CoreRight t := {
    apart := by
      rw [IndexApart, h.dir]
      exact ⟨List.Pairwise.nil, List.nodup_nil, nofun⟩
    pages := by simpa only [PagesRight, HeadersInRange, page] using right
    fits := fun w runs => absurd (h.work.symm.trans runs) nofun
    array := arrayOnWork_of_none h.op (by rw [h.queue]; exact Nat.zero_le 1) (by rw [h.queue]; exact nofun)
    eraseQueue := by
      rw [EraseQueueRight, h.erases]
      exact ⟨List.nodup_nil, nofun⟩ }
  refine core.workRight ⟨fun open_ => ?_, fun _ _ _ waits => absurd (hand.symm.trans waits) nofun⟩
    fun _ => ⟨by rw [h.batch]; rfl, hand, h.work, h.op⟩
  rw [h.batch] at open_
  cases open_

theorem volatileReset_fromPages (s : State) : FromPages s.store.pages s.volatileReset :=
  ⟨rfl, rfl, rfl, rfl, rfl, rfl, rfl, rfl⟩

theorem startUp_fromPages (s : State) : FromPages s.store.pages s.startUp := by
  unfold State.startUp
  obtain ⟨f, ns, touched⟩ := raiseFault_touches { s.volatileReset with
      power := .running
      time := { seconds := 0, ms := 0 }
      resetIn := resetReleasedAt s.resetIn.raw } .clockUnset 0
  rw [touched]
  exact ⟨rfl, rfl, rfl, rfl, rfl, rfl, rfl, rfl⟩

/-- R48: a mark cut short leaves the headers and the counts of records. -/
theorem cutMark_pagesRight (h : PagesRight s.store) : PagesRight s.cutMark.store := by
  have marks (b : Badge) (ps : List Page) (st : Store) (right : PagesRight st) :
      PagesRight (ps.foldl (fun st p => st.markPage b p) st) := by
    induction ps generalizing st with
    | nil => exact right
    | cons p ps ih => exact ih _ (pagesRight_markPage right b p)
  unfold State.cutMark
  split
  · split
    · split
      · exact marks _ _ _ h
      · exact h
    · exact h
  · exact h

theorem cutOp_pagesRight (h : PagesRight s.store) : PagesRight s.cutOp.store := by
  unfold State.cutOp
  split
  · exact h
  · split
    · rename_i p _
      split
      · have each (q : Page) (x : PageImage) (img : ((s.store.setPage p
            { contents := .erased, retired := (s.store.page p).retired }).page q).contents = .programmed x) :
            (s.store.page q).contents = .programmed x := by
          by_cases eq : q = p
          · subst eq
            rw [page_setPage] at img
            cases img
          · rwa [page_setPage_of_ne _ _ _ _ eq] at img
        exact ⟨fun q x img => h.1 q x (each q x img), fun q x img => h.2 q x (each q x img)⟩
      · exact h
    · exact h
    · split
      · split
        · exact h
        · exact h
      · exact h
    · exact h
    · exact h
    · exact h
    · exact h

/-- R71, R169: the operations cut short leave every header in range. -/
theorem cut_pagesRight (h : PagesRight s.store) : PagesRight s.cut.store := cutOp_pagesRight (cutMark_pagesRight h)

end

end Sys2Proof.Machine
end

section
/-! PROOF. Every command keeps the Page Index a partition, and the invariant of the pages (R41). -/

namespace Sys2Proof.Machine

section
variable {s t u : State}

/-! ### The events of the store -/

/-- An event of the store that keeps what the invariant says of the index and the store. -/
theorem AroundStore.keeps (h : AroundStore s t) (core : WorkRight s → CoreRight t) : Keeps s t :=
  ⟨h.sameIndex, fun _ _ right => h.workRight right (core right)⟩

theorem whileRunning_keeps {f : State → State} (h : whileRunning f s = .next t) (keeps : Keeps s (f s)) :
    Keeps s t := by
  rcases whileRunning_cases h with rfl | ⟨-, rfl⟩
  · exact .refl t
  · exact keeps.sameWork (settle_sameWork _)

theorem execLookup_keeps {now : Bool} (h : execLookup now s = .next t) : Keeps s t :=
  whileRunning_keeps h (by
    split
    · exact (engineResult_sameWork _ _).keeps
    · unfold State.serveLookup
      split
      · exact (((dropPrio_sameWork s).trans (engineRead_sameWork _ _ _)).keeps).arbitrate
      · exact (((dropPrio_sameWork s).trans (portRead_sameWork _ _)).keeps).arbitrate
      · exact .refl s)

theorem scanPage_sameIndex (s : State) (f : SiteFrame) (start next : Badge) (gathered : List Record) (e : IndexEntry)
    (rs : List Record) : SameIndex s (s.scanPage f start next gathered e rs) := by
  unfold State.scanPage
  dsimp only
  split
  · exact ⟨rfl, rfl, rfl⟩
  · split
    · exact ⟨rfl, rfl, rfl⟩
    · exact SameIndex.trans (t := s.setInHand f _) ⟨rfl, rfl, rfl⟩ (placePrio_sameWork _ _).sameIndex

theorem serveScan_keeps (s : State) : Keeps s s.serveScan := by
  refine ⟨?_, fun _ _ right => (serveScan_sameWork s fun waits => ?_).workRight right⟩
  · unfold State.serveScan
    split
    · split
      · exact (reply_sameWork _ _ _ _).sameIndex
      · split
        · rename_i read
          exact ((readFor_none read).trans (reply_sameWork _ _ _ _)).sameIndex
        · rename_i read
          obtain ⟨rfl, -⟩ := readFor_some read
          exact scanPage_sameIndex _ _ _ _ _ _ _
    · exact .refl s
  · by_contra closed
    obtain ⟨-, none_, -⟩ := right.quiet closed
    exact waits none_

theorem execScanPageRead_keeps {reply : Bool} (h : execScanPageRead s reply = .next t) : Keeps s t :=
  whileRunning_keeps h (by
    have served : Keeps s s.dropPrio.serveScan :=
      ⟨(dropPrio_sameWork s).sameIndex.trans (serveScan_keeps _).same, fun batch index right =>
        (serveScan_keeps _).right batch ((dropPrio_sameWork s).indexRight index) ((dropPrio_sameWork s).workRight right)⟩
    split
    · exact (answerScan_sameWork s).keeps
    · split
      · exact (served.sameWork (.ite (answerScan_sameWork _) (.refl _))).arbitrate
      · exact .refl s)

theorem execCompactRead_keeps (h : execCompactRead s = .next t) : Keeps s t :=
  whileRunning_keeps h (by
    split
    · exact ((dropPrio_sameWork s).keeps.next (serveCompact_around _).sameIndex WorkRight.serveCompact).arbitrate
    · exact .refl s)

theorem execTripMark_keeps (h : execTripMark s = .next t) : Keeps s t :=
  whileRunning_keeps h (by
    split
    · exact ((dropPrio_sameWork s).keeps.next (serveMark_around _ _).sameIndex fun r => r.serveMark _).arbitrate
    · exact .refl s)

theorem execProgramComplete_keeps (h : execProgramComplete s = .next t) : Keeps s t :=
  whileRunning_keeps h (by
    split
    · rename_i running
      exact ((programDone_around _ _ _).keeps fun r => r.core.programDone running).arbitrate
    · exact .refl s)

theorem execProgramFailure_keeps (h : execProgramFailure s = .next t) : Keeps s t :=
  whileRunning_keeps h (by
    split
    · rename_i running
      exact ((programFailed_around _ _ _).keeps fun r => r.core.programFailed running).arbitrate
    · exact .refl s)

theorem execEraseComplete_keeps (h : execEraseComplete s = .next t) : Keeps s t :=
  whileRunning_keeps h (by
    split
    · rename_i running
      exact ((eraseDone_around _ _).keeps fun r => r.core.eraseDone running).arbitrate
    · exact ((logEraseDone_around _ _).keeps fun r => r.core.logEraseDone _).arbitrate
    · exact .refl s)

theorem execEraseFailure_keeps (h : execEraseFailure s = .next t) : Keeps s t :=
  whileRunning_keeps h (by
    split
    · rename_i running
      exact ((eraseFailed_around _ _).keeps fun r => r.core.eraseFailed running).arbitrate
    · exact .refl s)

theorem execLogEraseFailure_keeps (h : execLogEraseFailure s = .next t) : Keeps s t :=
  whileRunning_keeps h (by
    split
    · exact ((logEraseFailed_around _ _).keeps fun r => r.core.logEraseFailed _).arbitrate
    · exact .refl s)

theorem execSettingsSaveStart_keeps (h : execSettingsSaveStart s = .next t) : Keeps s t :=
  whileRunning_keeps h (by
    split
    · rename_i free
      obtain ⟨-, -, -, opened⟩ := free
      exact ⟨⟨rfl, rfl, rfl⟩, fun _ _ right => right.beginSave opened⟩
    · exact .refl s)

theorem execSettingsSaveEntryComplete_keeps (h : execSettingsSaveEntryComplete s = .next t) : Keeps s t :=
  whileRunning_keeps h (by
    split
    · exact ((saveEntryDone_around _ _).keeps fun r => r.core.saveEntryDone _).arbitrate
    · exact ((saveEntryDone_around _ _).keeps fun r => r.core.saveEntryDone _).arbitrate
    · exact .refl s)

theorem execSettingsSaveComplete_keeps (h : execSettingsSaveComplete s = .next t) : Keeps s t :=
  whileRunning_keeps h (by
    split
    · exact ((saveDone_around _).keeps fun r => r.core.saveDone).arbitrate
    · exact .refl s)

theorem execSettingsSaveFailure_keeps (h : execSettingsSaveFailure s = .next t) : Keeps s t :=
  whileRunning_keeps h (by
    split
    · exact ((saveFailed_around _ _ _).keeps fun r => r.core.saveFailed _ _).arbitrate
    · exact ((saveFailed_around _ _ _).keeps fun r => r.core.saveFailed _ _).arbitrate
    · exact .refl s)

/-! ### What every command keeps -/

/-- The Page Index stays a partition on its premises, and the invariant of the pages is kept. -/
structure KeepsIndex (s t : State) : Prop where
  index : IndexRight s → (s.site.phase = .scanning → HeadersInRange s.store) → MarkPartitions s → IndexRight t
  right : BatchRight s → IndexRight s → WorkRight s → WorkRight t

theorem Keeps.keepsIndex (h : Keeps s t) : KeepsIndex s t := ⟨fun index _ _ => h.same.indexRight index, h.right⟩

theorem SameWork.keepsIndex (h : SameWork s t) : KeepsIndex s t := h.keeps.keepsIndex

theorem KeepsIndex.sameWork (h : KeepsIndex s t) (k : SameWork t u) : KeepsIndex s u :=
  ⟨fun index headers marks => k.indexRight (h.index index headers marks),
    fun batch index right => k.workRight (h.right batch index right)⟩

theorem whileRunning_keepsIndex {f : State → State} (h : whileRunning f s = .next t) (keeps : KeepsIndex s (f s)) :
    KeepsIndex s t := by
  rcases whileRunning_cases h with rfl | ⟨-, rfl⟩
  · exact (SameWork.refl t).keepsIndex
  · exact keeps.sameWork (settle_sameWork _)

theorem FromPages.keepsIndex (h : FromPages u.store.pages t) (pages : PagesRight s.store → PagesRight u.store) :
    KeepsIndex s t :=
  ⟨fun _ _ _ => h.indexRight, fun _ _ right => h.workRight (pages right.pages)⟩

theorem execPowerOn_keepsIndex (h : execPowerOn s = .next t) : KeepsIndex s t := by
  obtain rfl := Host.Outcome.next.inj h
  split
  · exact ((startUp_fromPages s).keepsIndex id).sameWork (settle_sameWork _)
  · exact (SameWork.refl s).keepsIndex

theorem execLossOfPower_keepsIndex (h : execLossOfPower s = .next t) : KeepsIndex s t := by
  obtain rfl := Host.Outcome.next.inj h
  split
  · exact (SameWork.refl s).keepsIndex
  · exact ((volatileReset_fromPages s.cut).keepsIndex cut_pagesRight).sameWork (.of_parts rfl rfl rfl rfl)

theorem execResetAsserted_keepsIndex (h : execResetAsserted s = .next t) : KeepsIndex s t := by
  obtain rfl := Host.Outcome.next.inj h
  split
  · split
    · rename_i u done
      have counted := countDone_sameWork s done
      have down : KeepsIndex s u.cut.volatileReset := (volatileReset_fromPages u.cut).keepsIndex fun right =>
        cut_pagesRight (by simpa only [PagesRight, HeadersInRange, counted.page] using right)
      exact down.sameWork (.of_parts rfl rfl rfl rfl)
    · exact (SameWork.refl s).keepsIndex
  · exact (SameWork.refl s).keepsIndex

theorem execResetReleased_keepsIndex (h : execResetReleased s = .next t) : KeepsIndex s t := by
  obtain rfl := Host.Outcome.next.inj h
  split
  · split
    · rename_i u done
      have counted := countDone_sameWork s done
      have up : KeepsIndex s u.startUp := (startUp_fromPages u).keepsIndex fun right => by
        simpa only [PagesRight, HeadersInRange, counted.page] using right
      exact up.sameWork (settle_sameWork _)
    · exact (SameWork.refl s).keepsIndex
  · exact (SameWork.refl s).keepsIndex

theorem execScanEnd_keepsIndex (h : execScanEnd s = .next t) : KeepsIndex s t :=
  whileRunning_keepsIndex h (by
    split
    · rename_i scans
      have scanned := scanEnds_scanned s
      exact ⟨fun _ headers _ => scanned.indexRight (headers scans),
        fun _ _ right => scanned.workRight right (by rw [scans]; decide)⟩
    · exact (SameWork.refl s).keepsIndex)

/-- R66: the commit-complete event. -/
theorem execCommitComplete_keepsIndex (h : execCommitComplete s = .next t) : KeepsIndex s t :=
  whileRunning_keepsIndex h (by
    split
    · rename_i w running works
      have switched := commitDone_switched s w
      have around := arbitrate_around (s.commitDone w)
      refine ⟨fun index _ marks => around.sameIndex.indexRight ?_,
        fun _ index right => (switched.workRight right index running works).arbitrate⟩
      obtain ⟨ordered, tiled⟩ := switched.tiled index.1 (marks w works running)
      exact ⟨ordered, fun _ _ => tiled⟩
    · exact (SameWork.refl s).keepsIndex)

theorem execTransmitComplete_keepsIndex (h : execTransmitComplete s = .next t) : KeepsIndex s t :=
  whileRunning_keepsIndex h (by
    split
    · split
      · exact (startUp_fromPages s.cut).keepsIndex cut_pagesRight
      · refine (SameWork.trans ?_ (transmitNext_sameWork _)).keepsIndex
        exact .of_site rfl rfl rfl rfl (.inl rfl)
    · exact (transmitNext_sameWork s).keepsIndex)

/-! ### The opening -/

/-- The card with admission open. -/
def State.opened (s : State) : State := s.mapSite fun p => { p with phase := .open_ }

theorem SameWork.opened (h : SameWork s t) : SameWork s.opened t.opened :=
  { h with
    phase := rfl
    hand := h.hand.imp id (Or.imp id fun quiet => ⟨rfl, quiet.2⟩) }

/-- R93, R177: the opening leaves the store, the batch and the request in hand as they stand. -/
theorem opens_sameWork (s : State) : SameWork s.opened s.opens := by
  have applied (u : State) (x : Settings) : SameWork u (u.applySettings x) := .of_parts rfl rfl rfl rfl
  have taken (x : Settings) (u : State) (h : SameWork s u) : SameWork s.opened ((finList 6).foldl State.fixRecall
      (((((u.mapReplaced s.zone).mapFaults fun f => { f with masks := x.masks, majors := x.majors }).mapNotices
        fun n => n.setEnables x.enables).mapSite fun p => { p with phase := .open_ }).reworkLine)) := by
    have set := ((h.trans (mapReplaced_sameWork u s.zone)).trans (mapFaults_sameWork _ fun f =>
      { f with masks := x.masks, majors := x.majors })).trans (mapNotices_sameWork _ fun n => n.setEnables x.enables)
    exact (set.opened.trans (reworkLine_sameWork _)).trans (.foldl _ fixRecall_sameWork _ _)
  unfold State.opens
  split
  · exact taken _ _ (applied s _)
  · exact taken _ _ ((raiseFault_sameWork s _ _).trans (applied _ _))

theorem execAdmissionOpens_keepsIndex (h : execAdmissionOpens s = .next t) : KeepsIndex s t :=
  whileRunning_keepsIndex h (by
    split
    · rename_i loads
      have open_ : KeepsIndex s s.opened := ⟨fun index _ _ => ⟨index.1, fun _ => index.2 (by rw [loads]; decide)⟩,
        fun _ _ right => CoreRight.workRight (s := s.opened) (right.core.congr rfl rfl) right.plan
          fun closed => absurd rfl closed⟩
      exact open_.sameWork (opens_sameWork s)
    · exact (SameWork.refl s).keepsIndex)

/-! ### Every command -/

/-- Everything but the store's events, the start-ups and the requests that begin a work leaves the index and the
pages alone. -/
theorem exec_keepsIndex {i : Instr} (h : exec i s = .next t) : KeepsIndex s t := by
  cases i with
  | powerOn => exact execPowerOn_keepsIndex h
  | resetAsserted => exact execResetAsserted_keepsIndex h
  | resetReleased => exact execResetReleased_keepsIndex h
  | scanEnd => exact execScanEnd_keepsIndex h
  | admissionOpens => exact execAdmissionOpens_keepsIndex h
  | lossOfPower => exact execLossOfPower_keepsIndex h
  | transmitComplete => exact execTransmitComplete_keepsIndex h
  | commitComplete => exact execCommitComplete_keepsIndex h
  | batchOpen r => exact (execBatchOpen_keeps h).keepsIndex
  | batchCommit r => exact (execBatchCommit_keeps h).keepsIndex
  | compact r => exact (execCompact_keeps h).keepsIndex
  | planningRead => exact (execPlanningRead_keeps h).keepsIndex
  | compactRead => exact (execCompactRead_keeps h).keepsIndex
  | scanPageRead reply => exact (execScanPageRead_keeps h).keepsIndex
  | lookup now => exact (execLookup_keeps h).keepsIndex
  | tripMark => exact (execTripMark_keeps h).keepsIndex
  | programComplete => exact (execProgramComplete_keeps h).keepsIndex
  | programFailure => exact (execProgramFailure_keeps h).keepsIndex
  | eraseComplete => exact (execEraseComplete_keeps h).keepsIndex
  | eraseFailure => exact (execEraseFailure_keeps h).keepsIndex
  | logEraseFailure => exact (execLogEraseFailure_keeps h).keepsIndex
  | settingsSaveStart => exact (execSettingsSaveStart_keeps h).keepsIndex
  | settingsSaveEntryComplete => exact (execSettingsSaveEntryComplete_keeps h).keepsIndex
  | settingsSaveComplete => exact (execSettingsSaveComplete_keeps h).keepsIndex
  | settingsSaveFailure => exact (execSettingsSaveFailure_keeps h).keepsIndex
  | secondEvent => exact (execSecondEvent_sameWork h).keepsIndex
  | minuteBoundary => exact (execMinuteBoundary_sameWork h).keepsIndex
  | batchExpired => exact (execBatchExpired_sameWork h).keepsIndex
  | readerOffline c => exact (execReaderOffline_sameWork h).keepsIndex
  | displayDeadline c => exact (execDisplayDeadline_sameWork h).keepsIndex
  | startingDisplayEnd c => exact (execStartingDisplayEnd_sameWork h).keepsIndex
  | interKeyTimeout c => exact (execInterKeyTimeout_sameWork h).keepsIndex
  | badgeWaitTimeout c => exact (execBadgeWaitTimeout_sameWork h).keepsIndex
  | replyDeadline g tag => exact (execReplyDeadline_sameWork h).keepsIndex
  | cancelDeadline g tag => exact (execCancelDeadline_sameWork h).keepsIndex
  | holdExpiry g car => exact (execHoldExpiry_sameWork h).keepsIndex
  | linkSilent g => exact (execLinkSilent_sameWork h).keepsIndex
  | rawLevelChange i level => exact (execRawLevelChange_sameWork h).keepsIndex
  | firstStableLevel i => exact (execFirstStableLevel_sameWork h).keepsIndex
  | lineBecomesActive g => exact (execLineBecomesActive_sameWork h).keepsIndex
  | lineBecomesInactive g => exact (execLineBecomesInactive_sameWork h).keepsIndex
  | serviceKeyChange => exact (execServiceKeyChange_sameWork h).keepsIndex
  | byteGapTimeout link late => exact (execByteGapTimeout_sameWork h).keepsIndex
  | frameDiscard link bytes => exact (execFrameDiscard_sameWork h).keepsIndex
  | siteFrameReceive type r => exact (execSiteFrameReceive_sameWork h).keepsIndex
  | unknownType type r => exact (execUnknownType_sameWork h).keepsIndex
  | identify r => exact (execIdentify_sameWork h).keepsIndex
  | status r => exact (execStatus_sameWork h).keepsIndex
  | clockSet r => exact (execClockSet_sameWork h).keepsIndex
  | clockRead r => exact (execClockRead_sameWork h).keepsIndex
  | stagePut r => exact (execStagePut_sameWork h).keepsIndex
  | stageDrop r => exact (execStageDrop_sameWork h).keepsIndex
  | batchAbandon r => exact (execBatchAbandon_sameWork h).keepsIndex
  | storeStatus r => exact (execStoreStatus_sameWork h).keepsIndex
  | recordRead r => exact (execRecordRead_sameWork h).keepsIndex
  | directoryScan r => exact (execDirectoryScan_sameWork h).keepsIndex
  | profileWrite r => exact (execProfileWrite_sameWork h).keepsIndex
  | profileRead r => exact (execProfileRead_sameWork h).keepsIndex
  | switchArm r => exact (execSwitchArm_sameWork h).keepsIndex
  | switchDisarm r => exact (execSwitchDisarm_sameWork h).keepsIndex
  | holidayWrite r => exact (execHolidayWrite_sameWork h).keepsIndex
  | holidayRead r => exact (execHolidayRead_sameWork h).keepsIndex
  | zoneWrite r => exact (execZoneWrite_sameWork h).keepsIndex
  | zoneRead r => exact (execZoneRead_sameWork h).keepsIndex
  | channelSet r => exact (execChannelSet_sameWork h).keepsIndex
  | channelRead r => exact (execChannelRead_sameWork h).keepsIndex
  | groupSet r => exact (execGroupSet_sameWork h).keepsIndex
  | groupRead r => exact (execGroupRead_sameWork h).keepsIndex
  | groupResume r => exact (execGroupResume_sameWork h).keepsIndex
  | transferRead r => exact (execTransferRead_sameWork h).keepsIndex
  | transferPurge r => exact (execTransferPurge_sameWork h).keepsIndex
  | noticeSet r => exact (execNoticeSet_sameWork h).keepsIndex
  | faultRead r => exact (execFaultRead_sameWork h).keepsIndex
  | faultClear r => exact (execFaultClear_sameWork h).keepsIndex
  | faultSet r => exact (execFaultSet_sameWork h).keepsIndex
  | restartArm r => exact (execRestartArm_sameWork h).keepsIndex
  | restart r => exact (execRestart_sameWork h).keepsIndex
  | timingSet r => exact (execTimingSet_sameWork h).keepsIndex
  | timingRead r => exact (execTimingRead_sameWork h).keepsIndex
  | badge c b => exact (execBadge_sameWork h).keepsIndex
  | key c k => exact (execKey_sameWork h).keepsIndex
  | alive c => exact (execAlive_sameWork h).keepsIndex
  | unknownReaderFrame c type payload => exact (execUnknownReaderFrame_sameWork h).keepsIndex
  | groupState g a => exact (execGroupState_sameWork h).keepsIndex
  | carState g car landing motion door inService => exact (execCarState_sameWork h).keepsIndex
  | assign g tag car => exact (execAssign_sameWork h).keepsIndex
  | enabled g tag => exact (execEnabled_sameWork h).keepsIndex
  | refuse g tag => exact (execRefuse_sameWork h).keepsIndex
  | cancelled g tag => exact (execCancelled_sameWork h).keepsIndex
  | unknownGroupFrame g type payload => exact (execUnknownGroupFrame_sameWork h).keepsIndex
  | inFrame link byte => exact (execInFrame_sameWork h).keepsIndex

/-- The tick moves the lines, hands results over and lets the array begin. -/
theorem tick_keepsIndex (s : State) : KeepsIndex s s.tick := by
  unfold State.tick
  split
  · have moved : SameWork s { s.drainLines with time := { s.time with ms := min (s.time.ms + 1) 1000 } } :=
      .of_parts rfl rfl rfl rfl
    have handed := ((moved.trans (transmitNext_sameWork _)).trans (handResult_sameWork _)).trans (answerScan_sameWork _)
    exact (handed.keeps.arbitrate.sameWork (settle_sameWork _)).keepsIndex
  · exact (SameWork.refl s).keepsIndex

/-- A command is taken off the queue before it is carried out. -/
theorem step_keepsIndex (h : step s = .next t) : KeepsIndex s t := by
  unfold step at h
  split at h
  · obtain rfl := Host.Outcome.next.inj h
    exact tick_keepsIndex s
  · rename_i c rest _
    have taken : SameWork s { s with pending := rest } := .of_parts rfl rfl rfl rfl
    obtain ⟨index, right⟩ := exec_keepsIndex h
    exact ⟨fun i headers marks => index (taken.indexRight i) headers marks,
      fun batch i w => right batch (taken.indexRight i) (taken.workRight w)⟩

end

end Sys2Proof.Machine

namespace Sys2Proof
open Machine

/-- Settles O56: WorkRight gives both premises and is kept, step by step, by every command and the tick. -/
theorem indexStaysAPartition : Obligations.IndexStaysAPartition := by
  unfold Obligations.IndexStaysAPartition
  refine ⟨fun s t index headers marks h => (step_keepsIndex h).index index headers marks,
    fun s right => ⟨right.pages.1, right.markPartitions⟩, fun s t batch index right h => ?_⟩
  have keeps := step_keepsIndex h
  exact ⟨keeps.index index (fun _ => right.pages.1) right.markPartitions, keeps.right batch index right⟩

end Sys2Proof
end

section
/-! PROOF. What an event goes on to do after a raising keeps it; the page reads of a scan (R52, R54). -/

namespace Sys2Proof.Machine

/-! ### What follows a raising -/

/-- An event goes on from `u` to `v`: statuses set stay set, and notices raised stay. -/
structure After (u v : State) : Prop where
  set : ∀ k, u.faults.isSet k = true → v.faults.isSet k = true
  cal : v.cal = u.cal
  kept : ∀ n ∈ u.notices.raised, n ∈ v.notices.raised

section
variable {s u v w : State} {k : FaultKind} {d : Nat}

theorem After.refl (u : State) : After u u := ⟨fun _ => id, rfl, fun _ => id⟩

theorem After.trans (h : After u v) (g : After v w) : After u w :=
  ⟨fun k set => g.set k (h.set k set), g.cal.trans h.cal, fun n mem => g.kept n (h.kept n mem)⟩

theorem After.of_parts (faults : v.faults = u.faults) (cal : v.cal = u.cal) (notices : v.notices = u.notices) :
    After u v :=
  ⟨fun k => by rw [faults]; exact id, cal, fun n => by rw [notices]; exact id⟩

theorem After.ite {c : Prop} [Decidable c] (h : After u v) (g : After u w) : After u (if c then v else w) := by
  split
  · exact h
  · exact g

theorem raiseFault_after (u : State) (k : FaultKind) (d : Nat) : After u (u.raiseFault k d) := by
  refine ⟨fun j => raiseFault_isSet_mono u k j d, ?_, fun n mem => ?_⟩
  all_goals
    obtain ⟨f, ns, touched⟩ := raiseFault_touches u k d
    rw [touched]
  exact List.mem_append_left ns mem

theorem raiseNotice_after (u : State) (b : NoticeBody) : After u (u.raiseNotice b) :=
  ⟨fun _ => id, rfl, fun _ mem => List.mem_append_left _ mem⟩

theorem mapStore_after (u : State) (f : Store → Store) : After u (u.mapStore f) := .of_parts rfl rfl rfl

theorem reply_after (u : State) (f : SiteFrame) (x : Result) (d : List Byte) : After u (u.reply f x d) := by
  rw [reply_eq]
  exact .of_parts rfl rfl rfl

theorem placePrio_after (u : State) (e : PrioEntry) : After u (u.placePrio e) := .of_parts rfl rfl rfl

theorem arbitrate_after (u : State) : After u u.arbitrate := .of_parts (by simp) (by simp) (by simp)

theorem Raised.after (h : Raised s u k d) (g : After u v) : Raised s v k d := h.mono (g.set k) g.cal g.kept

/-- A raising of another kind earlier in the event does not change what a raising reports of its own kind. -/
theorem Raised.from {s' : State} (h : Raised s' u k d) (masked : s'.faults.masked k = s.faults.masked k)
    (major : s'.faults.major k = s.faults.major k) (set : s'.faults.isSet k = s.faults.isSet k) : Raised s u k d where
  set := h.set
  notice := by
    rw [← masked, ← major, ← set]
    exact h.notice

/-- R171: a notice raised in an event is reported at its end. -/
theorem After.reported {b : NoticeBody} (h : After (s.raiseNotice b) u) : Reported u.settle b :=
  settle_reports u _ (h.kept _ (mem_raiseNotice s b)) (by rw [h.cal]; rfl)

end

/-! ### The page reads of a scan -/

section
variable {s : State} {f : SiteFrame} {start next : Badge} {gathered rs : List Record} {e : IndexEntry}

/-- R52: a scan with fewer than 16 records below the highest badge reads on. -/
theorem scanPage_goesOn (few : (gathered ++ rs.filter fun r => next ≤ r.badge).length < 16) (below : e.high ≠ topBadge) :
    s.scanPage f start next gathered e rs
      = (s.setInHand f (.scan start (e.high + 1) (gathered ++ rs.filter fun r => next ≤ r.badge))).placePrio .scanRead := by
  simp only [State.scanPage, if_neg (Nat.not_le.mpr few), if_neg below]

/-- R52: whether a scan that gathered `all` as far as entry `e` has come to the end of the directory. -/
def scanAtEnd (all : List Record) (e : IndexEntry) : Bool :=
  all.length < 16 || (all.length == 16 && e.high == topBadge)

/-- R52: the records that a scan ends with. -/
theorem scanPage_ends (h : 16 ≤ (gathered ++ rs.filter fun r => next ≤ r.badge).length ∨ e.high = topBadge) :
    s.scanPage f start next gathered e rs = s.setInHand f (.scanned
      ((gathered ++ rs.filter fun r => next ≤ r.badge).take 16) (scanAtEnd (gathered ++ rs.filter fun r => next ≤ r.badge) e)) := by
  unfold scanAtEnd
  by_cases many : 16 ≤ (gathered ++ rs.filter fun r => next ≤ r.badge).length
  · simp only [State.scanPage, if_pos many, decide_eq_false (Nat.not_lt.mpr many), Bool.false_or]
  · have few := Nat.lt_of_not_le many
    simp only [State.scanPage, if_neg many, if_pos (h.resolve_left many), List.take_of_length_le (Nat.le_of_lt few),
      decide_eq_true few, Bool.true_or]

theorem answerScan_of_scanned {records : List Record} {atEnd : Bool}
    (h : s.site.inHand = some { frame := f, wait := .scanned records atEnd }) :
    s.answerScan = s.endScan f records atEnd := by
  simp only [State.answerScan, h]

theorem answerScan_of_other (h : s.site.scanned = false) (reply : Bool) :
    (if reply then s.answerScan else s) = s := by
  rw [answerScan_of_none s h, ite_self]

/-- R52, R53: a scan that ends moves the cursor and is answered. -/
theorem endScan_parts (s : State) (f : SiteFrame) (records : List Record) (atEnd : Bool) :
    (s.endScan f records atEnd).dir
      = { s.dir with cursor := if atEnd then none else (records.getLast?).map Record.badge }
    ∧ (s.endScan f records atEnd).site = portReplied s.site
      (replyFrame f .ok (u8 records.length ++ bool8 atEnd ++ records.flatMap Record.bytes) false)
    ∧ (s.endScan f records atEnd).store = s.store ∧ (s.endScan f records atEnd).notices = s.notices := by
  unfold State.endScan State.replyOk
  rw [reply_eq]
  exact ⟨rfl, rfl, rfl, rfl⟩

end

section
variable {s : State} {rest : List PrioEntry} {f : SiteFrame} {start next : Badge} {gathered : List Record}
  {e : IndexEntry} {reply : Bool}

/-- R54, log 26: the event of the page read of a scan, which is answered at once where it has read its last page. -/
def State.scanServed (s : State) (rest : List PrioEntry) (reply : Bool) : State :=
  if reply then (s.servedTo rest).serveScan.answerScan else (s.servedTo rest).serveScan

variable (serves : Serves s .scanRead rest)
  (waits : s.site.inHand = some { frame := f, wait := .scan start next gathered })
include serves waits

theorem execScanPageRead_of_serves : ThenArray (.scanPageRead reply) s (s.scanServed rest reply) := by
  have reading : (s.site.scanned && reply) = false := by simp [Port.scanned, waits]
  rw [ThenArray, exec_scanPageRead, execScanPageRead, whileRunning_of_running _ _ serves.running]
  simp only [reading, Bool.false_eq_true, if_false, serves.nextPrio, serves.dropPrio]
  rfl

variable (entry : s.dir.entryFor next = some e)
include entry

omit serves in
theorem scanServed_of_unread (unread : s.store.readPage e = none) :
    s.scanServed rest reply = ((s.servedTo rest).raiseFault .storeFault e.page.val).refuse f .storeFault := by
  have served : (s.servedTo rest).serveScan
      = ((s.servedTo rest).raiseFault .storeFault e.page.val).refuse f .storeFault := by
    have page := readFor_of_none (s.servedTo rest) e unread
    simp only [State.serveScan, waits, entry, page]
  rw [State.scanServed, served]
  refine answerScan_of_other ?_ reply
  rw [State.refuse, reply_eq]
  rfl

omit serves in
theorem scanServed_of_read {rs : List Record} (read : s.store.readPage e = some rs) :
    s.scanServed rest reply = if reply then ((s.servedTo rest).scanPage f start next gathered e rs).answerScan
      else (s.servedTo rest).scanPage f start next gathered e rs := by
  have served : (s.servedTo rest).serveScan = (s.servedTo rest).scanPage f start next gathered e rs := by
    have page := readFor_of_some (s.servedTo rest) e rs read
    simp only [State.serveScan, waits, entry, page]
  rw [State.scanServed, served]

end

end Sys2Proof.Machine
end

section
/-! PROOF. A work whose copies are fixed waits, programs or logs, or ends for want of pages (R62, R66, R75, R88). -/

namespace Sys2Proof.Machine

section
variable {s u v : State} {w : Work}

/-! ### A COMPACT that ends with COMMIT_FAIL (R76) -/

theorem failWork_of_compact (running : s.store.work = some w) (kind : w.kind = .compact) (cause : FailCause) :
    s.failWork cause = ((s.mapStore fun st =>
      { (st.toStale w.heldPages .abandoned) with
        workQ := st.workQ.filter fun x => !x.ofWork
        work := none }).raiseFault .commitFail (w.number % 65536)).raiseNotice .compactFailed := by
  simp only [State.failWork, running, kind]

/-- R62, R76: what a COMPACT's end by COMMIT_FAIL raises and reports. -/
theorem compactFails (running : s.store.work = some w) (kind : w.kind = .compact) (cause : FailCause) :
    (s.failWork cause).dir = s.dir ∧ Raised s (s.failWork cause) .commitFail (w.number % 65536)
    ∧ Reported (s.failWork cause).arbitrate.settle .compactFailed := by
  have dir := (failWork_failed s running cause).dir
  rw [failWork_of_compact running kind] at dir ⊢
  have faults : s.faults = (s.mapStore fun st => { (st.toStale w.heldPages .abandoned) with
    workQ := st.workQ.filter fun x => !x.ofWork, work := none }).faults := (mapStore_faults s _).symm
  generalize (s.mapStore fun st => { (st.toStale w.heldPages .abandoned) with
    workQ := st.workQ.filter fun x => !x.ofWork, work := none }) = u at dir faults ⊢
  refine ⟨dir, ?_, ?_⟩
  · exact ((raiseFault_raised u .commitFail (w.number % 65536)).since faults).after (raiseNotice_after _ _)
  · exact (arbitrate_after _).reported

/-! ### What a work's end and its phases leave standing of a raising -/

theorem failWork_after (s : State) (cause : FailCause) : After s (s.failWork cause) := by
  unfold State.failWork
  split
  · exact .refl s
  · have raised := (mapStore_after s fun st => { (st.toStale (Work.heldPages ‹Work›) .abandoned) with
      workQ := st.workQ.filter fun x => !x.ofWork, work := none }).trans
      (raiseFault_after _ .commitFail (Work.number ‹Work› % 65536))
    dsimp only
    split
    · exact raised.trans (raiseNotice_after _ _)
    · exact (raised.trans (raiseNotice_after _ _)).trans (.of_parts rfl rfl rfl)

theorem queueLogMark_touches (s : State) :
    ∃ q, s.queueLogMark = { s with store := { s.store with workQ := q } } := by
  unfold State.queueLogMark
  split
  · split
    · exact ⟨_, rfl⟩
    · exact ⟨s.store.workQ, rfl⟩
  · exact ⟨s.store.workQ, rfl⟩

theorem checkLack_after (s : State) : After s s.checkLack := by
  unfold State.checkLack
  split
  · exact .ite (failWork_after _ _) (.refl s)
  · exact .refl s

theorem checkWait_after (s : State) : After s s.checkWait := by
  unfold State.checkWait
  split
  · exact .ite (.of_parts rfl rfl rfl) (.refl s)
  · exact .refl s

theorem checkProgrammed_after (s : State) : After s s.checkProgrammed := by
  unfold State.checkProgrammed
  split
  · refine .ite ?_ (.refl s)
    obtain ⟨q, touched⟩ := queueLogMark_touches (s.mapWork fun w => { w with phase := .logging })
    rw [touched]
    exact .of_parts rfl rfl rfl
  · exact .refl s

theorem startCopies_after (s : State) : After s s.startCopies :=
  (((mapStore_after s _).trans (checkLack_after _)).trans (checkWait_after _)).trans (checkProgrammed_after _)

theorem compactNext_after (s : State) : After s s.compactNext := by
  unfold State.compactNext
  split
  · split
    · exact (mapStore_after s _).trans (startCopies_after _)
    · exact placePrio_after _ _
  · exact .refl s

/-! ### A work that begins its copies -/

/-- R66, R88: the phase that the work `w` of `s` has gone to, its copies fixed, and what of it has joined the work
queue `q`. -/
def CopiesBegun (st : Store) (w : Work) (q : List WorkEntry) : Prop :=
  (st.freePages < w.copies.length → w.phase = .commitWait ∧ q = st.workQ)
  ∧ (w.copies = [] → w.phase = .logging ∧ MarkQueued st st.workQ q)
  ∧ (w.copies ≠ [] → w.copies.length ≤ st.freePages → w.phase = .programming
      ∧ q = st.workQ ++ (List.range w.copies.length).map WorkEntry.program)

theorem unprogrammed_eq_length (fresh : ∀ c ∈ w.copies, c.page = none) : w.unprogrammed = w.copies.length :=
  List.countP_eq_length.mpr fun c mem => by rw [fresh c mem]; rfl

/-- The card with another running work and another work queue. -/
def State.working (s : State) (w : Work) (q : List WorkEntry) : State :=
  { s with store := { s.store with work := some w, workQ := q } }

theorem working_working (s : State) (w v : Work) (q r : List WorkEntry) :
    (s.working w q).working v r = s.working v r := (rfl)

variable (s) {q : List WorkEntry}

theorem working_checkWait_of_few (few : s.store.freePages < w.copies.length) :
    (s.working w q).checkWait = s.working w q :=
  if_neg fun go => Nat.not_le.mpr few go.2

theorem working_checkWait (waits : w.phase = .commitWait) (enough : w.copies.length ≤ s.store.freePages) :
    (s.working w q).checkWait
      = s.working { w with phase := .programming } (q ++ (List.range w.copies.length).map WorkEntry.program) :=
  if_pos ⟨waits, enough⟩

theorem working_checkProgrammed_of_other (other : ¬ (w.phase = .programming ∧ w.unprogrammed = 0)) :
    (s.working w q).checkProgrammed = s.working w q :=
  if_neg other

/-- R66: a work in PROGRAMMING whose copies are all programmed goes into LOGGING. -/
theorem working_checkProgrammed (programs : w.phase = .programming) (done : w.unprogrammed = 0) :
    ∃ q', (s.working w q).checkProgrammed = s.working { w with phase := .logging } q' ∧ MarkQueued s.store q q' := by
  have logs : (s.working w q).checkProgrammed = (s.working { w with phase := .logging } q).queueLogMark :=
    if_pos ⟨programs, done⟩
  obtain ⟨q', touched⟩ := queueLogMark_touches (s.working { w with phase := .logging } q)
  have marks := queueLogMark_marks (s.working { w with phase := .logging } q) { w with phase := .logging } rfl rfl
  rw [touched] at marks
  exact ⟨q', logs.trans touched, marks⟩

/-- R75, R88: the copies are fixed and the pages can be had: the work waits for pages, programs or logs. -/
theorem startCopies_begun {s : State} (running : s.store.work = some w) (fresh : ∀ c ∈ w.copies, c.page = none)
    (enough : w.copies.length ≤ s.store.obtainable) : ∃ phase q,
      s.startCopies = s.working { w with phase := phase } q ∧ CopiesBegun s.store { w with phase := phase } q := by
  have unprogrammed := unprogrammed_eq_length fresh
  have fixed : s.mapWork (fun w => { w with phase := .commitWait })
      = s.working { w with phase := .commitWait } s.store.workQ := mapWork_of_some running _
  have kept : (s.working { w with phase := .commitWait } s.store.workQ).checkLack
      = s.working { w with phase := .commitWait } s.store.workQ :=
    if_neg fun lack => Nat.not_lt.mpr (Nat.le_trans (Nat.le_of_eq unprogrammed) enough) lack.2
  have started : s.startCopies
      = (s.working { w with phase := .commitWait } s.store.workQ).checkWait.checkProgrammed := by
    rw [State.startCopies, fixed, kept]
  by_cases few : s.store.freePages < w.copies.length
  · have waits : (s.working { w with phase := .commitWait } s.store.workQ).checkWait
        = s.working { w with phase := .commitWait } s.store.workQ := working_checkWait_of_few s few
    have stays : (s.working { w with phase := .commitWait } s.store.workQ).checkProgrammed
        = s.working { w with phase := .commitWait } s.store.workQ :=
      working_checkProgrammed_of_other s fun done => absurd done.1 nofun
    refine ⟨.commitWait, _, (started.trans (congrArg State.checkProgrammed waits)).trans stays, fun _ => ⟨rfl, rfl⟩,
      fun none_ => absurd few ?_, fun _ go => absurd few (Nat.not_lt.mpr go)⟩
    rw [show w.copies = [] from none_]
    exact Nat.not_lt_zero _
  · have programs : (s.working { w with phase := .commitWait } s.store.workQ).checkWait
        = s.working { w with phase := .programming }
          (s.store.workQ ++ (List.range w.copies.length).map WorkEntry.program) :=
      working_checkWait (w := { w with phase := .commitWait }) s rfl (Nat.le_of_not_lt few)
    have begun := started.trans (congrArg State.checkProgrammed programs)
    by_cases none_ : w.copies = []
    · have joined : s.store.workQ ++ (List.range w.copies.length).map WorkEntry.program = s.store.workQ := by
        rw [none_, List.length_nil, List.range_zero, List.map_nil, List.append_nil]
      have done : w.unprogrammed = 0 := by rw [unprogrammed, none_, List.length_nil]
      obtain ⟨q', logs, marks⟩ := working_checkProgrammed (w := { w with phase := .programming }) (q := s.store.workQ)
        s rfl done
      rw [joined] at begun
      exact ⟨.logging, q', begun.trans logs, fun go => absurd go few, fun _ => ⟨rfl, marks⟩, fun no => absurd none_ no⟩
    · have stays : (s.working { w with phase := .programming }
          (s.store.workQ ++ (List.range w.copies.length).map WorkEntry.program)).checkProgrammed
          = s.working { w with phase := .programming }
            (s.store.workQ ++ (List.range w.copies.length).map WorkEntry.program) := by
        refine working_checkProgrammed_of_other s fun done => none_ ?_
        exact List.length_eq_zero_iff.mp (unprogrammed.symm.trans done.2)
      exact ⟨.programming, _, begun.trans stays, fun go => absurd go few, fun no => absurd no none_,
        fun _ _ => ⟨rfl, rfl⟩⟩

/-- R62, R88: the pages cannot be had: the work ends. -/
theorem startCopies_lack {s : State} (running : s.store.work = some w) (fresh : ∀ c ∈ w.copies, c.page = none)
    (lack : s.store.obtainable < w.copies.length) : s.startCopies
      = (s.working { w with phase := .commitWait } s.store.workQ).failWork .noPages := by
  have fixed : s.mapWork (fun w => { w with phase := .commitWait })
      = s.working { w with phase := .commitWait } s.store.workQ := mapWork_of_some running _
  have fails : (s.working { w with phase := .commitWait } s.store.workQ).checkLack
      = (s.working { w with phase := .commitWait } s.store.workQ).failWork .noPages :=
    if_pos ⟨nofun, Nat.lt_of_lt_of_eq lack (unprogrammed_eq_length fresh).symm⟩
  have none_ := failWork_work (s.working { w with phase := .commitWait } s.store.workQ) .noPages
  rw [State.startCopies, fixed, fails]
  generalize (s.working { w with phase := .commitWait } s.store.workQ).failWork .noPages = u at none_ ⊢
  simp only [State.checkWait, State.checkProgrammed, none_]

end

end Sys2Proof.Machine
end

section
/-! PROOF. The planning reads of a commit (R86 to R88) and the page reads of a COMPACT (R75) as they are served. -/

namespace Sys2Proof.Machine

/-! ### The copies of a plan are on no page -/

theorem PlanCover.copies_unprogrammed {c : PlanCover} {x : Copy} (mem : x ∈ c.copies) : x.page = none := by
  unfold PlanCover.copies at mem
  dsimp only at mem
  split at mem
  · exact absurd mem List.not_mem_nil
  · split at mem
    · obtain rfl := List.mem_singleton.mp mem
      rfl
    · rcases List.mem_cons.mp mem with rfl | mem
      · rfl
      · obtain rfl := List.mem_singleton.mp mem
        rfl

theorem planOf_unprogrammed {rows : List PlanRow} {x : Copy} (mem : x ∈ (planOf rows).copies) : x.page = none := by
  rw [planOf_copies] at mem
  split at mem
  · obtain rfl := List.mem_singleton.mp mem
    rfl
  · obtain ⟨c, -, mem⟩ := List.mem_flatMap.mp mem
    exact c.copies_unprogrammed mem

/-- R60: what the array's next operation leaves. -/
theorem arbitrate_parts (s : State) : s.arbitrate.dir = s.dir ∧ s.arbitrate.site = s.site ∧ s.arbitrate.batch = s.batch
    ∧ s.arbitrate.store.work = s.store.work ∧ s.arbitrate.store.workQ = s.store.workQ
    ∧ s.arbitrate.store.counter = s.store.counter := by
  obtain ⟨op, ps, sts, eq, touched⟩ := arbitrate_touches s
  rw [touched]
  exact ⟨rfl, rfl, rfl, rfl, rfl, rfl⟩

/-! ### The plan -/

section
variable {s u : State} {f : SiteFrame} {done : List (IndexEntry × List Record)}

/-- R86: a commit that is refused leaves the batch OPEN with its deadline set afresh. -/
theorem refuseCommit_parts (s : State) (f : SiteFrame) (x : Result) (d : List Byte) :
    (s.refuseCommit f x d).site = portReplied s.site (replyFrame f x d false)
    ∧ (s.refuseCommit f x d).batch = { s.batch with deadline := some (s.cal.uptime + s.timing.batchIdle) }
    ∧ After s (s.refuseCommit f x d) := by
  unfold State.refuseCommit
  rw [reply_eq]
  exact ⟨rfl, rfl, .of_parts rfl rfl rfl⟩

theorem finishPlan_of_full (full : 32768 < s.dir.recordCount + (planOf (s.planRows done)).added
      - (planOf (s.planRows done)).removed) :
    s.finishPlan f done = s.refuseCommit f .full (u16 (s.dir.recordCount + (planOf (s.planRows done)).added
      - (planOf (s.planRows done)).removed)) :=
  if_pos full

theorem finishPlan_of_lack (room : s.dir.recordCount + (planOf (s.planRows done)).added
      - (planOf (s.planRows done)).removed ≤ 32768)
    (lack : s.store.available < (planOf (s.planRows done)).copies.length) :
    s.finishPlan f done = s.refuseCommit f .noPages
      (u16 (planOf (s.planRows done)).copies.length ++ u16 s.store.available) :=
  (if_neg (Nat.not_lt.mpr room)).trans (if_pos lack)

theorem finishPlan_accepts (room : s.dir.recordCount + (planOf (s.planRows done)).added
      - (planOf (s.planRows done)).removed ≤ 32768)
    (enough : (planOf (s.planRows done)).copies.length ≤ s.store.available) :
    s.finishPlan f done = s.acceptCommit f (planOf (s.planRows done)) :=
  (if_neg (Nat.not_lt.mpr room)).trans (if_neg (Nat.not_lt.mpr enough))

/-- R86, R88: what an accepted commit leaves. -/
theorem acceptCommit_begun (s : State) (f : SiteFrame) {p : Plan} (fresh : ∀ c ∈ p.copies, c.page = none)
    (enough : p.copies.length ≤ s.store.obtainable) :
    (s.acceptCommit f p).site = portReplied s.site (replyFrame f .accepted
        (u32 s.store.counter ++ u8 p.copies.length ++ u8 p.released.length) false)
    ∧ (s.acceptCommit f p).store.counter = s.store.counter + 1
    ∧ (s.acceptCommit f p).batch = { s.batch with
        state := .committing, deadline := none, commit := some s.store.counter, purge := purgeListOf s.batch.edits }
    ∧ ∃ phase, (s.acceptCommit f p).store.work = some { p.work s.store.counter with phase := phase }
      ∧ CopiesBegun s.store { p.work s.store.counter with phase := phase } (s.acceptCommit f p).store.workQ := by
  obtain ⟨-, -, -, -, store⟩ := accepted_parts s f p
  have site : (s.accepted f p).site = portReplied s.site (replyFrame f .accepted
      (u32 s.store.counter ++ u8 p.copies.length ++ u8 p.released.length) false) := by
    unfold State.accepted
    rw [reply_eq]
    rfl
  have batch : (s.accepted f p).batch = { s.batch with
      state := .committing, deadline := none, commit := some s.store.counter, purge := purgeListOf s.batch.edits } := by
    unfold State.accepted
    rw [reply_eq]
    rfl
  rw [acceptCommit_eq]
  generalize s.accepted f p = t at store site batch
  obtain ⟨phase, q, begun, copies⟩ := startCopies_begun (s := t) (w := p.work s.store.counter) (by rw [store]) fresh
    (by rw [store]; exact enough)
  obtain ⟨-, site', batch', work, queue, counter⟩ := arbitrate_parts t.startCopies
  rw [site', batch', work, queue, counter, begun]
  rw [store] at copies
  exact ⟨site, by rw [State.working, store], batch, phase, rfl, copies⟩

end

/-! ### The planning read -/

section
variable {s : State} {rest : List PrioEntry} {f : SiteFrame} {e : IndexEntry} {todo : List IndexEntry}
  {done : List (IndexEntry × List Record)}

theorem execPlanningRead_of_serves (serves : Serves s .planRead rest) :
    ThenArray .planningRead s (s.servedTo rest).servePlan := by
  rw [ThenArray, exec_planningRead, execPlanningRead, whileRunning_of_running _ _ serves.running]
  simp only [serves.nextPrio, serves.dropPrio]

variable (waits : s.site.inHand = some { frame := f, wait := .planning (e :: todo) done })
include waits

theorem servePlan_of_unread (unread : s.store.readPage e = none) :
    (s.servedTo rest).servePlan = ((s.servedTo rest).raiseFault .storeFault e.page.val).refuseCommit f .storeFault [] := by
  have page := readFor_of_none (s.servedTo rest) e unread
  simp only [State.servePlan, waits, page]

theorem servePlan_of_read {rs : List Record} (read : s.store.readPage e = some rs) :
    (s.servedTo rest).servePlan = (s.servedTo rest).planNext f todo (done ++ [(e, rs)]) := by
  have page := readFor_of_some (s.servedTo rest) e rs read
  simp only [State.servePlan, waits, page]

end

/-! ### The page read of a COMPACT -/

/-- The card once the page of a COMPACT has been read, or has failed its check. -/
structure PageRead (s v : State) (rest : List PrioEntry) : Prop where
  dir : v.dir = s.dir
  store : v.store = { s.store with prio := rest }
  masked : v.faults.masked .commitFail = s.faults.masked .commitFail
  major : v.faults.major .commitFail = s.faults.major .commitFail
  set : v.faults.isSet .commitFail = s.faults.isSet .commitFail

section
variable {s v : State} {rest : List PrioEntry} {w : Work} {e : IndexEntry} {todo : List IndexEntry}

theorem pageRead_passed (s : State) (rest : List PrioEntry) : PageRead s (s.servedTo rest) rest :=
  ⟨rfl, rfl, rfl, rfl, rfl⟩

theorem pageRead_failed (s : State) (rest : List PrioEntry) (d : Nat) :
    PageRead s ((s.servedTo rest).raiseFault .storeFault d) rest := by
  have faults := raiseFault_faults (s.servedTo rest) .storeFault d
  obtain ⟨f, ns, touched⟩ := raiseFault_touches (s.servedTo rest) .storeFault d
  refine ⟨by rw [touched], by rw [touched], by rw [faults]; rfl, by rw [faults]; rfl, ?_⟩
  rw [faults]
  simp [FaultUnit.isSet, FaultKind.bit, FaultKind.code]

/-- R62, R76: how a COMPACT ends for the reader of its pages. -/
def CompactEnds (s u : State) (w : Work) : Prop :=
  u.store.work = none ∧ Raises s u.arbitrate.settle .commitFail (w.number % 65536) ∧ u.dir = s.dir
    ∧ Reported u.arbitrate.settle .compactFailed

theorem PageRead.ends (h : PageRead s v rest) {q : List WorkEntry} {x : Work} (kind : x.kind = .compact)
    (number : x.number = w.number) (cause : FailCause) :
    CompactEnds s ((v.working x q).failWork cause) w := by
  obtain ⟨dir, raised, reported⟩ := compactFails (s := v.working x q) rfl kind cause
  rw [number] at raised
  have raised' : Raised s ((v.working x q).failWork cause) .commitFail (w.number % 65536) :=
    raised.from h.masked h.major h.set
  exact ⟨failWork_work _ cause, raised'.arbitrate, dir.trans h.dir, reported⟩

theorem PageRead.self (h : PageRead s v rest) (running : s.store.work = some w) : v.working w v.store.workQ = v := by
  have works : some w = v.store.work := by rw [h.store]; exact running.symm
  rw [State.working, works]

/-- R75: the card goes on with the records gathered. -/
theorem PageRead.mapWork (h : PageRead s v rest) (running : s.store.work = some w) (g : Work → Work) :
    v.mapWork g = v.working (g w) v.store.workQ := by
  have works : v.store.work = some w := by rw [h.store]; exact running
  rw [mapWork_of_some works]
  rfl

/-- R75: the layout of a COMPACT that has read its last page. -/
theorem PageRead.layout (h : PageRead s v rest) {x : Work} (kind : x.kind = .compact) (number : x.number = w.number)
    (last : x.todo = []) :
    (s.store.obtainable < (compactLayout x.gathered).length →
      CompactEnds s (v.working x v.store.workQ).compactNext w)
    ∧ ((compactLayout x.gathered).length ≤ s.store.obtainable →
      ∃ phase q, (v.working x v.store.workQ).compactNext
        = (v.working { x.laidOut s.dir.index with phase := phase } q)
      ∧ CopiesBegun s.store { x.laidOut s.dir.index with phase := phase } q) := by
  have fixed : (v.working x v.store.workQ).compactNext
      = (v.working (x.laidOut s.dir.index) v.store.workQ).startCopies := by
    rw [← h.dir]
    simp only [State.compactNext, State.working, last]
    rfl
  have fresh (c : Copy) (mem : c ∈ (x.laidOut s.dir.index).copies) : c.page = none := (compactLayout_records mem).1
  rw [fixed]
  refine ⟨fun lack => ?_, fun enough => ?_⟩
  · have short : (v.working (x.laidOut s.dir.index) v.store.workQ).store.obtainable
        < (x.laidOut s.dir.index).copies.length := by
      rw [State.working, h.store]
      exact lack
    rw [startCopies_lack (w := x.laidOut s.dir.index) rfl fresh short, working_working]
    exact h.ends (x := { x.laidOut s.dir.index with phase := .commitWait }) kind number .noPages
  · obtain ⟨phase, q, begun, copies⟩ := startCopies_begun (s := v.working (x.laidOut s.dir.index) v.store.workQ)
      (w := x.laidOut s.dir.index) rfl fresh (by rw [State.working, h.store]; exact enough)
    rw [working_working] at begun
    refine ⟨phase, q, begun, ?_⟩
    rw [State.working, h.store] at copies
    exact copies

theorem execCompactRead_of_serves (serves : Serves s .compactRead rest) :
    ThenArray .compactRead s (s.servedTo rest).serveCompact := by
  rw [ThenArray, exec_compactRead, execCompactRead, whileRunning_of_running _ _ serves.running]
  simp only [serves.nextPrio, serves.dropPrio]

variable (running : s.store.work = some w) (reads : w.todo = e :: todo)
include running reads

theorem serveCompact_of_unread (unread : s.store.readPage e = none) : (s.servedTo rest).serveCompact
    = ((s.servedTo rest).raiseFault .storeFault e.page.val).compactPage todo none := by
  have page := readFor_of_none (s.servedTo rest) e unread
  simp only [State.serveCompact, running, reads, page]

theorem serveCompact_of_read {rs : List Record} (read : s.store.readPage e = some rs) :
    (s.servedTo rest).serveCompact = (s.servedTo rest).compactPage todo (some rs) := by
  have page := readFor_of_some (s.servedTo rest) e rs read
  simp only [State.serveCompact, running, reads, page]

end

end Sys2Proof.Machine
end

section
/-! PROOF. The page reads of scans, plans and COMPACTs as they are served (R44, R52, R54, R75, R86 to R88). -/

namespace Sys2Proof.Machine

/-! ### Counts of pages (R62, R74, R88) -/

theorem isFree_eq_beq (x : PageState) : x.isFree = (x == .free) := by
  cases x <;> rfl

theorem countPages_free (st : Store) : st.freePages = st.pageState.toList.countP (· == .free) := by
  rw [Store.freePages, Store.countPages]
  exact congrArg (List.countP · _) (funext isFree_eq_beq)

theorem countPages_available (st : Store) :
    st.available = st.pageState.toList.countP fun x => x == .free || x.isStale || x.isErasing := by
  simp only [Store.available, Store.countPages, isFree_eq_beq]

theorem countPages_obtainable (st : Store) : st.obtainable
    = st.pageState.toList.countP fun x => x == .free || (x.isStale && x != .stale .held) || x.isErasing := by
  simp only [Store.obtainable, Store.countPages, isFree_eq_beq]

section
variable {s : State} {rest : List PrioEntry} {f : SiteFrame}

theorem raiseFault_site (s : State) (k : FaultKind) (d : Nat) : (s.raiseFault k d).site = s.site := by
  obtain ⟨g, ns, touched⟩ := raiseFault_touches s k d
  rw [touched]

theorem reply_site (s : State) (f : SiteFrame) (x : Result) (d : List Byte) :
    (s.reply f x d).site = portReplied s.site (replyFrame f x d false) := by
  rw [reply_eq]

/-- R44: the raising of a page that fails its read check. -/
theorem unread_raised (s : State) (rest : List PrioEntry) (d : Nat) :
    Raised s ((s.servedTo rest).raiseFault .storeFault d) .storeFault d :=
  (raiseFault_raised (s.servedTo rest) .storeFault d).since rfl

/-! ### Scans -/

/-- R52, R53: a scan ends OK with the records given, which the cursor follows. -/
def ScanEnds (s t : State) (f : SiteFrame) (records : List Record) (atEnd : Bool) : Prop :=
  t.dir = { s.dir with cursor := if atEnd then none else (records.getLast?).map Record.badge }
  ∧ t.site = portReplied s.site
    (replyFrame f .ok (u8 records.length ++ bool8 atEnd ++ records.flatMap Record.bytes) false)

theorem execScanPageRead_of_scanned {records : List Record} {atEnd : Bool} (runs : Runs s)
    (waits : s.site.inHand = some { frame := f, wait := .scanned records atEnd }) :
    ∃ t, exec (.scanPageRead true) s = .next t ∧ ScanEnds s t f records atEnd ∧ t.store = s.store := by
  obtain ⟨running, quiet⟩ := runs
  obtain ⟨dir, site, store, notices⟩ := endScan_parts s f records atEnd
  have ready : (s.site.scanned && true) = true := by simp [Port.scanned, waits]
  refine ⟨s.endScan f records atEnd, ?_, ⟨dir, site⟩, store⟩
  rw [exec_scanPageRead, execScanPageRead, whileRunning_of_running _ _ running]
  simp only [ready, if_true, answerScan_of_scanned waits]
  exact congrArg Host.Outcome.next (settle_of_none_raised _ (by rw [notices]; exact quiet))

variable {start next : Badge} {gathered rs : List Record} {e : IndexEntry} {reply : Bool}
  (waits : s.site.inHand = some { frame := f, wait := .scan start next gathered })
  (entry : s.dir.entryFor next = some e)
include waits entry

theorem scanServed_fails (unread : s.store.readPage e = none) :
    (s.scanServed rest reply).site = portReplied s.site (replyFrame f .storeFault [] false)
    ∧ Raises s (s.scanServed rest reply).arbitrate.settle .storeFault e.page.val := by
  rw [scanServed_of_unread waits entry unread]
  refine ⟨?_, ((unread_raised s rest _).after (reply_after _ _ _ _)).arbitrate⟩
  rw [State.refuse, reply_site, raiseFault_site]

theorem scanServed_goesOn (read : s.store.readPage e = some rs)
    (few : (gathered ++ rs.filter fun r => next ≤ r.badge).length < 16) (below : e.high ≠ topBadge) :
    (s.scanServed rest reply).store.prio = rest ++ [.scanRead]
    ∧ (s.scanServed rest reply).site = { s.site with
        inHand := some { frame := f, wait := .scan start (e.high + 1) (gathered ++ rs.filter fun r => next ≤ r.badge) } } := by
  rw [scanServed_of_read waits entry read, scanPage_goesOn few below, answerScan_of_other rfl]
  exact ⟨placePrio_prio _ _, rfl⟩

theorem scanServed_ends (read : s.store.readPage e = some rs)
    (ends : 16 ≤ (gathered ++ rs.filter fun r => next ≤ r.badge).length ∨ e.high = topBadge) :
    let all := gathered ++ rs.filter fun r => next ≤ r.badge
    (reply = true → ScanEnds s (s.scanServed rest reply) f (all.take 16) (scanAtEnd all e))
    ∧ (reply = false → (s.scanServed rest reply).dir = s.dir ∧ (s.scanServed rest reply).site
      = { s.site with inHand := some { frame := f, wait := .scanned (all.take 16) (scanAtEnd all e) } }) := by
  dsimp only
  rw [scanServed_of_read waits entry read, scanPage_ends ends]
  generalize (gathered ++ rs.filter fun r => next ≤ r.badge).take 16 = records
  generalize scanAtEnd (gathered ++ rs.filter fun r => next ≤ r.badge) e = atEnd
  refine ⟨fun now => ?_, fun later => ?_⟩
  · obtain ⟨dir, site, -⟩ := endScan_parts ((s.servedTo rest).setInHand f (.scanned records atEnd)) f records atEnd
    rw [if_pos now, answerScan_of_scanned rfl]
    exact ⟨dir, site⟩
  · rw [if_neg (by simp [later])]
    exact ⟨rfl, rfl⟩

end

/-! ### COMPACTs -/

section
variable {s v : State} {rest : List PrioEntry} {w : Work} {todo : List IndexEntry} {gathered : List Record}

/-- R75, R88: what a COMPACT goes on to, its layout fixed in `u`. -/
def LaidOut (s u : State) (w : Work) (gathered : List Record) : Prop :=
  ∃ x, u.store.work = some x ∧ x.copies = compactLayout gathered ∧ x.released = s.dir.index.map IndexEntry.page
    ∧ x.number = w.number ∧ CopiesBegun s.store x u.store.workQ

/-- R75: a COMPACT goes on after a page: to its next read, or to its layout. -/
theorem PageRead.goesOn (h : PageRead s v rest) (running : s.store.work = some w) (kind : w.kind = .compact)
    {g : Work → Work} (gathers : g w = { w with todo := todo, gathered := gathered }) :
    let u := (v.mapWork g).compactNext
    (todo ≠ [] → u.store.prio = rest ++ [.compactRead]
      ∧ u.store.work = some { w with todo := todo, gathered := gathered })
    ∧ (todo = [] → s.store.obtainable < (compactLayout gathered).length → CompactEnds s u w)
    ∧ (todo = [] → (compactLayout gathered).length ≤ s.store.obtainable → LaidOut s u w gathered) := by
  dsimp only
  rw [h.mapWork running, gathers]
  refine ⟨fun more => ?_, fun last lack => ?_, fun last enough => ?_⟩
  · cases todo with
    | nil => exact absurd rfl more
    | cons a as =>
      have placed : (v.working { w with todo := a :: as, gathered := gathered } v.store.workQ).compactNext
        = (v.working { w with todo := a :: as, gathered := gathered } v.store.workQ).placePrio .compactRead := rfl
      obtain ⟨op, capped, touched⟩ :=
        placePrio_touches (v.working { w with todo := a :: as, gathered := gathered } v.store.workQ) .compactRead
      rw [placed, touched]
      exact ⟨by rw [State.working, h.store], rfl⟩
  · exact (h.layout (x := { w with todo := todo, gathered := gathered }) kind rfl last).1 lack
  · obtain ⟨phase, q, begun, copies⟩ :=
      (h.layout (x := { w with todo := todo, gathered := gathered }) kind rfl last).2 enough
    rw [begun]
    exact ⟨_, rfl, rfl, rfl, rfl, copies⟩

end

end Sys2Proof.Machine

namespace Sys2Proof

open Machine

/-- Settles O45: each read as its block takes the page, or finds it fail its check. -/
theorem pageReadsAreServed : Obligations.PageReadsAreServed := by
  unfold Obligations.PageReadsAreServed
  intro s rest f
  refine ⟨⟨countPages_free s.store, countPages_available s.store, countPages_obtainable s.store⟩,
    fun start next gathered e reply serves waits entry => ?_, fun records atEnd => execScanPageRead_of_scanned,
    fun e todo done serves waits => ?_, fun w e todo serves running kind phase reads => ?_⟩
  · exact ⟨_, execScanPageRead_of_serves serves waits, scanServed_fails waits entry, fun rs read =>
      ⟨scanServed_goesOn waits entry read, scanServed_ends waits entry read⟩⟩
  · refine ⟨_, execPlanningRead_of_serves serves, fun unread => ?_, fun rs read more => ?_, fun rs read last => ?_⟩
    · rw [servePlan_of_unread waits unread]
      obtain ⟨site, batch, after⟩ := refuseCommit_parts ((s.servedTo rest).raiseFault .storeFault e.page.val) f
        .storeFault []
      obtain ⟨g, ns, touched⟩ := raiseFault_touches (s.servedTo rest) .storeFault e.page.val
      refine ⟨?_, ((unread_raised s rest _).after after).arbitrate, ?_⟩
      · exact site.trans (congrArg (portReplied · _) (raiseFault_site _ _ _))
      · rw [batch, touched]
    · rw [servePlan_of_read waits read]
      cases todo with
      | nil => exact absurd rfl more
      | cons a as => exact ⟨placePrio_prio _ _, rfl⟩
    · subst last
      rw [servePlan_of_read waits read]
      have refused (x : Result) (d : List Byte) := refuseCommit_parts (s.servedTo rest) f x d
      refine ⟨fun full => ?_, fun room lack => ?_, fun room obtained enough => ?_⟩
      · have eq : (s.servedTo rest).planNext f [] (done ++ [(e, rs)]) = _ := finishPlan_of_full (s := s.servedTo rest) full
        rw [eq]
        exact ⟨(refused _ _).1, (refused _ _).2.1⟩
      · have eq : (s.servedTo rest).planNext f [] (done ++ [(e, rs)]) = _ :=
          finishPlan_of_lack (s := s.servedTo rest) room lack
        rw [eq]
        exact ⟨(refused _ _).1, (refused _ _).2.1⟩
      · have eq : (s.servedTo rest).planNext f [] (done ++ [(e, rs)]) = _ :=
          finishPlan_accepts (s := s.servedTo rest) room enough
        rw [eq]
        obtain ⟨site, counter, batch, phase, work, copies⟩ := acceptCommit_begun (s.servedTo rest) f
          (fun c mem => planOf_unprogrammed mem) obtained
        exact ⟨site, counter, batch, _, work, rfl, rfl, rfl, rfl, rfl, rfl, rfl, copies⟩
  · refine ⟨_, execCompactRead_of_serves serves, ?_⟩
    cases read : s.store.readPage e with
    | none =>
      have failed := pageRead_failed s rest e.page.val
      have raised := unread_raised s rest e.page.val
      rw [serveCompact_of_unread running reads read]
      generalize (s.servedTo rest).raiseFault .storeFault e.page.val = v at failed raised
      by_cases usable : s.dir.condition = .usable
      · have fails : v.compactPage todo none = v.failWork .programFail := if_pos (by rw [failed.dir]; exact usable)
        have ends := failed.ends (q := v.store.workQ) kind (w := w) rfl .programFail
        rw [failed.self running] at ends
        rw [fails]
        exact ⟨fun _ => (raised.after (failWork_after _ _)).arbitrate, fun _ _ => ends,
          fun on => absurd usable (by rw [on.resolve_left fun no => no rfl]; decide)⟩
      · have on : v.compactPage todo none = (v.mapWork fun w => { w with todo := todo }).compactNext :=
          if_neg (by rw [failed.dir]; exact usable)
        rw [on]
        have after := (mapStore_after v _).trans (compactNext_after (v.mapWork fun w => { w with todo := todo }))
        exact ⟨fun _ => (raised.after after).arbitrate, fun _ no => absurd no usable,
          fun _ => failed.goesOn running kind rfl⟩
    | some rs =>
      rw [serveCompact_of_read running reads read]
      obtain ⟨more, lack, enough⟩ := (pageRead_passed s rest).goesOn running kind (todo := todo)
        (gathered := w.gathered ++ rs) (g := fun w => { w with todo := todo, gathered := w.gathered ++ rs }) rfl
      exact ⟨nofun, nofun, fun _ => ⟨more, lack, enough⟩⟩

end Sys2Proof
end

section
/-! PROOF. A lookup as its READ is served (R43, R44, R47), and what its result answers at the port (R51, R81,
R83). -/

namespace Sys2Proof.Machine

/-! ### A lookup -/

/-- R43: an entry found holds the badge. -/
theorem entryFor_holds {d : Directory} {b : Badge} {e : IndexEntry} (h : d.entryFor b = some e) :
    e ∈ d.index ∧ e.low ≤ b ∧ b ≤ e.high := by
  have holds := List.find?_some h
  simp only [Bool.and_eq_true, decide_eq_true_iff] at holds
  exact ⟨List.mem_of_find?_eq_some h, holds⟩

theorem not_holds_of_entryFor {d : Directory} {b : Badge} (h : d.entryFor b = none) :
    ∀ e ∈ d.index, ¬ (e.low ≤ b ∧ b ≤ e.high) := fun e mem holds =>
  List.find?_eq_none.mp h e mem (by simpa using holds)

/-- R44: the read check. -/
theorem readPage_iff {st : Store} {e : IndexEntry} {rs : List Record} : st.readPage e = some rs ↔
    ∃ x, (st.page e.page).contents = .programmed x
      ∧ x.complete = true ∧ x.low = e.low ∧ x.high = e.high ∧ x.count = e.count ∧ x.commit = e.commit
      ∧ x.records = rs ∧ rs.length = e.count ∧ rs.Pairwise (fun a b => a.badge < b.badge)
      ∧ ∀ r ∈ rs, e.low ≤ r.badge ∧ r.badge ≤ e.high := by
  cases held : (st.page e.page).contents with
  | erased => simp [Store.readPage, held]
  | programmed x =>
    rw [← orderedWithin_iff]
    simp only [Store.readPage, held, Option.ite_none_right_eq_some, Bool.and_eq_true, beq_iff_eq, Option.some.injEq,
      PageContents.programmed.injEq, exists_eq_left']
    constructor
    · rintro ⟨⟨⟨⟨⟨⟨⟨complete, low⟩, high⟩, count⟩, commit⟩, length⟩, ordered⟩, rfl⟩
      exact ⟨complete, low, high, count, commit, rfl, length.symm.trans count, ordered⟩
    · rintro ⟨complete, low, high, count, commit, rfl, length, ordered⟩
      exact ⟨⟨⟨⟨⟨⟨⟨complete, low⟩, high⟩, count⟩, commit⟩, count.trans length.symm⟩, ordered⟩, rfl⟩

section
variable {s : State} {b : Badge}

theorem lookup_of_unusable (unusable : s.dir.condition = .unusable) : s.lookup b = (s, .storeFault) :=
  if_pos unusable

variable {e : IndexEntry} (usable : s.dir.condition = .usable) (entry : s.dir.entryFor b = some e)
include usable entry

theorem lookup_of_unread (unread : s.store.readPage e = none) :
    s.lookup b = (s.raiseFault .storeFault e.page.val, .storeFault) := by
  simp only [State.lookup, usable, entry, readFor_of_none s e unread, reduceCtorEq, if_false]

variable {rs : List Record} (read : s.store.readPage e = some rs)
include read

theorem lookup_of_absent (absent : recordOf b rs = none) : s.lookup b = (s, .absent e.commit) := by
  simp only [State.lookup, usable, entry, readFor_of_some s e rs read, absent, reduceCtorEq, if_false]

theorem lookup_of_found {x : Record} (found : recordOf b rs = some x) :
    s.lookup b = (s, .found x (reportedMarks x (s.store.prio.count (.mark b))) (s.store.prio.count (.mark b))
      e.commit) := by
  simp only [State.lookup, usable, entry, readFor_of_some s e rs read, found, reduceCtorEq, if_false]
  rfl

end

/-- R47: the marks reported with a record. -/
theorem reportedMarks_eq (x : Record) (queued : Nat) :
    (∀ n, x.budget = some n → reportedMarks x queued = min n (x.marks + queued))
    ∧ (x.budget = none → reportedMarks x queued = 0) := by
  unfold reportedMarks
  exact ⟨fun n budget => by rw [budget], fun budget => by rw [budget]⟩

/-! ### The READ served -/

section
variable {s : State} {b : Badge} {rest : List PrioEntry}

/-- R44: what a lookup raises where the page fails its check stands in every state the event goes on to. -/
theorem lookup_raised {u : State} (after : After ((s.servedTo rest).lookup b).1 u) (e : IndexEntry)
    (usable : s.dir.condition = .usable) (entry : s.dir.entryFor b = some e) (unread : s.store.readPage e = none) :
    Raises s u.arbitrate.settle .storeFault e.page.val := by
  rw [lookup_of_unread (s := s.servedTo rest) usable entry unread] at after
  exact ((unread_raised s rest _).after after).arbitrate

theorem execLookup_of_serves {handOver : Bool} (running : s.power = .running)
    (waits : ∀ r res, s.engine = .evaluating r (some res) → handOver = false) :
    exec (.lookup handOver) s = .next (s.serveLookup handOver).settle := by
  rw [exec_lookup, execLookup, whileRunning_of_running _ _ running]
  split
  · rename_i r res engine
    exact absurd (waits r res engine) (by decide)
  · rfl

theorem serveLookup_of_engineRead (serves : Serves s (.engineRead b) rest) (now : Bool) :
    s.serveLookup now = ((s.servedTo rest).engineRead b now).arbitrate := by
  simp only [State.serveLookup, serves.nextPrio, serves.dropPrio]

theorem serveLookup_of_portRead (serves : Serves s (.portRead b) rest) (now : Bool) :
    s.serveLookup now = ((s.servedTo rest).portRead b).arbitrate := by
  simp only [State.serveLookup, serves.nextPrio, serves.dropPrio]

end

/-! ### A result at the port -/

section
variable {s u : State} {b : Badge} {rest : List PrioEntry} {f : SiteFrame} {res : LookupResult}

/-- R51, R83: a result at the port answers the request in hand, and may change the batch. -/
theorem portResult_touches (s : State) (res : LookupResult) :
    ∃ site batch, s.portResult res = { s with site := site, batch := batch } := by
  have replied (f : SiteFrame) (x : Result) (d : List Byte) :
      ∃ site batch, s.reply f x d = { s with site := site, batch := batch } := by
    rw [reply_eq]
    exact ⟨_, s.batch, rfl⟩
  have staged (f : SiteFrame) (e : Edit) : ∃ site batch, s.stageEdit f e = { s with site := site, batch := batch } := by
    unfold State.stageEdit State.replyOk
    dsimp only
    rw [reply_eq]
    exact ⟨_, _, rfl⟩
  unfold State.portResult
  split
  · unfold State.recordResult
    split
    · exact replied _ _ _
    · exact replied _ _ _
    · exact replied _ _ _
  · unfold State.stageResult
    split
    · exact replied _ _ _
    · split
      · exact replied _ _ _
      · exact staged _ _
      · split
        · exact replied _ _ _
        · exact staged _ _
  · exact ⟨s.site, s.batch, rfl⟩

/-- What the event that serves a READ of the port leaves. -/
structure PortServed (s t : State) (b : Badge) (rest : List PrioEntry) : Prop where
  prio : t.store.prio = rest
  raised : ∀ e, s.dir.condition = .usable → s.dir.entryFor b = some e → s.store.readPage e = none →
    Raises s t .storeFault e.page.val

/-- The card in which the result of the port's lookup has been found and nothing has yet been made of it. -/
structure AtPort (s u : State) : Prop where
  site : u.site = s.site
  batch : u.batch = s.batch
  cal : u.cal = s.cal
  timing : u.timing = s.timing

theorem lookup_atPort (s : State) (b : Badge) (rest : List PrioEntry) : AtPort s ((s.servedTo rest).lookup b).1 := by
  obtain ⟨g, ns, touched⟩ := lookup_touches (s.servedTo rest) b
  rw [touched]
  exact ⟨rfl, rfl, rfl, rfl⟩

theorem execLookup_of_portRead (serves : Serves s (.portRead b) rest) {handOver : Bool}
    (free : ∀ r res, s.engine ≠ .evaluating r (some res)) :
    ∃ t, exec (.lookup handOver) s = .next t ∧ PortServed s t b rest
      ∧ t.site = (((s.servedTo rest).lookup b).1.portResult ((s.servedTo rest).lookup b).2).site
      ∧ t.batch = (((s.servedTo rest).lookup b).1.portResult ((s.servedTo rest).lookup b).2).batch := by
  obtain ⟨site, batch, touched⟩ := portResult_touches ((s.servedTo rest).lookup b).1 ((s.servedTo rest).lookup b).2
  obtain ⟨g, ns, looked⟩ := lookup_touches (s.servedTo rest) b
  obtain ⟨-, site', batch', -⟩ :=
    arbitrate_parts (((s.servedTo rest).lookup b).1.portResult ((s.servedTo rest).lookup b).2)
  have read : (s.servedTo rest).portRead b
      = ((s.servedTo rest).lookup b).1.portResult ((s.servedTo rest).lookup b).2 := rfl
  refine ⟨_, execLookup_of_serves serves.running fun r res engine => absurd engine (free r res), ⟨?_, ?_⟩, ?_⟩
  · rw [serveLookup_of_portRead serves, read, touched]
    obtain ⟨op, ps, sts, eq, arbitrated⟩ :=
      arbitrate_touches { ((s.servedTo rest).lookup b).1 with site := site, batch := batch }
    rw [arbitrated, looked]
    rfl
  · rw [serveLookup_of_portRead serves, read]
    refine fun e usable entry unread => lookup_raised (rest := rest) ?_ e usable entry unread
    rw [touched]
    exact .of_parts rfl rfl rfl
  · rw [serveLookup_of_portRead serves, read]
    exact ⟨site', batch'⟩

variable (at_ : AtPort s u)
include at_

theorem AtPort.reply (f : SiteFrame) (x : Result) (d : List Byte) :
    (u.reply f x d).site = portReplied s.site (replyFrame f x d false) ∧ (u.reply f x d).batch = s.batch := by
  rw [reply_eq, ← at_.site]
  exact ⟨rfl, at_.batch⟩

/-- R51: a RECORD READ is answered. -/
theorem AtPort.recordRead (waits : s.site.inHand = some { frame := f, wait := .recordRead b }) :
    let answers (x : Result) (d : List Byte) := (u.portResult res).site = portReplied s.site (replyFrame f x d false)
    (∀ x m q n, res = .found x m q n → answers .ok (x.bytes ++ u8 q ++ u32 n))
    ∧ (∀ n, res = .absent n → answers .notFound (u32 n)) ∧ (res = .storeFault → answers .storeFault []) := by
  have result : u.portResult res = u.recordResult f res := by simp only [State.portResult, at_.site, waits]
  dsimp only
  rw [result]
  refine ⟨?_, ?_, ?_⟩
  · rintro x m q n rfl
    exact (at_.reply _ _ _).1
  · rintro n rfl
    exact (at_.reply _ _ _).1
  · rintro rfl
    exact (at_.reply _ _ _).1

/-- R79, R81: an edit is staged at the end, or in the place of the edit of its badge. -/
theorem AtPort.stageEdit (e : Edit) :
    let staged (edits : List Edit) (replaced : Byte) : Prop :=
      (u.stageEdit f e).site = portReplied s.site (replyFrame f .ok (u8 edits.length ++ [replaced]) false)
      ∧ (u.stageEdit f e).batch = { s.batch with
        edits := edits, deadline := some (s.cal.uptime + s.timing.batchIdle) }
    ((¬ ∃ x ∈ s.batch.edits, x.badge = e.badge) → staged (s.batch.edits ++ [e]) 0)
    ∧ ((∃ x ∈ s.batch.edits, x.badge = e.badge) →
      staged (s.batch.edits.map fun x => if x.badge = e.badge then e else x) 1) := by
  have held : (s.batch.find e.badge).isSome = true ↔ ∃ x ∈ s.batch.edits, x.badge = e.badge := by
    simp [Batch.find, List.find?_isSome]
  have site : (u.stageEdit f e).site = portReplied s.site (replyFrame f .ok
      (u8 (s.batch.stage e).edits.length ++ bool8 (s.batch.find e.badge).isSome) false) := by
    unfold State.stageEdit State.replyOk
    dsimp only
    rw [reply_eq, ← at_.site, ← at_.batch]
    rfl
  have batch : (u.stageEdit f e).batch
      = { s.batch.stage e with deadline := some (s.cal.uptime + s.timing.batchIdle) } := by
    unfold State.stageEdit State.replyOk
    dsimp only
    rw [reply_eq, ← at_.batch, ← at_.cal, ← at_.timing]
    rfl
  dsimp only
  rw [site, batch, Batch.stage]
  refine ⟨fun new => ?_, fun old => ?_⟩
  · have absent := Bool.eq_false_iff.mpr fun found => new (held.mp found)
    rw [absent]
    exact ⟨rfl, rfl⟩
  · rw [held.mpr old]
    exact ⟨rfl, rfl⟩

variable {e : Edit} (waits : s.site.inHand = some { frame := f, wait := .stage e })
include waits

theorem AtPort.portResult_eq : u.portResult res = u.stageResult f e res := by
  simp only [State.portResult, at_.site, waits]

/-- R83: a result lets a protected check pass. -/
def LookupResult.passes (res : LookupResult) : Prop :=
  (∃ n, res = .absent n) ∨ ∃ x m q n, res = .found x m q n ∧ x.profile.val < 240

theorem AtPort.stage_passes (opened : s.batch.state = .open_) (passes : res.passes) :
    u.portResult res = u.stageEdit f e := by
  have open_ : ¬ u.batch.state ≠ .open_ := by rw [at_.batch]; exact not_not.mpr opened
  rw [at_.portResult_eq waits]
  unfold State.stageResult
  rw [if_neg open_]
  rcases passes with ⟨n, rfl⟩ | ⟨x, m, q, n, rfl, low⟩
  · rfl
  · exact if_neg (Nat.not_le.mpr low)

/-- R83: the results that refuse a protected edit. -/
theorem AtPort.stage_refused :
    let refused (x : Result) : Prop :=
      (u.portResult res).site = portReplied s.site (replyFrame f x [] false) ∧ (u.portResult res).batch = s.batch
    (s.batch.state ≠ .open_ → refused .notOpen) ∧ (s.batch.state = .open_ → res = .storeFault → refused .storeFault)
    ∧ ∀ x m q n, s.batch.state = .open_ → res = .found x m q n → 240 ≤ x.profile.val → refused .guarded := by
  dsimp only
  rw [at_.portResult_eq waits]
  unfold State.stageResult
  rw [at_.batch]
  refine ⟨fun closed => ?_, ?_, ?_⟩
  · rw [if_pos closed]
    exact at_.reply _ _ _
  · rintro opened rfl
    rw [if_neg (not_not.mpr opened)]
    exact at_.reply _ _ _
  · rintro x m q n opened rfl high
    rw [if_neg (not_not.mpr opened)]
    simp only [if_pos high]
    exact at_.reply _ _ _

end

end Sys2Proof.Machine
end

section
/-! PROOF. A decision of the Admission Engine (R115): its notices, its answer at the channel, its order at the
group (R118, R126, R136, R145). -/

namespace Sys2Proof.Machine

/-! ### Notices of an event -/

/-- R171: a notice with the body `b` has been raised in the event that goes on in `u`. -/
def Noticed (u : State) (b : NoticeBody) : Prop := { uptime := u.cal.uptime, body := b } ∈ u.notices.raised

section
variable {u v : State} {b : NoticeBody}

theorem Noticed.after (h : Noticed u b) (g : After u v) : Noticed v b := by
  rw [Noticed, g.cal]
  exact g.kept _ h

theorem Noticed.settle (h : Noticed u b) : Reported u.settle b := settle_reports u _ h rfl

theorem raiseNotice_noticed (u : State) (b : NoticeBody) : Noticed (u.raiseNotice b) b := mem_raiseNotice u b

theorem SameButEngine.after (h : SameButEngine u v) : After u v := by
  obtain ⟨gs, rs, ns, tt, q, en, op, cp, more, rfl⟩ := h
  exact ⟨fun _ => id, rfl, fun n mem => List.mem_append_left ns mem⟩

end

/-! ### The ruling carried out -/

/-- What the engine judges of a request, the expired entry it meets removed (R116). -/
abbrev State.judgedFor (s : State) (r : Request) (res : Option LookupResult) : Judgement :=
  (s.meetExpired r).judge r res

/-- The card as a decision on `s` carries out its ruling: the Transfer Table and the notices alone may have
changed. -/
structure AtRuling (s u : State) : Prop where
  readers : u.readers = s.readers
  groups : u.groups = s.groups
  cal : u.cal = s.cal
  time : u.time = s.time

section
variable (s : State) (r : Request) (res : Option LookupResult)

theorem meetExpired_touches : ∃ tt, s.meetExpired r = { s with transfer := tt } := by
  unfold State.meetExpired State.dropExpired
  split
  · split
    · split
      · exact ⟨_, rfl⟩
      · exact ⟨_, rfl⟩
    · exact ⟨_, rfl⟩
  · exact ⟨_, rfl⟩

theorem dropEntry_touches (j : Judgement) : ∃ tt, s.dropEntry r j = { s with transfer := tt } := by
  unfold State.dropEntry
  split
  · exact ⟨_, rfl⟩
  · exact ⟨_, rfl⟩

theorem raiseSecurity_touches (j : Judgement) : ∃ ns, s.raiseSecurity r j = { s with notices := ns } := by
  unfold State.raiseSecurity
  split
  · exact ⟨_, rfl⟩
  · exact ⟨s.notices, rfl⟩

/-- R118, R126: a decision raises its notices and then carries out its ruling. -/
theorem takeDecision_eq : ∃ u, s.takeDecision r res
      = { u.carryOut r (s.judgedFor r res).ruling with engine := .idle }
    ∧ AtRuling s u ∧ Noticed u (.decision (s.decisionNotice r (s.judgedFor r res)))
    ∧ ((s.judgedFor r res).standing = .suspended ∨ (s.judgedFor r res).standing = .lost →
        Noticed u (.presentation (s.presentation r (s.judgedFor r res)))) := by
  unfold State.takeDecision State.judgedFor
  obtain ⟨tt, expired⟩ := meetExpired_touches s r
  rw [expired]
  dsimp only
  generalize { s with transfer := tt }.judge r res = j
  obtain ⟨ns, secured⟩ := raiseSecurity_touches { s with transfer := tt } r j
  obtain ⟨tt', dropped⟩ := dropEntry_touches ({ s with transfer := tt, notices := ns }.raiseNotice
    (.decision ({ s with transfer := tt }.decisionNotice r j))) r j
  refine ⟨_, rfl, ?_, ?_, fun bad => ?_⟩
  · rw [secured, dropped]
    exact ⟨rfl, rfl, rfl, rfl⟩
  · rw [secured, dropped]
    exact raiseNotice_noticed { s with transfer := tt, notices := ns } (.decision (s.decisionNotice r j))
  · have raised : { s with transfer := tt }.raiseSecurity r j
        = { s with transfer := tt }.raiseNotice (.presentation (s.presentation r j)) := if_pos bad
    have noticed := raiseNotice_noticed { s with transfer := tt } (.presentation (s.presentation r j))
    rw [← raised, secured] at noticed
    rw [secured, dropped]
    exact List.mem_append_left _ noticed

end

section
variable {s u : State} {r : Request} {c : Chan}

theorem carryOut_after (u : State) (r : Request) (x : Ruling) (en : Engine) :
    After u { u.carryOut r x with engine := en } := by
  have same : SameButGroups u (u.carryOut r x) := by
    unfold State.carryOut
    split
    · exact deliver_same _ _ _
    · exact placeOrder_same _ _ _ _ _ _
  exact (same.toEngine.trans (withEngine_sameEngine _ _)).after

/-- R97, R106: an answer at its channel. -/
theorem AtRuling.deliver (at_ : AtRuling s u) (c : Chan) (code : AnswerCode) (d : Option Landing) :
    (u.deliver c (Answer.refusal code d)).groups = s.groups
    ∧ ((s.reader c).mark = .owned → (u.deliver c (Answer.refusal code d)).reader c = { s.reader c with
        mark := .none, state := .showing
        displayDeadline := some (s.cal.uptime + (s.reader c).cfg.hold)
        tx := (s.reader c).tx ++ [.show_ code none d none, .tone code.tone] })
    ∧ ((s.reader c).mark = .discard →
        (u.deliver c (Answer.refusal code d)).reader c = answerDropped (s.reader c)) := by
  have reader : u.reader c = s.reader c := by rw [State.reader, at_.readers]; rfl
  rw [← reader, ← at_.groups, ← at_.cal]
  refine ⟨?_, fun owned => ?_, fun discard => ?_⟩
  · obtain ⟨rs, touched⟩ := deliver_readers u c (Answer.refusal code d)
    rw [touched]
  · rw [deliver_of_owned u c _ owned, reader_mapReader]
    rfl
  · rw [deliver_of_discard u c _ discard, reader_mapReader]
    rfl

end

/-! ### The tag and the kind of an order -/

section
variable {m : GroupMgr}

theorem heldTag_iff (tag : Byte) : (m.orders.any fun o => o.tag == tag) = true ↔ ∃ o ∈ m.orders, o.tag = tag := by
  simp [List.any_eq_true]

/-- R136: 33 tags that follow the counter are not all held by 32 orders. -/
theorem exists_free_tag (room : m.orders.length ≤ 32) :
    ∃ n ≤ 32, ¬ ∃ o ∈ m.orders, o.tag = m.tagCounter + 1 + BitVec.ofNat 8 n := by
  by_contra all
  push Not at all
  have sub : ((List.range 33).map fun k => m.tagCounter + 1 + BitVec.ofNat 8 k) ⊆ m.orders.map Order.tag := by
    intro tag mem
    obtain ⟨k, lt, rfl⟩ := List.mem_map.mp mem
    obtain ⟨o, held, eq⟩ := all k (Nat.le_of_lt_succ (List.mem_range.mp lt))
    exact List.mem_map.mpr ⟨o, held, eq⟩
  have nodup : ((List.range 33).map fun k => m.tagCounter + 1 + BitVec.ofNat 8 k).Nodup := by
    refine List.Nodup.map_on (fun a ha b hb eq => ?_) List.nodup_range
    have eq := congrArg BitVec.toNat (add_left_cancel eq)
    simp only [BitVec.toNat_ofNat, List.mem_range] at eq ha hb
    omega
  have le := (nodup.subperm sub).length_le
  simp only [List.length_map, List.length_range] at le
  omega

/-- R136: the tag a manager with room on its list gives. -/
theorem nextTag_given (room : m.orders.length ≤ 32) : GivenTag m m.nextTag := by
  classical
  have free := exists_free_tag (m := m) room
  have first (k : Nat) (lt : k < Nat.find free) := Nat.find_min free lt
  obtain ⟨le, unheld⟩ := Nat.find_spec free
  generalize Nat.find free = n at first le unheld
  have held (k : Nat) (lt : k < n) : ∃ o ∈ m.orders, o.tag = m.tagCounter + 1 + BitVec.ofNat 8 k := by
    have no := first k lt
    push Not at no
    exact no (by omega)
  have found : (List.range 256).find? ((fun t => !(m.orders.any fun o => o.tag == t)) ∘
      fun k => m.tagCounter + 1 + BitVec.ofNat 8 k) = some n := by
    refine List.find?_range_eq_some.mpr ⟨?_, List.mem_range.mpr (by omega), fun k lt => ?_⟩
    · rw [Function.comp_apply, Bool.not_eq_true', Bool.eq_false_iff, Ne, heldTag_iff]
      exact unheld
    · rw [Function.comp_apply, Bool.not_not, heldTag_iff]
      exact held k lt
  have tag : m.nextTag = m.tagCounter + 1 + BitVec.ofNat 8 n := by
    rw [GroupMgr.nextTag, List.find?_map, found]
    rfl
  rw [tag]
  exact ⟨n, le, rfl, unheld, held⟩

/-- R145: an order proposes the landing `l` for a car. -/
def Order.proposes (o : Order) (car : Car) (l : Landing) : Prop :=
  o.state = .sent ∧ ∃ x time, o.kind = .enable car x time ∧ x.getLsbD l.val = true

/-- R145: the landings proposed for a car by the orders of a manager. -/
theorem proposedFor_bit {os : List Order} (orders : m.orders = os) (car : Car) (l : Landing) :
    (m.proposedFor car).getLsbD l.val = true ↔ ∃ o ∈ os, o.proposes car l := by
  induction os using List.reverseRecOn generalizing m with
  | nil => simp [GroupMgr.proposedFor, orders]
  | append_singleton os o ih =>
    have before := ih (m := { m with orders := os }) rfl
    unfold GroupMgr.proposedFor at before ⊢
    rw [orders, List.foldl_append, List.foldl_cons, List.foldl_nil]
    dsimp only at before
    generalize os.foldl _ _ = u at before ⊢
    have last : (∃ x ∈ os ++ [o], x.proposes car l) ↔ (∃ x ∈ os, x.proposes car l) ∨ o.proposes car l := by
      simp [or_and_right, exists_or]
    rw [last, ← before]
    unfold Order.proposes
    split
    · rename_i c set hold kind state
      rw [kind, state]
      by_cases own : c = car
      · simp [own]
      · simp [own]
    · rename_i other
      refine (or_iff_left ?_).symm
      rintro ⟨sent, x, time, kind, -⟩
      exact other _ _ _ kind sent

end

/-! ### The ruling of an order -/

section
variable {s : State} {r : Request} {res : Option LookupResult} {g : Group} {k : OrderKind} {held : Option Badge}

/-- R124: an order is ruled for a list with room alone. -/
theorem orderOr_room {g' : Group} {k' : OrderKind} {held' : Option Badge} {d : Option Landing}
    (h : s.orderOr g' k' held' d = .order g k held) : (s.group g).orders.length < 32 := by
  unfold State.orderOr at h
  split at h
  · cases h
  · cases h
    omega

theorem judgeTransfer_room {origin : Landing} {e : TransferEntry}
    (h : (s.judgeTransfer r origin e res).ruling = .order g k held) : (s.group g).orders.length < 32 := by
  unfold State.judgeTransfer at h
  dsimp only at h
  split at h
  · cases h
  · cases h
  · cases h
  · split at h
    · cases h
    · cases h
    · cases h
    · cases h
    · exact orderOr_room h

theorem judgeLobby_room {asked : Option Landing} {origin : Landing}
    (h : (s.judgeLobby r asked origin res).ruling = .order g k held) : (s.group g).orders.length < 32 := by
  unfold State.judgeLobby at h
  dsimp only at h
  split at h
  · cases h
  · split at h
    · cases h
    · split at h
      · cases h
      · cases h
      · cases h
      · cases h
      · split at h
        · cases h
        · exact orderOr_room h

theorem judgeCar_room {g' : Group} {car : Car} {origin : Option Landing}
    (h : (s.judgeCar r g' car origin res).ruling = .order g k held) : (s.group g).orders.length < 32 := by
  unfold State.judgeCar at h
  dsimp only at h
  split at h
  · cases h
  · split at h
    · cases h
    · split at h
      · cases h
      · exact orderOr_room h

theorem judge_room (h : (s.judge r res).ruling = .order g k held) : (s.group g).orders.length < 32 := by
  unfold State.judge at h
  split at h
  · exact judgeCar_room h
  · split at h
    · split at h
      · exact judgeTransfer_room h
      · exact judgeLobby_room h
    · exact judgeLobby_room h

theorem judgedFor_room (h : (s.judgedFor r res).ruling = .order g k held) : (s.group g).orders.length < 32 := by
  obtain ⟨tt, expired⟩ := meetExpired_touches s r
  rw [State.judgedFor, expired] at h
  exact judge_room (s := { s with transfer := tt }) h

end

/-! ### The order placed -/

section
variable {s u : State}

/-- R136: what placing an order leaves at its group and at the channels. -/
theorem AtRuling.placeOrder (at_ : AtRuling s u) (g : Group) (k : OrderKind) (c : Chan) (badge held : Option Badge) :
    (u.placeOrder g k c badge held).readers = s.readers
    ∧ (u.placeOrder g k c badge held).group g = { s.group g with
        tagCounter := (s.group g).nextTag
        orders := (s.group g).orders ++
          [{ tag := (s.group g).nextTag, kind := (s.group g).fixKind k, channel := c, badge := badge
             reservation := held, state := .sent, sentAt := s.time.seconds * 1000 + s.time.ms }]
        tx := (s.group g).tx ++ [((s.group g).fixKind k).message (s.group g).nextTag] } := by
  have group : u.group g = s.group g := by rw [State.group, at_.groups]; rfl
  refine ⟨at_.readers, ?_⟩
  rw [State.placeOrder, State.sendGroup, group_mapGroup, group_mapGroup, group, State.now, at_.time]

end

end Sys2Proof.Machine
end

section
/-! PROOF. The Admission Engine goes on (R112, R114; log 55): the requests of the queue in the order it takes them. -/

namespace Sys2Proof.Machine

/-! ### The taking order -/

/-- The requests of a queue that stay when the request of a channel is taken. -/
def without (c : Chan) (q : List Request) : List Request := q.filter fun x => x.channel != c

theorem takingOrder_perm (q : List Request) : (takingOrder q).Perm q := by
  rw [takingOrder]
  exact List.filter_append_perm Request.isCar q

theorem takingOrder_filter (p : Request → Bool) (q : List Request) :
    takingOrder (q.filter p) = (takingOrder q).filter p := by
  simp only [takingOrder, List.filter_append, List.filter_filter, Bool.and_comm]

section
variable {q rest : List Request} {r : Request}

theorem eq_nil_of_takingOrder (h : takingOrder q = []) : q = [] := (h ▸ takingOrder_perm q).symm.eq_nil

theorem without_channels (single : (q.map Request.channel).Nodup) (c : Chan) :
    ((without c q).map Request.channel).Nodup :=
  single.sublist (List.Sublist.map _ List.filter_sublist)

variable (order : takingOrder q = r :: rest)
include order

theorem taken_mem : r ∈ q := (takingOrder_perm q).mem_iff.mp (order ▸ List.mem_cons_self)

theorem without_length : (without r.channel q).length < q.length := by
  refine List.length_filter_lt_length_iff_exists.mpr ⟨r, taken_mem order, ?_⟩
  simp

variable (single : (q.map Request.channel).Nodup)
include single

/-- The queue holds one request of a channel. -/
theorem channel_ne_of_left : ∀ x ∈ rest, x.channel ≠ r.channel := by
  have nodup := ((takingOrder_perm q).map Request.channel).nodup_iff.mpr single
  rw [order, List.map_cons, List.nodup_cons] at nodup
  exact fun x mem eq => nodup.1 (eq ▸ List.mem_map_of_mem mem)

/-- R112: once a request is taken, those behind it are the requests to take. -/
theorem takingOrder_without : takingOrder (without r.channel q) = rest := by
  rw [without, takingOrder_filter, order, List.filter_cons_of_neg (by simp)]
  exact List.filter_eq_self.mpr fun x mem => by simpa using channel_ne_of_left order single x mem

/-- Which requests of a queue are left does not depend on one that has been taken. -/
theorem filter_left {left : List Request} (behind : ∀ x ∈ left, x ∈ rest) :
    ((without r.channel q).filter fun x => left.contains x) = q.filter fun x => left.contains x := by
  rw [without, List.filter_filter]
  refine List.filter_congr fun x _ => ?_
  by_cases mem : x ∈ left
  · simpa [mem] using channel_ne_of_left order single x (behind x mem)
  · simp [mem]

theorem without_eq_filter_left : without r.channel q = q.filter fun x => rest.contains x := by
  rw [← filter_left order single fun _ => id]
  refine (List.filter_eq_self.mpr fun x mem => ?_).symm
  have mem' := (takingOrder_perm _).mem_iff.mpr mem
  rw [takingOrder_without order single] at mem'
  simpa using mem'

end

/-! ### The steps of an IDLE engine -/

/-- R114: a request that the engine of `s` decides without a READ. -/
def State.needsNoRead (s : State) (r : Request) : Prop := r.badge = none ∨ s.dir.condition = .unusable

section
variable {s t : State} {r : Request} {rest : List Request} {n : Nat}

theorem decidedAtOnce_of_empty (order : takingOrder s.queue = []) : s.decidedAtOnce = [] := by
  rw [State.decidedAtOnce, order]
  split <;> rfl

theorem decidedAtOnce_of_read {b : Badge} (order : takingOrder s.queue = r :: rest) (badge : r.badge = some b)
    (usable : s.dir.condition = .usable) : s.decidedAtOnce = [] := by
  rw [State.decidedAtOnce, if_pos usable, order, List.takeWhile_cons_of_neg (by simp [badge])]

theorem decidedAtOnce_of_needsNoRead (order : takingOrder s.queue = r :: rest) (now : s.needsNoRead r)
    (order' : takingOrder t.queue = rest) (dir : t.dir = s.dir) : s.decidedAtOnce = r :: t.decidedAtOnce := by
  rw [State.decidedAtOnce, State.decidedAtOnce, dir, order, order']
  split
  · rename_i usable
    have none_ : r.badge = none := now.resolve_right fun unusable => by simp [usable] at unusable
    rw [List.takeWhile_cons_of_pos (by simp [none_])]
  · rfl

theorem decidedAtOnce_ne_nil (order : takingOrder s.queue = r :: rest) (now : s.needsNoRead r) :
    s.decidedAtOnce ≠ [] := by
  rw [State.decidedAtOnce, order]
  split
  · rename_i usable
    have none_ : r.badge = none := now.resolve_right fun unusable => by simp [usable] at unusable
    rw [List.takeWhile_cons_of_pos (by simp [none_])]
    exact List.cons_ne_nil _ _
  · exact List.cons_ne_nil _ _

variable (idle : s.engine = .idle)
include idle

theorem engineTake_of_empty (order : takingOrder s.queue = []) : s.engineTake (n + 1) = s := by
  simp only [State.engineTake, idle, pick_eq_head, order, List.head?_nil]

theorem engineTake_of_read {b : Badge} (order : takingOrder s.queue = r :: rest) (badge : r.badge = some b)
    (usable : s.dir.condition = .usable) : s.engineTake (n + 1)
      = { s with queue := without r.channel s.queue, engine := .evaluating r none }.placePrio (.engineRead b) := by
  simp only [State.engineTake, idle, pick_eq_head, order, List.head?_cons, badge, usable, reduceCtorEq, if_false]
  rfl

theorem engineTake_of_needsNoRead (order : takingOrder s.queue = r :: rest) (now : s.needsNoRead r) :
    ∃ res, s.engineTake (n + 1)
      = ({ s with queue := without r.channel s.queue }.takeDecision r res).engineTake n := by
  simp only [State.engineTake, idle, pick_eq_head, order, List.head?_cons]
  cases badge : r.badge with
  | none => exact ⟨none, rfl⟩
  | some b => exact ⟨some .storeFault, if_pos (now.resolve_left (by simp [badge]))⟩

end

/-- R114: the head of the taking order is decided without a READ, or its READ is placed. -/
theorem needsNoRead_or_reads (s : State) (r : Request) :
    s.needsNoRead r ∨ ∃ b, r.badge = some b ∧ s.dir.condition = .usable := by
  unfold State.needsNoRead
  cases r.badge with
  | none => exact .inl (.inl rfl)
  | some b =>
    cases s.dir.condition with
    | usable => exact .inr ⟨b, rfl, rfl⟩
    | unusable => exact .inl (.inr rfl)

/-- R112, R114: an IDLE engine with nothing to decide at once takes one request or rests. -/
theorem engineNext_of_alone {s : State} (idle : s.engine = .idle) (alone : s.decidedAtOnce = []) :
    s.engineNext.readers = s.readers ∧ s.engineNext.groups = s.groups := by
  rw [State.engineNext]
  cases order : takingOrder s.queue with
  | nil =>
    rw [engineTake_of_empty idle order]
    exact ⟨rfl, rfl⟩
  | cons r rest =>
    rcases needsNoRead_or_reads s r with now | ⟨b, badge, usable⟩
    · exact absurd alone (decidedAtOnce_ne_nil order now)
    · rw [engineTake_of_read idle order badge usable]
      exact ⟨rfl, rfl⟩

/-! ### All the requests an IDLE engine takes -/

/-- R112, R114: an engine that finds the queue and the directory as `s` has them has become IDLE with the priority
queue `prio`, and has gone on to `t`: what `EngineGoesOn` says, before the notices of the event are taken. -/
structure TakesOn (s : State) (prio : List PrioEntry) (t : State) : Prop where
  decided : ∀ r ∈ s.decidedAtOnce, ∃ d, Noticed t (.decision d) ∧ d.channel = r.channel ∧ d.badge = r.badge
    ∧ d.wait = s.cal.uptime - r.arrival
  rests : takingOrder s.queue = s.decidedAtOnce → t.engine = .idle ∧ t.queue = [] ∧ t.store.prio = prio
  takes : ∀ next left who, takingOrder s.queue = s.decidedAtOnce ++ next :: left → next.badge = some who →
    t.engine = .evaluating next none ∧ t.store.prio = prio ++ [.engineRead who]
    ∧ t.queue = s.queue.filter fun r => left.contains r

section
variable {s t : State} {prio : List PrioEntry}

/-- The decision of one request among those taken. -/
theorem takeDecision_noticed (s : State) (r : Request) (res : Option LookupResult) :
    ∃ d, Noticed (s.takeDecision r res) (.decision d) ∧ d.channel = r.channel ∧ d.badge = r.badge
      ∧ d.wait = s.cal.uptime - r.arrival := by
  obtain ⟨u, decided, -, told, -⟩ := takeDecision_eq s r res
  rw [decided]
  exact ⟨_, told.after (carryOut_after u r _ _), rfl, rfl, rfl⟩

/-- A request decided at once, and then those behind it. -/
theorem TakesOn.cons {u : State} {r : Request} {rest : List Request} {res : Option LookupResult}
    (order : takingOrder s.queue = r :: rest) (single : (s.queue.map Request.channel).Nodup) (now : s.needsNoRead r)
    (eq : u = { s with queue := without r.channel s.queue }.takeDecision r res) (on : TakesOn u prio t)
    (after : After u t) : TakesOn s prio t := by
  have noticed := takeDecision_noticed { s with queue := without r.channel s.queue } r res
  obtain ⟨gs, rs, ns, tt, touched⟩ := takeDecision_touches { s with queue := without r.channel s.queue } r res
  rw [← eq] at noticed touched
  have queue : u.queue = without r.channel s.queue := by rw [touched]
  have cal : u.cal = s.cal := by rw [touched]
  have order' : takingOrder u.queue = rest := by rw [queue, takingOrder_without order single]
  have atOnce := decidedAtOnce_of_needsNoRead (t := u) order now order' (by rw [touched])
  obtain ⟨decided, rests, takes⟩ := on
  rw [cal] at decided
  rw [order'] at rests takes
  refine ⟨?_, ?_, ?_⟩
  · rw [atOnce]
    refine List.forall_mem_cons.mpr ⟨?_, decided⟩
    obtain ⟨d, told, same⟩ := noticed
    exact ⟨d, told.after after, same⟩
  · rw [order, atOnce]
    exact fun all => rests (List.cons.inj all).2
  · intro next left who split badge
    rw [order, atOnce] at split
    have behind := (List.cons.inj split).2
    obtain ⟨engine, prio', left'⟩ := takes next left who behind badge
    refine ⟨engine, prio', ?_⟩
    rw [left', queue]
    exact filter_left order single fun x mem => by rw [behind]; simp [mem]

/-- R112, R114: what an IDLE engine takes. -/
theorem engineTake_takesOn (n : Nat) (idle : s.engine = .idle) (single : (s.queue.map Request.channel).Nodup)
    (enough : s.queue.length < n) : TakesOn s s.store.prio (s.engineTake n) := by
  induction n generalizing s with
  | zero => exact absurd enough (Nat.not_lt_zero _)
  | succ n ih =>
    cases order : takingOrder s.queue with
    | nil =>
      have none_ := decidedAtOnce_of_empty order
      rw [engineTake_of_empty idle order]
      refine ⟨?_, fun _ => ⟨idle, eq_nil_of_takingOrder order, rfl⟩, ?_⟩
      · rw [none_]
        exact fun r mem => absurd mem List.not_mem_nil
      · rw [order, none_]
        exact fun next left who split => absurd split.symm (List.cons_ne_nil _ _)
    | cons r rest =>
      rcases needsNoRead_or_reads s r with now | ⟨b, badge, usable⟩
      · obtain ⟨res, taken⟩ := engineTake_of_needsNoRead (n := n) idle order now
        obtain ⟨gs, rs, ns, tt, touched⟩ := takeDecision_touches { s with queue := without r.channel s.queue } r res
        rw [taken]
        generalize eq : { s with queue := without r.channel s.queue }.takeDecision r res = u at touched
        have queue : u.queue = without r.channel s.queue := by rw [touched]
        have store : u.store = s.store := by rw [touched]
        have fewer := without_length order
        have on := ih (s := u) (by rw [touched]) (by rw [queue]; exact without_channels single _)
          (by rw [queue]; omega)
        rw [store] at on
        exact on.cons order single now eq.symm (engineTake_sameEngine n u).after
      · have none_ := decidedAtOnce_of_read order badge usable
        rw [engineTake_of_read idle order badge usable]
        refine ⟨?_, ?_, ?_⟩
        · rw [none_]
          exact fun r mem => absurd mem List.not_mem_nil
        · rw [order, none_]
          exact fun all => absurd all (List.cons_ne_nil _ _)
        · rw [order, none_]
          intro next left who split badge'
          obtain ⟨rfl, rfl⟩ := List.cons.inj split
          obtain rfl := Option.some.inj (badge.symm.trans badge')
          exact ⟨rfl, placePrio_prio _ _, without_eq_filter_left order single⟩

/-- What the engine takes depends on the queue, the directory and the calendar. -/
theorem TakesOn.since {u : State} (on : TakesOn u prio t) (queue : u.queue = s.queue) (dir : u.dir = s.dir)
    (cal : u.cal = s.cal) : TakesOn s prio t := by
  have atOnce : u.decidedAtOnce = s.decidedAtOnce := by simp only [State.decidedAtOnce, queue, dir]
  obtain ⟨decided, rests, takes⟩ := on
  rw [atOnce, queue] at rests takes
  rw [atOnce, cal] at decided
  exact ⟨decided, rests, takes⟩

theorem TakesOn.arbitrate (on : TakesOn s prio t) : TakesOn s prio t.arbitrate := by
  obtain ⟨decided, rests, takes⟩ := on
  obtain ⟨op, ps, sts, eq, arbitrated⟩ := arbitrate_touches t
  refine ⟨fun r mem => ?_, ?_, ?_⟩
  · obtain ⟨d, told, same⟩ := decided r mem
    exact ⟨d, told.after (arbitrate_after t), same⟩
  · rw [arbitrated]
    exact rests
  · rw [arbitrated]
    exact takes

theorem TakesOn.goesOn (on : (s.queue.map Request.channel).Nodup → TakesOn s prio t) : EngineGoesOn s t.settle prio :=
  fun single =>
    have ⟨decided, rests, takes⟩ := on single
    ⟨fun r mem => have ⟨d, told, same⟩ := decided r mem; ⟨d, told.settle, same⟩, rests, takes⟩

end

end Sys2Proof.Machine
end

section
/-! PROOF. A lookup's result at the engine: its decision, and what the engine goes on to (R112, R114, R115; log 26,
log 55). -/

namespace Sys2Proof.Machine

/-- The card `now` in which a result reaches the engine differs from `s`, which the event found, in nothing that
the engine reads or reports. -/
structure Judging (s now : State) : Prop where
  readers : now.readers = s.readers
  groups : now.groups = s.groups
  cal : now.cal = s.cal
  time : now.time = s.time
  banks : now.banks = s.banks
  queue : now.queue = s.queue
  dir : now.dir = s.dir

section
variable {s now : State} {r : Request}

theorem Judging.refl (s : State) : Judging s s := ⟨rfl, rfl, rfl, rfl, rfl, rfl, rfl⟩

theorem lookup_judging (s : State) (b : Badge) (rest : List PrioEntry) :
    Judging s ((s.servedTo rest).lookup b).1 := by
  obtain ⟨f, ns, touched⟩ := lookup_touches (s.servedTo rest) b
  rw [touched]
  exact ⟨rfl, rfl, rfl, rfl, rfl, rfl, rfl⟩

theorem lookup_engine (s : State) (b : Badge) (rest : List PrioEntry) :
    ((s.servedTo rest).lookup b).1.engine = s.engine ∧ ((s.servedTo rest).lookup b).1.store.prio = rest := by
  obtain ⟨f, ns, touched⟩ := lookup_touches (s.servedTo rest) b
  rw [touched]
  exact ⟨rfl, rfl⟩

variable (h : Judging s now)
include h

theorem Judging.decisionNotice (j : Judgement) : now.decisionNotice r j = s.decisionNotice r j := by
  simp only [State.decisionNotice, State.orderRef, State.group, h.groups, h.banks, h.cal]

theorem Judging.presentation (j : Judgement) : now.presentation r j = s.presentation r j := by
  simp only [State.presentation, State.date, h.cal]

theorem Judging.decidedAtOnce : now.decidedAtOnce = s.decidedAtOnce := by
  simp only [State.decidedAtOnce, h.queue, h.dir]

theorem Judging.atRuling {u : State} (at_ : AtRuling now u) : AtRuling s u :=
  ⟨at_.readers.trans h.readers, at_.groups.trans h.groups, at_.cal.trans h.cal, at_.time.trans h.time⟩

end

/-! ### The decision of the result -/

/-- R115: the event that found `s` has decided the request `r` in `now` with the result `res`, and goes on in `v`:
the notices raised, the room for an order, and, where nothing else is decided at once, the ruling carried out. -/
structure Decides (s now : State) (r : Request) (res : LookupResult) (v : State) : Prop where
  told : Noticed v (.decision (s.decisionNotice r (now.judgedFor r (some res))))
  security : (now.judgedFor r (some res)).standing = .suspended ∨ (now.judgedFor r (some res)).standing = .lost →
    Noticed v (.presentation (s.presentation r (now.judgedFor r (some res))))
  room : ∀ g k held, (now.judgedFor r (some res)).ruling = .order g k held → (s.group g).orders.length < 32
  carried : s.decidedAtOnce = [] → ∃ u, AtRuling s u
    ∧ v.readers = (u.carryOut r (now.judgedFor r (some res)).ruling).readers
    ∧ v.groups = (u.carryOut r (now.judgedFor r (some res)).ruling).groups

section
variable {s now v : State} {r : Request} {res : LookupResult} {waiting : Option LookupResult}

theorem Decides.arbitrate (h : Decides s now r res v) : Decides s now r res v.arbitrate := by
  obtain ⟨st, arbitrated⟩ := arbitrate_eq v
  have after := arbitrate_after v
  refine ⟨h.told.after after, fun bad => (h.security bad).after after, h.room, ?_⟩
  rw [arbitrated]
  exact h.carried

section
variable (evaluating : now.engine = .evaluating r waiting)
include evaluating

theorem engineResult_of_evaluating : now.engineResult res = (now.takeDecision r (some res)).engineNext := by
  simp only [State.engineResult, evaluating]

/-- R112: a result at the engine leaves it as one that has become IDLE. -/
theorem engineResult_takesOn (h : Judging s now) (single : (s.queue.map Request.channel).Nodup) :
    TakesOn s now.store.prio (now.engineResult res) := by
  obtain ⟨gs, rs, ns, tt, touched⟩ := takeDecision_touches now r (some res)
  rw [engineResult_of_evaluating evaluating, State.engineNext]
  generalize now.takeDecision r (some res) = w at touched
  have queue : w.queue = s.queue := by rw [touched, ← h.queue]
  have store : w.store = now.store := by rw [touched]
  have on := engineTake_takesOn (s := w) (w.queue.length + 1) (by rw [touched]) (by rw [queue]; exact single)
    (Nat.lt_succ_self _)
  rw [store] at on
  exact on.since queue (by rw [touched, ← h.dir]) (by rw [touched, ← h.cal])

theorem engineResult_decides (h : Judging s now) : Decides s now r res (now.engineResult res) := by
  obtain ⟨gs, rs, ns, tt, touched⟩ := takeDecision_touches now r (some res)
  obtain ⟨u, decided, at_, told, security⟩ := takeDecision_eq now r (some res)
  have after := (carryOut_after u r (now.judgedFor r (some res)).ruling .idle).trans
    (engineNext_sameEngine { u.carryOut r (now.judgedFor r (some res)).ruling with engine := .idle }).after
  rw [h.decisionNotice] at told
  rw [h.presentation] at security
  rw [engineResult_of_evaluating evaluating]
  refine ⟨?_, fun bad => ?_, fun g k held ruling => ?_, fun none_ => ⟨u, h.atRuling at_, ?_⟩⟩
  · rw [decided]
    exact told.after after
  · rw [decided]
    exact (security bad).after after
  · have room := judgedFor_room ruling
    rw [State.group, h.groups] at room
    exact room
  · have alone : (now.takeDecision r (some res)).decidedAtOnce = [] := by
      rw [← h.decidedAtOnce] at none_
      rw [touched]
      exact none_
    obtain ⟨readers, groups⟩ := engineNext_of_alone (by rw [touched]) alone
    rw [readers, groups, decided]
    exact ⟨rfl, rfl⟩

end

/-! ### What the decision of a result leaves -/

/-- R97, R106: an answer. -/
theorem Decides.answered (h : Decides s now r res v) {code : AnswerCode} {d : Option Landing}
    (ruling : (now.judgedFor r (some res)).ruling = .answer code d) (alone : s.decidedAtOnce = []) :
    v.groups = s.groups
    ∧ ((s.reader r.channel).mark = .owned → v.reader r.channel = { s.reader r.channel with
        mark := .none, state := .showing
        displayDeadline := some (s.cal.uptime + (s.reader r.channel).cfg.hold)
        tx := (s.reader r.channel).tx ++ [.show_ code none d none, .tone code.tone] })
    ∧ ((s.reader r.channel).mark = .discard → v.reader r.channel = answerDropped (s.reader r.channel)) := by
  obtain ⟨u, at_, readers, groups⟩ := h.carried alone
  rw [ruling] at readers groups
  have reader : v.reader r.channel = (u.carryOut r (.answer code d)).reader r.channel := by
    rw [State.reader, readers]
    rfl
  rw [reader, groups]
  exact at_.deliver r.channel code d

/-- R136: an order. -/
theorem Decides.ordered (h : Decides s now r res v) {g : Group} {k : OrderKind} {held : Option Badge}
    (ruling : (now.judgedFor r (some res)).ruling = .order g k held) (alone : s.decidedAtOnce = []) :
    v.readers = s.readers ∧ v.group g = { s.group g with
        tagCounter := (s.group g).nextTag
        orders := (s.group g).orders ++
          [{ tag := (s.group g).nextTag, kind := (s.group g).fixKind k, channel := r.channel, badge := r.badge
             reservation := held, state := .sent, sentAt := s.time.seconds * 1000 + s.time.ms }]
        tx := (s.group g).tx ++ [((s.group g).fixKind k).message (s.group g).nextTag] } := by
  obtain ⟨u, at_, readers, groups⟩ := h.carried alone
  rw [ruling] at readers groups
  rw [State.group, readers, groups]
  exact at_.placeOrder g k r.channel r.badge held

/-- R145: the set that an ENABLE order for a car proposes: the confirmed set and those proposed, with the addition. -/
theorem fixKind_enable_bit (m : GroupMgr) (car : Car) (add : LandingSet) (l : Landing) :
    (m.enables[car].confirmed ||| m.proposedFor car ||| add).getLsbD l.val = true ↔
      m.enables[car].confirmed.getLsbD l.val = true ∨ add.getLsbD l.val = true
      ∨ ∃ o ∈ m.orders, o.proposes car l := by
  rw [BitVec.getLsbD_or, BitVec.getLsbD_or, Bool.or_eq_true, Bool.or_eq_true, proposedFor_bit rfl, or_assoc,
    or_comm (a := ∃ o ∈ m.orders, o.proposes car l)]

end

/-! ### The engine's READ served -/

section
variable {s : State} {b : Badge} {rest : List PrioEntry} {r : Request}

/-- Log 26: the result waits. -/
theorem execLookup_waits (serves : Serves s (.engineRead b) rest) (evaluating : s.engine = .evaluating r none) :
    exec (.lookup false) s = .next ({ ((s.servedTo rest).lookup b).1 with
      engine := .evaluating r (some ((s.servedTo rest).lookup b).2) }.arbitrate.settle) := by
  have engine := (lookup_engine s b rest).1.trans evaluating
  rw [execLookup_of_serves serves.running fun _ _ _ => rfl, serveLookup_of_engineRead serves]
  simp only [State.engineRead, engine, Bool.false_eq_true, if_false]

/-- Log 26: the result is handed over in the event that serves the READ. -/
theorem execLookup_handsOver (serves : Serves s (.engineRead b) rest) (evaluating : s.engine = .evaluating r none) :
    exec (.lookup true) s
      = .next (((s.servedTo rest).lookup b).1.engineResult ((s.servedTo rest).lookup b).2).arbitrate.settle := by
  have fresh (r' : Request) (res : LookupResult) (e : s.engine = .evaluating r' (some res)) : true = false := by
    rw [evaluating] at e
    cases e
  rw [execLookup_of_serves serves.running fresh, serveLookup_of_engineRead serves]
  rfl

theorem execLookup_handsOver_waiting (runs : Runs s) {res : LookupResult} (evaluating : s.engine = .evaluating r (some res)) :
    exec (.lookup true) s = .next (s.engineResult res).settle := by
  obtain ⟨running, -⟩ := runs
  rw [exec_lookup, execLookup, whileRunning_of_running _ _ running]
  simp only [evaluating]

end

end Sys2Proof.Machine

namespace Sys2Proof

open Machine

/-- Settles O43: the lookup, its result at the engine, and its result at the port. -/
theorem lookupsReachTheirBlock : Obligations.LookupsReachTheirBlock := by
  unfold Obligations.LookupsReachTheirBlock
  intro s rest b served alone failsRaised decides
  have decided {now v : State} {r : Request} {res : LookupResult} (h : Decides s now r res v) :
      decides now r res v.settle := by
    refine ⟨fun bad => (h.security bad).settle, fun code d ruling => ⟨?_, ?_, ?_, ?_⟩, fun g k held ruling => ?_⟩
    · have told := h.told.settle
      rw [State.decisionNotice, ruling] at told
      exact told
    · exact fun none_ => (h.answered ruling none_).1
    · exact fun none_ => (h.answered ruling none_).2.1
    · exact fun none_ => (h.answered ruling none_).2.2
    · refine ⟨(s.group g).nextTag, (s.group g).fixKind k, ((s.group g).fixKind k).message (s.group g).nextTag,
        Ruling.route (.order g k held), nextTag_given (Nat.le_of_lt (h.room g k held ruling)), ?_, ?_, ?_, ?_⟩
      · rintro legs final a p link path rfl
        exact ⟨rfl, rfl, rfl⟩
      · rintro car add hold rfl
        exact ⟨rfl, _, rfl, rfl, fixKind_enable_bit (s.group g) car add⟩
      · have told := h.told.settle
        rw [State.decisionNotice, ruling] at told
        exact told
      · intro none_
        obtain ⟨readers, group⟩ := h.ordered ruling none_
        refine ⟨readers, ?_⟩
        have group' : v.settle.group g = v.group g := rfl
        rw [group', group]
        exact ⟨rfl, rfl, rfl⟩
  refine ⟨fun e => entryFor_holds, not_holds_of_entryFor, fun e rs => readPage_iff, lookup_of_unusable,
    fun e usable entry => ⟨lookup_of_unread usable entry, fun rs read => ⟨lookup_of_absent usable entry read,
      fun x found => ⟨_, lookup_of_found usable entry read found, reportedMarks_eq _ _⟩⟩⟩,
    fun r serves evaluating => ?_, fun r serves evaluating => ?_, fun r res runs evaluating => ?_,
    fun handOver f serves free => ⟨fun waits => ?_, fun e waits => ?_⟩⟩
  · have judging := lookup_judging s b rest
    obtain ⟨op, ps, sts, eq, arbitrated⟩ := arbitrate_touches { ((s.servedTo rest).lookup b).1 with
      engine := .evaluating r (some ((s.servedTo rest).lookup b).2) }
    refine ⟨_, execLookup_waits serves evaluating, ?_, lookup_raised (rest := rest) (.of_parts rfl rfl rfl), ?_⟩
    all_goals rw [arbitrated]
    · exact (lookup_engine s b rest).2
    · exact ⟨rfl, judging.queue, judging.groups, judging.readers⟩
  · have judging := lookup_judging s b rest
    obtain ⟨engine, prio⟩ := lookup_engine s b rest
    have now := engine.trans evaluating
    have on := engineResult_takesOn (res := ((s.servedTo rest).lookup b).2) now judging
    rw [prio] at on
    exact ⟨_, execLookup_handsOver serves evaluating, TakesOn.goesOn fun single => (on single).arbitrate,
      lookup_raised (rest := rest) (engineResult_sameEngine _ _).after, decided (engineResult_decides now judging).arbitrate⟩
  · exact ⟨_, execLookup_handsOver_waiting runs evaluating,
      TakesOn.goesOn (engineResult_takesOn evaluating (.refl s)), decided (engineResult_decides evaluating (.refl s))⟩
  · obtain ⟨t, event, served, site, -⟩ := execLookup_of_portRead serves free (handOver := handOver)
    have answers := (lookup_atPort s b rest).recordRead waits (res := ((s.servedTo rest).lookup b).2)
    rw [← site] at answers
    exact ⟨t, event, served.prio, served.raised, answers⟩
  · obtain ⟨t, event, served, site, batch⟩ := execLookup_of_portRead serves free (handOver := handOver)
    have at_ := lookup_atPort s b rest
    obtain ⟨closed, fails, guarded⟩ := at_.stage_refused waits (res := ((s.servedTo rest).lookup b).2)
    obtain ⟨new, old⟩ := at_.stageEdit (f := f) e
    rw [← site, ← batch] at closed fails guarded
    refine ⟨t, event, served.prio, served.raised, closed, fails, guarded, fun opened passes => ?_, fun opened passes => ?_⟩
    all_goals
      have result := at_.stage_passes waits opened passes
      rw [result] at site batch
      rw [← site, ← batch] at new old
    · exact new
    · exact old

end Sys2Proof
end

section
/-! PROOF. The card that loses its power or is held by the reset input (R28, R169): what the operations cut short
leave, and that a card that does not run takes no frame. -/

namespace Sys2Proof.Machine

/-! ### Operations cut short (R48, R64, R65) -/

/-- R46, R48: the pages that a mark request would mark follow from the directory and the store alone. -/
theorem markTargets_congr {s t : State} (dir : t.dir = s.dir) (store : t.store = s.store) (b : Badge) :
    (t.markTargets b).2 = (s.markTargets b).2 := by
  unfold State.markTargets
  rw [dir]
  cases s.dir.condition
  case unusable => rfl
  cases s.dir.entryFor b
  case none => rfl
  case some e =>
  cases page : s.store.readPage e
  case none => simp [readFor_of_none s e page, readFor_of_none t e (by rw [store]; exact page)]
  case some rs =>
  have read := readFor_of_some s e rs page
  have read' := readFor_of_some t e rs (by rw [store]; exact page)
  simp only [read, read', store, reduceCtorEq, if_false]
  cases recordOf b rs
  case none => rfl
  case some r =>
  cases budget : r.budget
  case none => simp only [budget]
  case some n => by_cases left : r.marks < n <;> simp only [budget, left, if_true, if_false]

/-- What an abandoned operation leaves follows from the directory, the store and the draw counter alone. -/
theorem cut_store_congr {s t : State} (dir : t.dir = s.dir) (store : t.store = s.store) (free : t.free = s.free) :
    t.cut.store = s.cut.store := by
  have mark : t.cutMark.store = s.cutMark.store ∧ t.cutMark.free = s.cutMark.free := by
    unfold State.cutMark
    rw [store]
    split
    · rename_i b _ _
      rw [markTargets_congr dir store b, free]
      split
      · split
        · exact ⟨by rw [mapStore_store, mapStore_store, store], free⟩
        · exact ⟨store, free⟩
      · exact ⟨store, free⟩
    · exact ⟨store, free⟩
  obtain ⟨store', free'⟩ := mark
  have op {u v : State} (store : v.store = u.store) (free : v.free = u.free) : v.cutOp.store = u.cutOp.store := by
    unfold State.cutOp
    rw [store, free]
    repeat' split
    all_goals simp only [mapStore_store, store]
  exact op store' free'

/-- R65, R92: an operation cut short leaves the commit counter as it stands. -/
@[simp] theorem cut_counter (s : State) : s.cut.store.counter = s.store.counter := by
  have marks (ps : List Page) (b : Badge) (st : Store) :
      (ps.foldl (fun st p => st.markPage b p) st).counter = st.counter := by
    induction ps generalizing st with
    | nil => rfl
    | cons p rest ih => exact (ih _).trans rfl
  have mark : s.cutMark.store.counter = s.store.counter := by
    unfold State.cutMark
    split
    · split
      · split
        · exact marks _ _ _
        · rfl
      · rfl
    · rfl
  have op (s : State) : s.cutOp.store.counter = s.store.counter := by
    unfold State.cutOp
    repeat' split
    all_goals rfl
  exact (op _).trans mark

/-- Cutting an operation short changes the store and the draw counter alone. -/
theorem cut_touches (s : State) : ∃ st, s.cut = { s with store := st, free := s.free + 1 } := by
  have mark : ∃ st, s.cutMark = { s with store := st } := by
    unfold State.cutMark
    repeat' split
    all_goals exact ⟨_, rfl⟩
  have op (u : State) : ∃ st, u.cutOp = { u with store := st } := by
    unfold State.cutOp
    repeat' split
    all_goals exact ⟨_, rfl⟩
  obtain ⟨st, marked⟩ := mark
  obtain ⟨st', ended⟩ := op { s with store := st }
  exact ⟨st', by rw [State.cut, marked, ended]⟩

/-! ### The events -/

theorem execLossOfPower_of_on {s : State} (on : s.power ≠ .off) : exec .lossOfPower s = .next
    { s.cut.volatileReset with power := .off, time := { seconds := 0, ms := 0 } } := by
  rw [exec_lossOfPower, execLossOfPower, if_neg on]

/-- R29: a running card comes to a time that no second event must precede. -/
theorem reach_of_within {s : State} {t : Nat} (within : Within s t) :
    ∃ time, s.reach t = some { s with time := time } := by
  unfold State.reach
  by_cases past : t ≤ s.now
  · exact ⟨s.time, if_pos past⟩
  · exact ⟨_, by rw [if_neg past, if_pos (Or.inl within)]⟩

/-- R169: the asserted reset input holds the card at the end of its 100 ms. -/
theorem execResetAsserted_of_high {s : State} {since : Nat} (running : s.power = .running)
    (counting : s.resetIn = { raw := .high, stable := some .low, since := some since })
    (within : Within s (since + 100)) :
    ∃ u : State, u.dir = s.dir ∧ u.store = s.store ∧ u.free = s.free ∧ u.resetIn.stable = some .high
      ∧ exec .resetAsserted s = .next { u.cut.volatileReset with power := .held } := by
  obtain ⟨time, reached⟩ := reach_of_within within
  have ends : (s.input .reset).countEnds false = some (since + 100) := by
    rw [show s.input .reset = s.resetIn from rfl, counting]
    rfl
  have high : s.resetIn.raw = .high := by rw [counting]
  refine ⟨{ s with time := time, resetIn := s.resetIn.settle }, rfl, rfl, rfl, ?_, ?_⟩
  · simp only [Debounce.settle, high]
  · rw [exec_resetAsserted, execResetAsserted, if_pos ⟨running, high⟩, State.countDone, ends, Option.bind_some,
      reached, Option.map_some]
    rfl

/-! ### A card that does not run (R28, R169) -/

/-- The command is an event of a running card alone. -/
def NeedsPower (cmd : Instr) (s : State) : Prop := ∃ f, exec cmd s = whileRunning f s

theorem NeedsPower.ignored {cmd : Instr} {s : State} (h : NeedsPower cmd s) (down : s.power ≠ .running) :
    exec cmd s = .next s := by
  obtain ⟨f, meaning⟩ := h
  rw [meaning, whileRunning_of_down f s down]

theorem NeedsPower.of_request {cmd : Instr} {s : State} {type : Byte} {r : Req} {early fits : Bool}
    {owner : SiteFrame → State → State} (meaning : exec cmd s = siteRequest type r early fits owner s) :
    NeedsPower cmd s := ⟨_, meaning⟩

theorem unknownType_needsPower (type : Byte) (r : Req) (s : State) : NeedsPower (.unknownType type r) s := by
  unfold NeedsPower
  rw [exec_unknownType, execUnknownType]
  split
  · exact ⟨_, rfl⟩
  · exact ⟨_, rfl⟩

/-- The frames of readers and groups, and the events of a receiver and of the transmitter. -/
theorem lineCommands_needPower (s : State) (r : Req) (c : Chan) (g : Group) (link : Link) (badge : BitVec 40)
    (type tag key v car l mo d sv : Byte) (bytes : List Byte) (late : Option Byte) :
    ∀ cmd ∈ [Instr.siteFrameReceive type r, .unknownType type r, .transmitComplete, .badge c badge, .key c key,
      .alive c, .unknownReaderFrame c type bytes, .groupState g v, .carState g car l mo d sv, .assign g tag car,
      .enabled g tag, .refuse g tag, .cancelled g tag, .unknownGroupFrame g type bytes, .inFrame link key,
      .byteGapTimeout link late, .frameDiscard link bytes], NeedsPower cmd s := by
  simp only [List.forall_mem_cons]
  exact ⟨⟨_, exec_siteFrameReceive type r s⟩, unknownType_needsPower type r s, ⟨_, exec_transmitComplete s⟩,
    ⟨_, exec_badge c badge s⟩, ⟨_, exec_key s⟩, ⟨_, exec_alive c s⟩, ⟨_, exec_unknownReaderFrame c type bytes s⟩,
    ⟨_, exec_groupState g v s⟩, ⟨_, exec_carState g car l mo d sv s⟩, ⟨_, exec_assign g tag car s⟩,
    ⟨_, exec_enabled g tag s⟩, ⟨_, exec_refuse g tag s⟩, ⟨_, exec_cancelled g tag s⟩,
    ⟨_, exec_unknownGroupFrame g type bytes s⟩, ⟨_, exec_inFrame link key s⟩, ⟨_, exec_byteGapTimeout link late s⟩,
    ⟨_, exec_frameDiscard link bytes s⟩, nofun⟩

theorem siteCommands_needPower (r : Req) (s : State) :
    ∀ cmd ∈ (siteCommands r).map Prod.snd, NeedsPower cmd s := by
  simp only [siteCommands, List.map_cons, List.map_nil, List.forall_mem_cons]
  exact ⟨.of_request (exec_identify r s), .of_request (exec_status r s), .of_request (exec_clockSet r s),
    .of_request (exec_clockRead r s), .of_request (exec_batchOpen r s), .of_request (exec_stagePut r s),
    .of_request (exec_stageDrop r s), .of_request (exec_batchCommit r s), .of_request (exec_batchAbandon r s),
    .of_request (exec_recordRead r s), .of_request (exec_directoryScan r s), .of_request (exec_compact r s),
    .of_request (exec_storeStatus r s), .of_request (exec_profileWrite r s), .of_request (exec_profileRead r s),
    .of_request (exec_switchArm r s), .of_request (exec_switchDisarm r s), .of_request (exec_holidayWrite r s),
    .of_request (exec_holidayRead r s), .of_request (exec_zoneWrite r s), .of_request (exec_zoneRead r s),
    .of_request (exec_channelSet r s), .of_request (exec_channelRead r s), .of_request (exec_groupSet r s),
    .of_request (exec_groupRead r s), .of_request (exec_groupResume r s), .of_request (exec_transferRead r s),
    .of_request (exec_transferPurge r s), .of_request (exec_noticeSet r s), .of_request (exec_faultRead r s),
    .of_request (exec_faultClear r s), .of_request (exec_faultSet r s), .of_request (exec_restartArm r s),
    .of_request (exec_restart r s), .of_request (exec_timingSet r s), .of_request (exec_timingRead r s), nofun⟩

end Sys2Proof.Machine

namespace Sys2Proof

open Machine

/-- Settles O5: both events leave the volatile values of a start-up with what the cut leaves of the array, and
every frame is an event of a running card. -/
theorem powerLossAndResetSilenceTheCard : Obligations.PowerLossAndResetSilenceTheCard := by
  unfold Obligations.PowerLossAndResetSilenceTheCard
  intro s
  refine ⟨fun on => ⟨_, execLossOfPower_of_on on, rfl, rfl, rfl, rfl, rfl, rfl, cut_area s, rfl, cut_counter s⟩,
    fun since running counting within => ?_,
    fun down r c g link badge type tag key v car l mo d sv bytes late cmd mem => ?_⟩
  · obtain ⟨u, dir, store, free, high, event⟩ := execResetAsserted_of_high running counting within
    have left := cut_store_congr dir store free
    have idle (g : Group) : ({ u.cut.volatileReset with power := Power.held }.group g).tx = [] := by
      simp [State.group, State.volatileReset, GroupMgr.startUp]
    have silent (c : Chan) : ({ u.cut.volatileReset with power := Power.held }.reader c).tx = [] := by
      simp [State.reader, State.volatileReset, Channel.startUp]
    refine ⟨_, event, rfl, rfl, rfl, rfl, ?_, ?_, ?_, ?_, ?_, rfl, rfl, idle, silent⟩
    · rw [← left]
      rfl
    · rw [← left]
      rfl
    · rw [← cut_area s, ← left]
      rfl
    · rw [← cut_counter s, ← left]
      rfl
    · obtain ⟨st, touched⟩ := cut_touches u
      rw [touched]
      exact high
  · rcases List.mem_append.mp mem with request | frame
    · exact (siteCommands_needPower r s cmd request).ignored down
    · exact (lineCommands_needPower s r c g link badge type tag key v car l mo d sv bytes late cmd frame).ignored down

end Sys2Proof
end

section
/-! PROOF. The operation that the array runs, as its end finds it (R58 to R69), and what a raising leaves of the
rest. -/

namespace Sys2Proof.Machine

section
variable {s : State} {k : OpKind} (h : Works s k)
include h

theorem Works.powered : s.power = .running := h.1.1

theorem Works.running : s.store.running = some k := by
  obtain ⟨-, n, op⟩ := h
  simp [Store.running, op]

end

/-! ### What a raising leaves of the rest -/

section
variable (s : State) (k : FaultKind) (d : Nat)

@[simp] theorem raiseFault_store : (s.raiseFault k d).store = s.store := by
  obtain ⟨f, ns, touched⟩ := raiseFault_touches s k d
  rw [touched]

@[simp] theorem raiseFault_dir : (s.raiseFault k d).dir = s.dir := by
  obtain ⟨f, ns, touched⟩ := raiseFault_touches s k d
  rw [touched]

@[simp] theorem raiseFault_batch : (s.raiseFault k d).batch = s.batch := by
  obtain ⟨f, ns, touched⟩ := raiseFault_touches s k d
  rw [touched]

@[simp] theorem raiseFault_transfer : (s.raiseFault k d).transfer = s.transfer := by
  obtain ⟨f, ns, touched⟩ := raiseFault_touches s k d
  rw [touched]

@[simp] theorem raiseFault_cal : (s.raiseFault k d).cal = s.cal := by
  obtain ⟨f, ns, touched⟩ := raiseFault_touches s k d
  rw [touched]

@[simp] theorem raiseFault_date : (s.raiseFault k d).date = s.date := by
  simp only [State.date, raiseFault_cal]

end

end Sys2Proof.Machine
end

section
/-! PROOF. A settings save (R67 to R69): its beginning, its entries, its completion and its failures. -/

namespace Sys2Proof.Machine

/-- R68: the save at the head of the work queue of an idle array begins. -/
theorem execSettingsSaveStart_of_ready {s : State} {rest : List WorkEntry} (runs : Runs s)
    (phase : s.site.phase = .open_) (idle : s.store.op = none) (free : s.store.prio = [])
    (head : s.store.workQ = .save 0 :: rest) : exec .settingsSaveStart s = .next s.beginSave := by
  rw [exec_settingsSaveStart, execSettingsSaveStart]
  have ready : s.store.op = none ∧ s.store.prio = [] ∧ s.store.workQ.head? = some (.save 0)
      ∧ s.site.phase = .open_ := ⟨idle, free, by rw [head, List.head?_cons], phase⟩
  rw [whileRunning_quiet _ _ runs (by rw [if_pos ready]; rfl), if_pos ready]

/-- R67: the settings in force hold each channel's and each group's configuration. -/
theorem settings_channels (s : State) (c : Chan) : s.settings.channels[c] = (s.reader c).cfg := by
  simp [State.settings, State.reader, vmap]

theorem settings_groups (s : State) (g : Group) : s.settings.groups[g] = (s.recallOf g).cfg := by
  simp [State.settings, State.recallOf, vmap]

section
variable {s : State} {k : Nat}

theorem execEntryComplete_of_erase (h : Works s (.saveErase k)) :
    ThenArray .settingsSaveEntryComplete s (s.saveEntryDone k) := by
  rw [ThenArray, exec_settingsSaveEntryComplete, execSettingsSaveEntryComplete, whileRunning_of_running _ _ h.powered]
  simp only [h.running]

theorem execEntryComplete_of_program (h : Works s (.saveProgram k)) :
    ThenArray .settingsSaveEntryComplete s (s.saveEntryDone (64 + k)) := by
  rw [ThenArray, exec_settingsSaveEntryComplete, execSettingsSaveEntryComplete, whileRunning_of_running _ _ h.powered]
  simp only [h.running]

theorem execSaveFailure_of_erase (h : Works s (.saveErase k)) :
    ThenArray .settingsSaveFailure s (s.saveFailed true k) := by
  rw [ThenArray, exec_settingsSaveFailure, execSettingsSaveFailure, whileRunning_of_running _ _ h.powered]
  simp only [h.running]

theorem execSaveFailure_of_program (h : Works s (.saveProgram k)) :
    ThenArray .settingsSaveFailure s (s.saveFailed false k) := by
  rw [ThenArray, exec_settingsSaveFailure, execSettingsSaveFailure, whileRunning_of_running _ _ h.powered]
  simp only [h.running]

theorem execSaveComplete_of_mark (h : Works s .saveMark) : ThenArray .settingsSaveComplete s s.saveDone := by
  rw [ThenArray, exec_settingsSaveComplete, execSettingsSaveComplete, whileRunning_of_running _ _ h.powered]
  simp only [h.running]

end

/-! ### A failure (R69) -/

/-- R69: the fault that a failure of an entry raises. -/
def saveFault (erase : Bool) : FaultKind := if erase then .storeEraseFail else .storeProgramFail

/-- R69: the save's part of the store after a failure: queued once more, or ended. -/
def Store.saveFailed (st : Store) : Store :=
  if st.save.retry then
    { st with
      op := none, workQ := st.workQ.tail
      save := { st.save with state := .idle, pending := false, last := .failed, retry := false, image := none } }
  else
    { st with
      op := none, workQ := st.workQ.tail ++ [.save 0]
      save := { st.save with state := .queued, retry := true, image := none } }

theorem saveFailed_eq (s : State) (erase : Bool) (p : Nat) : s.saveFailed erase p
    = (s.endOp.dropWork.raiseFault (saveFault erase) (2048 + p)).mapStore fun _ => s.store.saveFailed := by
  have store : (s.endOp.dropWork.raiseFault (saveFault erase) (2048 + p)).store
      = { s.store with op := none, workQ := s.store.workQ.tail } := raiseFault_store _ _ _
  unfold State.saveFailed
  rw [← saveFault]
  generalize s.endOp.dropWork.raiseFault (saveFault erase) (2048 + p) = u at store ⊢
  unfold Store.saveFailed
  by_cases retry : s.store.save.retry = true <;>
    simp [store, retry, State.mapSave, State.mapStore]

/-- R69: what a failure of an entry of the save leaves. -/
structure SaveFails (s u : State) (fault : FaultKind) (d : Nat) : Prop where
  store : u.store = s.store.saveFailed
  raised : Raises s u.arbitrate.settle fault d
  first : s.faults.first = none → ∃ x, u.faults.first = some x ∧ x.detail = d ∧ x.kind = fault

theorem saveFailed_fails (s : State) (erase : Bool) (p : Nat) :
    SaveFails s (s.saveFailed erase p) (saveFault erase) (2048 + p) := by
  rw [saveFailed_eq]
  refine ⟨rfl, ?_, fun none_ => ⟨_, raiseFault_first _ _ _ none_, rfl, rfl⟩⟩
  exact (((raiseFault_raised s.endOp.dropWork _ _).since rfl).after (mapStore_after _ _)).arbitrate

/-- R69: a first failure queues the save again, a second ends it; area and pages stand. -/
theorem saveFailed_spec (st : Store) :
    st.saveFailed.op = none ∧ st.saveFailed.area = st.area ∧ st.saveFailed.pages = st.pages
    ∧ st.saveFailed.pageState = st.pageState ∧ st.saveFailed.eraseQ = st.eraseQ
    ∧ (st.save.retry = false → st.saveFailed.workQ = st.workQ.tail ++ [.save 0]
      ∧ st.saveFailed.save.state = .queued ∧ st.saveFailed.save.retry = true
      ∧ st.saveFailed.save.pending = st.save.pending)
    ∧ (st.save.retry = true → st.saveFailed.workQ = st.workQ.tail ∧ st.saveFailed.save.state = .idle
      ∧ st.saveFailed.save.last = .failed ∧ st.saveFailed.save.pending = false
      ∧ st.saveFailed.save.retry = false) := by
  unfold Store.saveFailed
  cases st.save.retry <;> simp

/-! ### The completion (R68) -/

/-- R68: the complete mark ends the save, or queues it again where a change is pending. -/
theorem saveDone_spec (s : State) {image : Settings} (fixed : s.store.save.image = some image) :
    s.saveDone.store.op = none
    ∧ s.saveDone.store.area = { complete := true, checkMatches := true, image := image }
    ∧ s.saveDone.store.save.last = .ok ∧ s.saveDone.store.save.retry = false
    ∧ (s.store.save.pending = false → s.saveDone.store.save.state = .idle
      ∧ s.saveDone.store.workQ = s.store.workQ.tail)
    ∧ (s.store.save.pending = true → s.saveDone.store.save.state = .queued
      ∧ s.saveDone.store.workQ = s.store.workQ.tail ++ [.save 0] ∧ s.saveDone.store.save.pending = false) := by
  cases pending : s.store.save.pending <;>
    simp [State.saveDone, State.dropWork, State.endOp, State.mapSave, State.mapStore, queueSave_eq, saveQueued,
      pending, fixed]

end Sys2Proof.Machine

namespace Sys2Proof

open Machine

/-- Settles O50: the events of a save one by one, an erase and a PROGRAM of the area alike. -/
theorem settingsSavesRun : Obligations.SettingsSavesRun := by
  unfold Obligations.SettingsSavesRun
  intro s k
  refine ⟨fun rest runs phase idle free head => ?_, fun op next mem works => ?_, fun image works fixed => ?_⟩
  · refine ⟨_, execSettingsSaveStart_of_ready runs phase idle free head, rfl, rfl,
      ⟨s.settings, rfl, rfl, rfl, rfl, rfl, rfl, rfl, rfl, rfl, settings_channels s, settings_groups s⟩,
      rfl, ?_, rfl, rfl, rfl⟩
    cases retry : s.store.save.retry <;> simp [State.beginSave, State.mapStore, retry]
  · obtain ⟨idle, area, pages, states, erases, first, second⟩ := saveFailed_spec s.store
    rcases List.mem_cons.mp mem with erase | program
    · obtain ⟨rfl, rfl⟩ := Prod.mk.inj erase
      obtain ⟨store, raised, record⟩ := saveFailed_fails s true k
      refine ⟨⟨_, execEntryComplete_of_erase works, rfl, rfl, rfl⟩, _, execSaveFailure_of_erase works, ?_⟩
      rw [store]
      exact ⟨idle, fun _ => raised, nofun, fun none_ => by
        obtain ⟨x, held, detail, kind⟩ := record none_
        exact ⟨x, held, detail, fun _ => kind, nofun⟩, area, pages, states, erases, first, second⟩
    · obtain ⟨rfl, rfl⟩ := Prod.mk.inj (List.mem_singleton.mp program)
      obtain ⟨store, raised, record⟩ := saveFailed_fails s false k
      refine ⟨⟨_, execEntryComplete_of_program works, rfl, rfl, rfl⟩, _, execSaveFailure_of_program works, ?_⟩
      rw [store]
      exact ⟨idle, nofun, fun _ => raised, fun none_ => by
        obtain ⟨x, held, detail, kind⟩ := record none_
        exact ⟨x, held, detail, nofun, fun _ => kind⟩, area, pages, states, erases, first, second⟩
  · exact ⟨_, execSaveComplete_of_mark works, saveDone_spec s fixed⟩

end Sys2Proof
end

section
/-! PROOF. The arbiter (R60, R61): what a request does to a running erase, and the operation an idle array takes up. -/

namespace Sys2Proof.Machine

/-! ### A request that arrives (R61) -/

theorem isErase_iff (k : OpKind) :
    k.isErase = true ↔ (∃ p, k = .eraseDir p) ∨ (∃ p, k = .eraseLog p) ∨ ∃ p, k = .saveErase p := by
  cases k <;> simp [OpKind.isErase]

/-- R61: a running erase that may still be suspended is suspended. -/
theorem placePrio_suspends {s : State} {op : ArrayOp} (e : PrioEntry) (runs : s.store.op = some op)
    (erase : op.kind.isErase = true) (going : op.suspended = false) (few : op.suspensions < 16) :
    s.placePrio e = { s with store := { s.store with
      prio := s.store.prio ++ [e]
      op := some { kind := op.kind, suspensions := op.suspensions + 1, suspended := true }
      capped := if op.suspensions = 15 then min (s.store.capped + 1) 65535 else s.store.capped } } := by
  have last : op.suspensions + 1 = 16 ↔ op.suspensions = 15 := by omega
  simp [State.placePrio, State.mapStore, runs, erase, going, few, hold16]

/-- R61: any other operation is left as it is. -/
theorem placePrio_joins {s : State} (e : PrioEntry)
    (stays : ∀ op, s.store.op = some op → op.kind.isErase = true → op.suspended = true ∨ 16 ≤ op.suspensions) :
    s.placePrio e = { s with store := { s.store with prio := s.store.prio ++ [e] } } := by
  cases runs : s.store.op with
  | none => simp [State.placePrio, State.mapStore, runs]
  | some op =>
    have left : (op.kind.isErase && !op.suspended && decide (op.suspensions < 16)) = false := by
      by_contra may
      simp only [Bool.not_eq_false, Bool.and_eq_true, decide_eq_true_iff, Bool.not_eq_true'] at may
      obtain ⟨⟨erase, going⟩, few⟩ := may
      rcases stays op runs erase with suspended | many
      · exact absurd (going.symm.trans suspended) (by decide)
      · omega
    simp only [State.placePrio, State.mapStore, runs, left, Bool.false_eq_true, if_false]

/-! ### The erase queue's head (R63) -/

/-- R63: the ERASE of `p` has begun: the page has lost its complete mark and is ERASING in its condition, and the
others stand as they stood. -/
def EraseBegun (st u : Store) (p : Page) (rest : List Page) : Prop :=
  u.op = some { kind := .eraseDir p, suspensions := 0, suspended := false } ∧ u.eraseQ = rest
  ∧ (u.stateOf p).isErasing = true ∧ (∀ k, st.stateOf p = .stale k → u.stateOf p = .erasing k)
  ∧ (u.page p).retired = (st.page p).retired
  ∧ (∀ x, (st.page p).contents = .programmed x → (u.page p).contents = .programmed { x with complete := false })
  ∧ ∀ q, q ≠ p → u.page q = st.page q ∧ u.stateOf q = st.stateOf q

theorem beginErase_begun {st : Store} {p : Page} {rest : List Page} (head : st.eraseQ = p :: rest) :
    EraseBegun st st.beginErase p rest := by
  unfold EraseBegun
  unfold Store.beginErase
  rw [head]
  dsimp only
  have state (v : Store) (x : PageState) (rest : List Page) (op : Option ArrayOp) (q : Page) :
      ({ v.setState p x with eraseQ := rest, op := op }).stateOf q = (v.setState p x).stateOf q := rfl
  have page (v : Store) (x : PageState) (rest : List Page) (op : Option ArrayOp) (q : Page) :
      ({ v.setState p x with eraseQ := rest, op := op }).page q = v.page q := rfl
  simp only [state, page, stateOf_setState, page_setPage]
  refine ⟨rfl, trivial, rfl, fun k stale => by rw [stale], trivial, fun x held => by rw [held], fun q ne => ?_⟩
  rw [page_setPage_of_ne _ _ _ _ ne, stateOf_setState_of_ne _ _ _ _ ne, stateOf_setPage]
  exact ⟨rfl, rfl⟩

/-- R60: with nothing in the erase queue nothing begins. -/
theorem mapStore_beginErase_of_none {s : State} (none_ : s.store.eraseQ = []) : s.mapStore Store.beginErase = s := by
  simp [State.mapStore, Store.beginErase, none_]

/-- R63: the array takes the head of the erase queue, where one waits. -/
def TakesErase (s : State) : Prop :=
  (s.store.eraseQ = [] → s.arbitrate = s)
  ∧ ∀ p rest, s.store.eraseQ = p :: rest → EraseBegun s.store s.arbitrate.store p rest

theorem TakesErase.of_begins {s : State} (begins : s.arbitrate = s.mapStore Store.beginErase) : TakesErase s :=
  ⟨fun none_ => begins.trans (mapStore_beginErase_of_none none_), fun p rest head => by
    rw [begins]
    exact beginErase_begun head⟩

/-! ### The next operation (R60) -/

section
variable {s : State} (phase : s.site.phase = .open_)
include phase

/-- R60: an operation that runs, or a suspended erase with a request waiting, goes on as it is. -/
theorem arbitrate_of_busy {op : ArrayOp} (runs : s.store.op = some op)
    (busy : op.suspended = false ∨ s.store.prio ≠ []) : s.arbitrate = s := by
  have stays : ¬ (op.suspended && s.store.prio.isEmpty) = true := by
    rcases busy with going | waits
    · simp [going]
    · simp [waits]
  unfold State.arbitrate
  rw [if_neg (by simp [phase]), runs]
  exact if_neg stays

/-- R61: a suspended erase goes on. -/
theorem arbitrate_resumes {op : ArrayOp} (runs : s.store.op = some op) (suspended : op.suspended = true)
    (free : s.store.prio = []) :
    s.arbitrate = { s with store := { s.store with op := some { op with suspended := false } } } := by
  simp [State.arbitrate, phase, runs, suspended, free, State.mapStore]

variable (idle : s.store.op = none) (free : s.store.prio = [])
include idle free

theorem arbitrate_of_logErase {p : Fin 8} {rest : List WorkEntry} (head : s.store.workQ = .logErase p :: rest) :
    s.arbitrate = { s with store := { s.store with op := some (ArrayOp.begin_ (.eraseLog p)) } } := by
  simp [State.arbitrate, phase, idle, free, head, State.mapStore]

theorem arbitrate_of_logMark {rest : List WorkEntry} (head : s.store.workQ = .logMark :: rest) :
    s.arbitrate = { s with store := { s.store with op := some (ArrayOp.begin_ .logMark) } } := by
  simp [State.arbitrate, phase, idle, free, head, State.mapStore]

/-- R68: the first erase of a save waits for its own row (log 16). -/
theorem arbitrate_of_firstSave {rest : List WorkEntry} (head : s.store.workQ = .save 0 :: rest) :
    s.arbitrate = s := by
  simp [State.arbitrate, phase, idle, free, head]

theorem arbitrate_of_save {k : Nat} {rest : List WorkEntry} (head : s.store.workQ = .save (k + 1) :: rest) :
    s.arbitrate = { s with store := { s.store with op := some (ArrayOp.begin_
      (if k + 1 < 64 then .saveErase (k + 1)
       else if k + 1 < 64 + imagePageCount then .saveProgram (k + 1 - 64) else .saveMark)) } } := by
  simp [State.arbitrate, phase, idle, free, head, State.mapStore]

/-- R63: with no work the head of the erase queue is erased. -/
theorem arbitrate_of_no_work (none_ : s.store.workQ = []) : s.arbitrate = s.mapStore Store.beginErase := by
  simp [State.arbitrate, phase, idle, free, none_]

/-- R58: a PROGRAM takes the lowest FREE page. -/
theorem arbitrate_of_program {i : Nat} {p : Page} {rest : List WorkEntry}
    (head : s.store.workQ = .program i :: rest) (lowest : s.store.lowestFree = some p) :
    s.arbitrate = s.beginProgram i p := by
  simp [State.arbitrate, phase, idle, free, head, lowest]

end

theorem lowestFree_eq_some_iff {st : Store} {p : Page} :
    st.lowestFree = some p ↔ st.stateOf p = .free ∧ ∀ q, q < p → st.stateOf q ≠ .free := by
  have free (q : Page) : (st.stateOf q).isFree = true ↔ st.stateOf q = .free := by
    rw [isFree_eq_beq, beq_iff_eq]
  simp [Store.lowestFree, finList_find?_eq_some_iff, ← Bool.not_eq_true, free]

theorem lowestFree_eq_none {st : Store} (none_ : ∀ p, st.stateOf p ≠ .free) : st.lowestFree = none := by
  refine List.find?_eq_none.mpr fun p _ free => none_ p ?_
  rwa [isFree_eq_beq, beq_iff_eq] at free

/-! ### The records of a copy (R89) -/

/-- R89: a record as its old page then holds it. -/
def State.carriedRecord (s : State) (b : Badge) : Option Record := (s.dir.entryFor b).bind fun e =>
  match (s.store.page e.page).contents with
  | .programmed old => old.records.find? fun r => r.badge == b
  | .erased => none

/-- R89: the records that edits bring, and each other record as its old page then holds it. -/
theorem copyRecords_eq (s : State) (c : Copy) :
    s.copyRecords c = c.records.filterMap fun pr => pr.fresh <|> s.carriedRecord pr.badge := by
  refine List.filterMap_congr fun pr _ => ?_
  cases pr.fresh with
  | some r => rfl
  | none => rfl

/-- R58, R89: what the PROGRAM of a copy begins with. -/
theorem beginProgram_spec {s : State} {i : Nat} {p : Page} {w : Work} {c : Copy} (works : s.store.work = some w)
    (copy : w.copies[i]? = some c) :
    (s.beginProgram i p).store.op = some { kind := .program i p, suspensions := 0, suspended := false }
    ∧ (s.beginProgram i p).store.stateOf p = .writing
    ∧ ((s.beginProgram i p).store.page p).contents = .programmed
      { low := c.low, high := c.high, count := (s.copyRecords c).length, commit := w.number, complete := false
        records := s.copyRecords c } := by
  unfold State.beginProgram
  simp only [works, copy, mapStore_store]
  exact ⟨rfl, stateOf_setState _ p _, congrArg DirPage.contents (page_setPage s.store p _)⟩

end Sys2Proof.Machine

namespace Sys2Proof

open Machine

/-- Settles O44: the requests first, then the operations in the order of the arbiter. -/
theorem arbiterTakesTheNextOperation : Obligations.ArbiterTakesTheNextOperation := by
  unfold Obligations.ArbiterTakesTheNextOperation
  refine ⟨fun s e => ⟨fun op runs erase going few => ?_, fun stays => ?_⟩, fun s phase => ?_⟩
  · exact placePrio_suspends e runs ((isErase_iff _).mpr erase) going few
  · exact placePrio_joins e fun op runs erase => stays op runs ((isErase_iff _).mp erase)
  dsimp only
  refine ⟨fun op runs => arbitrate_of_busy phase runs, fun op runs => arbitrate_resumes phase runs,
    fun _ => arbitrate_of_prio s, fun idle free => ?_⟩
  refine ⟨fun p rest => arbitrate_of_logErase phase idle free, fun rest => arbitrate_of_logMark phase idle free,
    fun rest => arbitrate_of_firstSave phase idle free, fun k rest head => ?_,
    fun i rest p w c head lowest lower works copy => ?_,
    fun i rest head none_ => TakesErase.of_begins
      (arbitrate_of_no_free s phase idle free head (lowestFree_eq_none none_)),
    fun none_ => TakesErase.of_begins (arbitrate_of_no_work phase idle free none_)⟩
  · have begins := arbitrate_of_save phase idle free head
    refine ⟨fun erases => ?_, fun past programs => ?_, fun past => ?_⟩
    · rwa [if_pos erases] at begins
    · rwa [if_neg (Nat.not_lt.mpr past), if_pos programs] at begins
    · rwa [if_neg (by omega), if_neg (Nat.not_lt.mpr past)] at begins
  · rw [arbitrate_of_program phase idle free head (lowestFree_eq_some_iff.mpr ⟨lowest, lower⟩)]
    obtain ⟨op, state, contents⟩ := beginProgram_spec (p := p) works copy
    exact ⟨_, op, state, contents, rfl, rfl, rfl, rfl, copyRecords_eq s c, rfl⟩

end Sys2Proof
end

section
/-! PROOF. A page that is retired (R58, R59), and the running work after it (R62, R91): what the rest of such an event
keeps, and how a work ends by COMMIT_FAIL. -/

namespace Sys2Proof.Machine

/-! ### Faults of other kinds -/

theorem faultKind_bit_getLsbD (k j : FaultKind) : k.bit.getLsbD j.code = decide (j = k) := by
  cases k <;> cases j <;> rfl

/-- R173: a raising leaves the statuses of the other kinds. -/
theorem raiseFault_isSet_of_ne (s : State) {k j : FaultKind} (d : Nat) (ne : j ≠ k) :
    (s.raiseFault k d).faults.isSet j = s.faults.isSet j := by
  rw [raiseFault_faults]
  simp only [FaultUnit.isSet, BitVec.getLsbD_or, faultKind_bit_getLsbD, decide_eq_false ne, Bool.or_false]

@[simp] theorem raiseFault_masks (s : State) (k : FaultKind) (d : Nat) :
    (s.raiseFault k d).faults.masks = s.faults.masks := by
  rw [raiseFault_faults]

@[simp] theorem raiseFault_majors (s : State) (k : FaultKind) (d : Nat) :
    (s.raiseFault k d).faults.majors = s.faults.majors := by
  rw [raiseFault_faults]

/-- R173: the First-Fault Record is kept through a raising. -/
theorem raiseFault_first_of_some (s : State) (k : FaultKind) (d : Nat) {x : FirstFault}
    (held : s.faults.first = some x) : (s.raiseFault k d).faults.first = some x := by
  rw [raiseFault_faults, held]
  rfl

/-- From `s` the event has come to `v` raising faults of the kinds `ks` alone. The masks, the severities and the
other statuses stand, and so do the directory, the batch, the Transfer Table and the calendar. -/
structure RaisedOnly (ks : List FaultKind) (s v : State) : Prop where
  masks : v.faults.masks = s.faults.masks
  majors : v.faults.majors = s.faults.majors
  others : ∀ k ∉ ks, v.faults.isSet k = s.faults.isSet k
  dir : v.dir = s.dir
  batch : v.batch = s.batch
  transfer : v.transfer = s.transfer
  cal : v.cal = s.cal

section
variable {s v u : State} {ks : List FaultKind}

theorem RaisedOnly.refl (ks : List FaultKind) (s : State) : RaisedOnly ks s s :=
  ⟨rfl, rfl, fun _ _ => rfl, rfl, rfl, rfl, rfl⟩

theorem RaisedOnly.raiseFault (h : RaisedOnly ks s v) {k : FaultKind} (d : Nat) (mem : k ∈ ks) :
    RaisedOnly ks s (v.raiseFault k d) where
  masks := (raiseFault_masks v k d).trans h.masks
  majors := (raiseFault_majors v k d).trans h.majors
  others j out := (raiseFault_isSet_of_ne v d fun eq : j = k => out (eq ▸ mem)).trans (h.others j out)
  dir := (raiseFault_dir v k d).trans h.dir
  batch := (raiseFault_batch v k d).trans h.batch
  transfer := (raiseFault_transfer v k d).trans h.transfer
  cal := (raiseFault_cal v k d).trans h.cal

theorem RaisedOnly.mapStore (h : RaisedOnly ks s v) (f : Store → Store) : RaisedOnly ks s (v.mapStore f) := { h with }

theorem RaisedOnly.checkSpare (h : RaisedOnly ks s v) (before : Nat) (mem : .spareLow ∈ ks) :
    RaisedOnly ks s (v.checkSpare before) := by
  unfold State.checkSpare
  split
  · exact h.raiseFault _ mem
  · exact h

/-- What is raised from `v` on of a kind not raised before stands as raised in the event from `s` on. -/
theorem RaisedOnly.raised (h : RaisedOnly ks s v) {k : FaultKind} {d : Nat} (out : k ∉ ks) (raised : Raised v u k d) :
    Raised s u k d :=
  raised.from (congrArg (·.getLsbD k.code) h.masks) (congrArg (·.getLsbD k.code) h.majors) (h.others k out)

end

/-! ### The end of a work (R62, R91) -/

/-- R62, R91: the store once the running work `w` has ended by COMMIT_FAIL. -/
def Store.workEnded (st : Store) (w : Work) : Store :=
  { (st.toStale w.heldPages .abandoned) with workQ := st.workQ.filter fun x => !x.ofWork, work := none }

section
variable {s v u : State} {ks : List FaultKind} {w : Work}

/-- R76, R91: what a failed work's block reports. -/
def failNotice (w : Work) (edits : Nat) (cause : FailCause) : NoticeBody :=
  match w.kind with
  | .compact => .compactFailed
  | .commit => .commitFailed w.number edits w.heldPages.length cause

/-- R62, R91: the end by COMMIT_FAIL: the store, the fault, the notice and, of a commit, the batch. -/
theorem failWork_eq (running : s.store.work = some w) (cause : FailCause) : s.failWork cause
    = (((s.mapStore fun st => st.workEnded w).raiseFault .commitFail (w.number % 65536)).raiseNotice
        (failNotice w s.batch.edits.length cause)).mapBatch
      fun b => if w.kind = .commit then Batch.startUp else b := by
  unfold State.failWork
  rw [running]
  dsimp only
  cases kind : w.kind <;> simp only [failNotice, kind] <;> rfl

/-- R62, R91: a work ends by COMMIT_FAIL after faults of other kinds. `w'` is the work in the form it has come to. -/
theorem RaisedOnly.workFails (h : RaisedOnly ks s v) (out : .commitFail ∉ ks) {w' : Work}
    (running : v.store.work = some w') (number : w'.number = w.number) (kind : w'.kind = w.kind)
    (held : w'.heldPages = w.heldPages) (cause : FailCause) : WorkFails s (v.failWork cause) w cause := by
  have notice : failNotice w' v.batch.edits.length cause = failNotice w s.batch.edits.length cause := by
    simp only [failNotice, kind, number, held, h.batch]
  obtain ⟨states, stale, abandoned⟩ := toStale_spec v.store w.heldPages .abandoned
  have ended : v.store.workEnded w' = { v.store with
      pageState := states, eraseQ := v.store.eraseQ ++ ascending w.heldPages
      workQ := v.store.workQ.filter fun x => !x.ofWork, work := none } := by
    rw [Store.workEnded, held, stale]
  have fault := (h.mapStore fun st => st.workEnded w').raised out (raiseFault_raised _ .commitFail (w'.number % 65536))
  have store := raiseFault_store (v.mapStore fun st => st.workEnded w') .commitFail (w'.number % 65536)
  have dir := raiseFault_dir (v.mapStore fun st => st.workEnded w') .commitFail (w'.number % 65536)
  have transfer := raiseFault_transfer (v.mapStore fun st => st.workEnded w') .commitFail (w'.number % 65536)
  have batch := raiseFault_batch (v.mapStore fun st => st.workEnded w') .commitFail (w'.number % 65536)
  rw [mapStore_store, ended] at store
  rw [mapStore_dir, h.dir] at dir
  rw [mapStore_transfer, h.transfer] at transfer
  rw [mapStore_batch, h.batch] at batch
  rw [failWork_eq running, notice, kind]
  rw [number] at fault store dir transfer batch ⊢
  generalize (v.mapStore fun st => st.workEnded w').raiseFault .commitFail (w.number % 65536) = f at *
  have closes : After (f.raiseNotice (failNotice w s.batch.edits.length cause))
      ((f.raiseNotice (failNotice w s.batch.edits.length cause)).mapBatch
        fun b => if w.kind = .commit then Batch.startUp else b) := .of_parts rfl rfl rfl
  have reported := (closes.trans (arbitrate_after _)).reported
  refine ⟨by rw [mapBatch_store, raiseNotice_touches, store],
    (fault.after ((raiseNotice_after _ _).trans closes)).arbitrate,
    fun q mem => ?_, fun x mem => ?_, dir, transfer, fun commit => ⟨if_pos commit, ?_⟩, fun compact => ⟨?_, ?_⟩⟩
  · rw [mapBatch_store, raiseNotice_touches, store]
    exact ⟨(abandoned q).trans (if_pos mem), List.mem_append_right _ ((mem_ascending_iff _ _).mpr mem)⟩
  · rw [mapBatch_store, raiseNotice_touches, store] at mem
    simpa using (List.mem_filter.mp mem).2
  · simpa only [failNotice, commit] using reported
  · exact (if_neg (by simp [compact])).trans batch
  · simpa only [failNotice, compact] using reported

/-- R62: the pages can be had, or the work has not fixed its copies: nothing ends. -/
theorem checkLack_of_enough (running : s.store.work = some w) (enough : w.unprogrammed ≤ s.store.obtainable) :
    s.checkLack = s := by
  simp only [State.checkLack, running]
  exact if_neg fun lack => Nat.not_lt.mpr enough lack.2

/-- R62: the pages cannot be had any more. -/
theorem checkLack_of_lack (running : s.store.work = some w) (phase : w.phase ≠ .reading)
    (lack : s.store.obtainable < w.unprogrammed) : s.checkLack = s.failWork .noPages := by
  simp only [State.checkLack, running]
  exact if_pos ⟨phase, lack⟩

theorem checkLack_of_none (none_ : s.store.work = none) : s.checkLack = s := by
  simp only [State.checkLack, none_]

theorem queueLogMark_of_none (none_ : s.store.work = none) : s.queueLogMark = s := by
  simp only [State.queueLogMark, none_]

/-- R66: the MARK is queued for a work in LOGGING alone. -/
theorem queueLogMark_of_other (running : s.store.work = some w) (phase : w.phase ≠ .logging) : s.queueLogMark = s := by
  simp only [State.queueLogMark, running]
  exact if_neg fun logs => phase logs.1

end

/-! ### The rest of the event (R62, R66) -/

/-- From `v` the event goes on to `u` with the running work alone: the pages and the array stand, and no fault but
COMMIT_FAIL is raised. -/
structure WorkGoesOn (v u : State) : Prop where
  after : After v u
  first : ∀ x, v.faults.first = some x → u.faults.first = some x
  spare : u.faults.isSet .spareLow = v.faults.isSet .spareLow
  pages : u.store.pages = v.store.pages
  op : u.store.op = v.store.op

section
variable {s t u v : State}

theorem WorkGoesOn.refl (v : State) : WorkGoesOn v v := ⟨.refl v, fun _ => id, rfl, rfl, rfl⟩

theorem WorkGoesOn.trans (h : WorkGoesOn t v) (g : WorkGoesOn v u) : WorkGoesOn t u :=
  ⟨h.after.trans g.after, fun x held => g.first x (h.first x held), g.spare.trans h.spare, g.pages.trans h.pages,
    g.op.trans h.op⟩

theorem mapWork_goesOn (v : State) (f : Work → Work) : WorkGoesOn v (v.mapWork f) :=
  ⟨mapStore_after v _, fun _ => id, rfl, rfl, rfl⟩

theorem queueLogMark_goesOn (v : State) : WorkGoesOn v v.queueLogMark := by
  obtain ⟨q, touched⟩ := queueLogMark_touches v
  rw [touched]
  exact ⟨.of_parts rfl rfl rfl, fun _ => id, rfl, rfl, rfl⟩

theorem failWork_goesOn (v : State) (cause : FailCause) : WorkGoesOn v (v.failWork cause) := by
  cases running : v.store.work with
  | none =>
    rw [failWork_of_none running]
    exact .refl v
  | some w =>
    have after := failWork_after v cause
    obtain ⟨-, -, -, states, store, -⟩ := failWork_failed v running cause
    have first (x : FirstFault) :=
      raiseFault_first_of_some (v.mapStore fun st => st.workEnded w) .commitFail (w.number % 65536) (x := x)
    have spare := raiseFault_isSet_of_ne (v.mapStore fun st => st.workEnded w) (k := .commitFail) (j := .spareLow)
      (w.number % 65536) (by decide)
    rw [mapStore_faults] at first spare
    refine ⟨after, ?_, ?_, by rw [store], by rw [store]⟩
    all_goals
      rw [failWork_eq running]
      generalize (v.mapStore fun st => st.workEnded w).raiseFault .commitFail (w.number % 65536) = f at *
    · exact first
    · exact spare

theorem checkLack_goesOn (v : State) : WorkGoesOn v v.checkLack := by
  unfold State.checkLack
  split
  · split
    · exact failWork_goesOn v _
    · exact .refl v
  · exact .refl v

end

/-! ### A page that is retired (R58, R59) -/

/-- R58, R59: the page `p` is retired, with the fault `k` and the check of the spare sum. -/
def State.pageLost (s : State) (p : Page) (k : FaultKind) : State :=
  (((s.mapStore fun st => st.retire p).endOp).raiseFault k p.val).checkSpare s.store.spareSum

theorem spareSum_eq (st : Store) : st.spareSum
    = st.pageState.toList.countP fun x => x == .free || x.isStale || x.isErasing || x == .writing := by
  simp only [Store.spareSum, Store.countPages, isFree_eq_beq]

@[simp] theorem checkSpare_store (s : State) (n : Nat) : (s.checkSpare n).store = s.store := by
  unfold State.checkSpare
  split
  · exact raiseFault_store _ _ _
  · rfl

theorem checkSpare_after (s : State) (n : Nat) : After s (s.checkSpare n) := .ite (raiseFault_after _ _ _) (.refl s)

theorem checkSpare_first {s : State} {x : FirstFault} (n : Nat) (held : s.faults.first = some x) :
    (s.checkSpare n).faults.first = some x := by
  unfold State.checkSpare
  split
  · exact raiseFault_first_of_some _ _ _ held
  · exact held

section
variable {s v u : State} {ks : List FaultKind}

/-- R59: SPARE_LOW is raised where the sum falls below 8, and not otherwise. -/
theorem RaisedOnly.spareChecked (h : RaisedOnly ks s v) (out : .spareLow ∉ ks) {st : Store}
    (sum : v.store.pageState = st.pageState) (on : WorkGoesOn (v.checkSpare s.store.spareSum) u) :
    SpareChecked s u st := by
  have left : st.spareSum = v.store.spareSum := by rw [spareSum_eq, spareSum_eq, sum]
  unfold SpareChecked
  dsimp only
  rw [← spareSum_eq, ← spareSum_eq, left]
  have spare := on.spare
  have after := on.after
  have cal : u.cal = s.cal := by
    rw [after.cal, (checkSpare_after v _).cal, h.cal]
  refine ⟨fun enough few => ?_, fun stays => ?_⟩
  · have raised := raiseFault_raised v .spareLow v.store.spareSum
    rw [State.checkSpare, if_pos ⟨few, enough⟩] at spare after
    have stands := (h.raised out raised).after after
    obtain ⟨-, told⟩ := stands.arbitrate
    refine ⟨stands.set, fun unmasked => ?_⟩
    have date : u.arbitrate.settle.date = s.date := by
      rw [State.date, State.date, ← cal, ← arbitrate_cal u]
      rfl
    rw [← date]
    exact told unmasked
  · rw [spare, State.checkSpare, if_neg fun low => by omega]
    exact h.others _ out

/-- What the loss of the page `p` leaves, whatever the running work then goes on to. -/
structure PageRetired (s u : State) (p : Page) (k : FaultKind) : Prop where
  op : u.store.op = none
  page : u.store.page p = { s.store.page p with retired := true }
  others : ∀ q, q ≠ p → u.store.page q = s.store.page q
  raised : Raises s u.arbitrate.settle k p.val
  spare : SpareChecked s u (s.store.setState p .retired)
  first : s.faults.first = none → ∃ x, u.faults.first = some x ∧ x.kind = k ∧ x.detail = p.val

theorem pageLost_store (s : State) (p : Page) (k : FaultKind) :
    (s.pageLost p k).store = { s.store.retire p with op := none } := by
  rw [State.pageLost, checkSpare_store, raiseFault_store]
  rfl

theorem pageLost_raisedOnly (s : State) (p : Page) (k : FaultKind) :
    RaisedOnly [k, .spareLow] s (s.pageLost p k) :=
  (((RaisedOnly.refl _ s).mapStore fun st => { st.retire p with op := none }).raiseFault p.val (by simp)).checkSpare _
    (by simp)

theorem pageLost_retired {p : Page} {k : FaultKind} (other : k ≠ .spareLow) (on : WorkGoesOn (s.pageLost p k) u) :
    PageRetired s u p k := by
  have store := pageLost_store s p k
  have only : RaisedOnly [k] s (((s.mapStore fun st => st.retire p).endOp).raiseFault k p.val) :=
    ((RaisedOnly.refl _ s).mapStore fun st => { st.retire p with op := none }).raiseFault p.val (by simp)
  have raised : Raised s (((s.mapStore fun st => st.retire p).endOp).raiseFault k p.val) k p.val :=
    (raiseFault_raised ((s.mapStore fun st => st.retire p).endOp) k p.val).since rfl
  have page (q : Page) : u.store.page q = (s.store.retire p).page q := by
    rw [Store.page, on.pages, store]
    rfl
  exact {
    op := by rw [on.op, store]
    page := (page p).trans (page_setPage _ _ _)
    others := fun q ne => (page q).trans (page_setPage_of_ne _ _ _ _ ne)
    raised := (raised.after ((checkSpare_after _ _).trans on.after)).arbitrate
    spare := only.spareChecked (by simpa using other.symm) (by rw [raiseFault_store]; rfl) on
    first := fun none_ => ⟨_, on.first _ (checkSpare_first _ (raiseFault_first _ k p.val none_)), rfl, rfl⟩ }

end

end Sys2Proof.Machine
end

section
/-! PROOF. The end of a PROGRAM (R58, R62, R66): the copy is held, or its page is retired and the work goes on or
ends. -/

namespace Sys2Proof.Machine

section
variable {s : State} {i : Nat} {p : Page} {w : Work} {c : Copy}

theorem execProgramComplete_of_works (h : Works s (.program i p)) :
    ThenArray .programComplete s (s.programDone i p) := by
  rw [ThenArray, exec_programComplete, execProgramComplete, whileRunning_of_running _ _ h.powered]
  simp only [h.running]

theorem execProgramFailure_of_works (h : Works s (.program i p)) :
    ThenArray .programFailure s (s.programFailed i p) := by
  rw [ThenArray, exec_programFailure, execProgramFailure, whileRunning_of_running _ _ h.powered]
  simp only [h.running]

/-! ### The PROGRAM has completed -/

/-- R58: a page that has been programmed has its complete mark and is held. -/
def Store.copyHeld (st : Store) (p : Page) : Store :=
  let contents := match (st.page p).contents with
    | .programmed x => .programmed { x with complete := true }
    | .erased => .erased
  { (st.setPage p { st.page p with contents := contents }).setState p (.stale .held) with op := none }

theorem copyHeld_spec (st : Store) (p : Page) : (st.copyHeld p).op = none ∧ (st.copyHeld p).stateOf p = .stale .held
    ∧ (∀ x, (st.page p).contents = .programmed x →
      ((st.copyHeld p).page p).contents = .programmed { x with complete := true })
    ∧ ∀ q, q ≠ p → (st.copyHeld p).page q = st.page q := by
  refine ⟨rfl, stateOf_setState _ _ _, fun x held => ?_, fun q ne => page_setPage_of_ne _ _ _ _ ne⟩
  refine (congrArg DirPage.contents (page_setPage st p _)).trans ?_
  simp only [held]

/-- R58, R62: the work whose copy `i` is on page `p`. -/
def Work.copyOn (w : Work) (i : Nat) (p : Page) : Work :=
  { w with copies := w.copies.modify i fun c => { c with page := some p } }

theorem programDone_working (running : s.store.work = some w) : s.programDone i p
    = (({ s with store := s.store.copyHeld p }).working (w.copyOn i p) s.store.workQ.tail).checkProgrammed := by
  have works : ((((s.mapStore fun _ => s.store.copyHeld p)).endOp).dropWork).store.work = some w := running
  unfold State.programDone
  dsimp only
  refine congrArg State.checkProgrammed ?_
  exact mapWork_of_some works _

/-- R66: the last copy turns the work to LOGGING, and its MARK is queued. -/
theorem programDone_spec (running : s.store.work = some w) :
    ∃ v q, s.programDone i p = ({ s with store := s.store.copyHeld p }).working v q
      ∧ v.copies = (w.copyOn i p).copies
      ∧ (w.phase = .programming → v.unprogrammed = 0 → v.phase = .logging
        ∧ MarkQueued (s.store.setState p (.stale .held)) s.store.workQ.tail q)
      ∧ (v.unprogrammed ≠ 0 → v.phase = w.phase ∧ q = s.store.workQ.tail) := by
  rw [programDone_working running]
  by_cases done : w.phase = .programming ∧ (w.copyOn i p).unprogrammed = 0
  · obtain ⟨programs, last⟩ := done
    obtain ⟨q, logs, marks⟩ := working_checkProgrammed (w := w.copyOn i p) (q := s.store.workQ.tail)
      { s with store := s.store.copyHeld p } programs last
    exact ⟨_, q, logs, rfl, fun _ _ => ⟨rfl, marks⟩, fun left => absurd last left⟩
  · exact ⟨_, _, working_checkProgrammed_of_other _ done, rfl, fun programs last => absurd ⟨programs, last⟩ done,
      fun _ => ⟨rfl, rfl⟩⟩

/-! ### The PROGRAM has failed -/

/-- R62: the work whose copy `i` has failed once more. -/
def Work.copyFailed (w : Work) (i : Nat) : Work :=
  { w with copies := w.copies.modify i fun c => { c with failures := c.failures + 1 } }

theorem heldPages_copyFailed (w : Work) (i : Nat) : (w.copyFailed i).heldPages = w.heldPages := by
  have held (cs : List Copy) : cs.filterMap Copy.page = (cs.map Copy.page).filterMap id := by
    rw [List.filterMap_map]
    rfl
  rw [Work.heldPages, Work.heldPages, held, held w.copies]
  exact congrArg (List.filterMap id) (map_modify_of_same Copy.failed _ (fun _ => rfl) _ _)

theorem failures_copyFailed (copy : w.copies[i]? = some c) :
    ((((w.copyFailed i).copies[i]?).map Copy.failures).getD 0) = c.failures + 1 := by
  simp [Work.copyFailed, copy]

/-- R62: a second failure ends the work; after a first one it goes on while pages can be had. -/
theorem programFailed_eq (running : s.store.work = some w) (copy : w.copies[i]? = some c) : s.programFailed i p
    = let v := (s.pageLost p .storeProgramFail).working (w.copyFailed i) s.store.workQ
      if 1 ≤ c.failures then v.failWork .programFail else v.checkLack := by
  have store := pageLost_store s p .storeProgramFail
  have works : (s.pageLost p .storeProgramFail).store.work = some w := by rw [store]; exact running
  have failed : (s.pageLost p .storeProgramFail).mapWork (fun w => w.copyFailed i)
      = (s.pageLost p .storeProgramFail).working (w.copyFailed i) s.store.workQ := by
    rw [mapWork_of_some works, State.working, State.mapStore, store]
    rfl
  have unfolded : s.programFailed i p =
      match ((s.pageLost p .storeProgramFail).mapWork fun w => w.copyFailed i).store.work with
    | some w => if 2 ≤ ((w.copies[i]?).map Copy.failures).getD 0
        then ((s.pageLost p .storeProgramFail).mapWork fun w => w.copyFailed i).failWork .programFail
        else ((s.pageLost p .storeProgramFail).mapWork fun w => w.copyFailed i).checkLack
    | none => (s.pageLost p .storeProgramFail).mapWork fun w => w.copyFailed i := rfl
  rw [unfolded, failed]
  dsimp only [State.working]
  rw [failures_copyFailed copy]
  simp only [Nat.reduceLeDiff]

/-- R62: what the work goes on to after the loss of the page. -/
theorem programFailed_goesOn (running : s.store.work = some w) (copy : w.copies[i]? = some c) :
    WorkGoesOn (s.pageLost p .storeProgramFail) (s.programFailed i p) := by
  have counted : WorkGoesOn (s.pageLost p .storeProgramFail)
      ((s.pageLost p .storeProgramFail).working (w.copyFailed i) s.store.workQ) :=
    ⟨.of_parts rfl rfl rfl, fun _ => id, rfl, rfl, rfl⟩
  rw [programFailed_eq running copy]
  dsimp only
  split
  · exact counted.trans (failWork_goesOn _ _)
  · exact counted.trans (checkLack_goesOn _)

/-- R62: the work ends, or its entry stays at the head of the queue for the second attempt. -/
theorem programFailed_work (running : s.store.work = some w) (copy : w.copies[i]? = some c) :
    (1 ≤ c.failures → WorkFails s (s.programFailed i p) w .programFail)
    ∧ (c.failures = 0 → w.phase ≠ .reading →
        (s.store.setState p .retired).obtainable < (w.copyFailed i).unprogrammed →
        WorkFails s (s.programFailed i p) w .noPages)
    ∧ (c.failures = 0 → (w.copyFailed i).unprogrammed ≤ (s.store.setState p .retired).obtainable →
        (s.programFailed i p).store.stateOf p = .retired ∧ (s.programFailed i p).store.workQ = s.store.workQ
        ∧ (s.programFailed i p).store.work = some (w.copyFailed i)) := by
  have only : RaisedOnly [.storeProgramFail, .spareLow] s
      ((s.pageLost p .storeProgramFail).working (w.copyFailed i) s.store.workQ) :=
    (pageLost_raisedOnly s p .storeProgramFail).mapStore fun st =>
      { st with work := some (w.copyFailed i), workQ := s.store.workQ }
  have ends := only.workFails (w := w) (w' := w.copyFailed i) (by decide) rfl rfl rfl (heldPages_copyFailed w i)
  have store : ((s.pageLost p .storeProgramFail).working (w.copyFailed i) s.store.workQ).store
      = { s.store.retire p with op := none, work := some (w.copyFailed i), workQ := s.store.workQ } := by
    rw [State.working, pageLost_store]
  have pages : ((s.pageLost p .storeProgramFail).working (w.copyFailed i) s.store.workQ).store.obtainable
      = (s.store.setState p .retired).obtainable := by
    rw [store]
    rfl
  rw [programFailed_eq running copy, ← pages]
  dsimp only
  refine ⟨fun again => ?_, fun once phase lack => ?_, fun once enough => ?_⟩
  · rw [if_pos again]
    exact ends _
  · rw [if_neg (by omega), checkLack_of_lack (w := w.copyFailed i) rfl phase lack]
    exact ends _
  · rw [if_neg (by omega), checkLack_of_enough (w := w.copyFailed i) rfl enough, store]
    exact ⟨stateOf_setState _ _ _, rfl, rfl⟩

end

end Sys2Proof.Machine

namespace Sys2Proof

open Machine

/-- Settles O47: what a completed PROGRAM turns the work to, and what is left of it after a failed one. -/
theorem programsEndHeldOrRetired : Obligations.ProgramsEndHeldOrRetired := by
  unfold Obligations.ProgramsEndHeldOrRetired
  intro s i p w c works running copy
  refine ⟨fun v => ⟨rfl, rfl⟩, ⟨_, execProgramComplete_of_works works, ?_⟩, _, execProgramFailure_of_works works, ?_⟩
  · obtain ⟨v, q, done, copies, last, left⟩ := programDone_spec (i := i) (p := p) running
    obtain ⟨op, state, page, others⟩ := copyHeld_spec s.store p
    rw [done]
    exact ⟨op, state, page, others, v, rfl, copies, last, left⟩
  · obtain ⟨op, page, others, raised, spare, first⟩ :=
      pageLost_retired (k := .storeProgramFail) (by decide) (programFailed_goesOn (p := p) running copy)
    obtain ⟨again, lack, enough⟩ := programFailed_work (p := p) running copy
    exact ⟨op, page, others, raised, first, spare, again, lack, enough⟩

end Sys2Proof
end

section
/-! PROOF. The numbers of the Commit Log (R64, R71): its pages, its slots and the highest number in it. -/

namespace Sys2Proof.Machine

section
variable {st : Store}

theorem logPageErased_iff (st : Store) (p : Fin 8) : st.logPageErased p = true ↔ ∀ i : Fin 64, st.log[p][i] = none := by
  simp only [Store.logPageErased, List.all_eq_true, Vector.mem_toList_iff, Option.isNone_iff_eq_none]
  refine ⟨fun all i => all _ (Vector.getElem_mem i.isLt), fun all x mem => ?_⟩
  obtain ⟨i, lt, rfl⟩ := Vector.mem_iff_getElem.mp mem
  exact all ⟨i, lt⟩

theorem mem_logNumbers_iff {n : Nat} :
    n ∈ st.logNumbers ↔ ∃ (p : Fin 8) (i : Fin 64), st.log[p][i] = some n := by
  simp only [Store.logNumbers, List.mem_flatMap, List.mem_filterMap, Vector.mem_toList_iff, id]
  constructor
  · rintro ⟨page, mem, x, slot, rfl⟩
    obtain ⟨p, lt, rfl⟩ := Vector.mem_iff_getElem.mp mem
    obtain ⟨i, lt', at_⟩ := Vector.mem_iff_getElem.mp slot
    exact ⟨⟨p, lt⟩, ⟨i, lt'⟩, at_⟩
  · rintro ⟨p, i, at_⟩
    exact ⟨_, Vector.getElem_mem p.isLt, _, Vector.getElem_mem i.isLt, at_⟩

/-- The greatest of a list's numbers and `m`. -/
theorem foldl_max_spec (ns : List Nat) (m : Nat) :
    m ≤ ns.foldl max m ∧ (∀ n ∈ ns, n ≤ ns.foldl max m) ∧ (ns.foldl max m = m ∨ ns.foldl max m ∈ ns) := by
  induction ns generalizing m with
  | nil => exact ⟨Nat.le_refl m, nofun, .inl rfl⟩
  | cons a ns ih =>
    obtain ⟨start, below, found⟩ := ih (max m a)
    rw [List.foldl_cons]
    refine ⟨Nat.le_trans (Nat.le_max_left m a) start, ?_, ?_⟩
    · rintro n (_ | ⟨_, mem⟩)
      · exact Nat.le_trans (Nat.le_max_right m a) start
      · exact below n mem
    · rcases found with eq | mem
      · rcases Nat.le_total a m with le | le
        · exact .inl (eq.trans (Nat.max_eq_left le))
        · exact .inr (by rw [eq, Nat.max_eq_right le]; exact List.mem_cons_self)
      · exact .inr (List.mem_cons_of_mem a mem)

/-- R71: the last complete commit is the highest number of the log. -/
theorem le_lastLogged {n : Nat} (mem : n ∈ st.logNumbers) : n ≤ st.lastLogged := (foldl_max_spec _ 0).2.1 n mem

theorem lastLogged_mem (some_ : st.logNumbers ≠ []) : st.lastLogged ∈ st.logNumbers := by
  obtain ⟨-, below, zero | mem⟩ := foldl_max_spec st.logNumbers 0
  · obtain ⟨n, rest, eq⟩ := List.exists_cons_of_ne_nil some_
    have first : n ∈ st.logNumbers := by rw [eq]; exact List.mem_cons_self
    have none_ : n = 0 := Nat.le_zero.mp (Nat.le_trans (below n first) (Nat.le_of_eq zero))
    rw [show st.lastLogged = 0 from zero, ← none_]
    exact first
  · exact mem

theorem lastLogged_of_none (none_ : st.logNumbers = []) : st.lastLogged = 0 := by
  rw [Store.lastLogged, none_]
  rfl

/-- R64: the page that holds the highest number. -/
theorem highestLogPage_some {p : Fin 8} (h : st.highestLogPage = some p) :
    ∃ i : Fin 64, st.log[p][i] = some st.lastLogged := by
  unfold Store.highestLogPage at h
  split at h
  · cases h
  · have holds := List.find?_some h
    obtain ⟨i, lt, at_⟩ := Vector.mem_iff_getElem.mp (Vector.mem_toList_iff.mp (List.contains_iff_mem.mp holds))
    exact ⟨⟨i, lt⟩, at_⟩

theorem highestLogPage_none_iff : st.highestLogPage = none ↔ st.logNumbers = [] := by
  unfold Store.highestLogPage
  split
  · rename_i empty
    exact ⟨fun _ => List.isEmpty_iff.mp empty, fun _ => rfl⟩
  · rename_i filled
    have some_ : st.logNumbers ≠ [] := fun eq => filled (List.isEmpty_iff.mpr eq)
    obtain ⟨p, i, at_⟩ := mem_logNumbers_iff.mp (lastLogged_mem some_)
    refine ⟨fun none_ => ?_, fun eq => absurd eq some_⟩
    refine absurd ?_ (List.find?_eq_none.mp none_ p (mem_finList p))
    refine List.contains_iff_mem.mpr (Vector.mem_toList_iff.mpr ?_)
    rw [← at_]
    exact Vector.getElem_mem i.isLt

/-- R64: a log that holds no number holds nothing in any slot. -/
theorem slot_none_of_highestLogPage_none (h : st.highestLogPage = none) (p : Fin 8) (i : Fin 64) :
    st.log[p][i] = none := by
  by_contra held
  obtain ⟨n, at_⟩ := Option.ne_none_iff_exists'.mp held
  exact absurd (mem_logNumbers_iff.mpr ⟨p, i, at_⟩) (by rw [highestLogPage_none_iff.mp h]; exact List.not_mem_nil)

/-- R64: a log page set anew, and the others. -/
theorem log_set_same (log : Vector (Vector (Option Nat) 64) 8) (p : Fin 8) (x : Vector (Option Nat) 64) :
    (log.set p.val x p.isLt)[p] = x :=
  Vector.getElem_set_self p.isLt

theorem log_set_of_ne (log : Vector (Vector (Option Nat) 64) 8) {p q : Fin 8} (x : Vector (Option Nat) 64)
    (ne : q ≠ p) : (log.set p.val x p.isLt)[q] = log[q] :=
  Vector.getElem_set_ne p.isLt q.isLt fun eq => ne (Fin.ext eq.symm)

end

end Sys2Proof.Machine
end

section
/-! PROOF. The end of an ERASE (R58, R59, R62 to R64, R66): of a directory page, and of a page of the Commit Log. -/

namespace Sys2Proof.Machine

section
variable {s : State} {w : Work}

/-! ### A directory page -/

section
variable {p : Page}

theorem execEraseComplete_of_dir (h : Works s (.eraseDir p)) : ThenArray .eraseComplete s (s.eraseDone p) := by
  rw [ThenArray, exec_eraseComplete, execEraseComplete, whileRunning_of_running _ _ h.powered]
  simp only [h.running]

theorem execEraseFailure_of_dir (h : Works s (.eraseDir p)) : ThenArray .eraseFailure s (s.eraseFailed p) := by
  rw [ThenArray, exec_eraseFailure, execEraseFailure, whileRunning_of_running _ _ h.powered]
  simp only [h.running]

/-- R63: the page is FREE and erased, and the array does nothing. -/
def Store.pageErased (st : Store) (p : Page) : Store :=
  { (st.setPage p { contents := .erased, retired := false }).setState p .free with op := none }

/-- The card whose store is `st`. -/
abbrev State.withStore (s : State) (st : Store) : State := { s with store := st }

theorem eraseDone_eq (s : State) (p : Page) :
    s.eraseDone p = (s.withStore (s.store.pageErased p)).checkWait.queueLogMark := rfl

/-- R63, R66, R88: the work queue and the work alone go on after the erase. -/
theorem eraseDone_touches (s : State) (p : Page) : ∃ work q,
    (s.eraseDone p).store = { s.store.pageErased p with work := work, workQ := q } := by
  have wait : ∃ work q, (s.withStore (s.store.pageErased p)).checkWait
      = s.withStore { s.store.pageErased p with work := work, workQ := q } := by
    unfold State.checkWait
    split
    · split
      · exact ⟨_, _, rfl⟩
      · exact ⟨s.store.work, s.store.workQ, rfl⟩
    · exact ⟨s.store.work, s.store.workQ, rfl⟩
  obtain ⟨work, q, waited⟩ := wait
  obtain ⟨q', marked⟩ := queueLogMark_touches (s.withStore { s.store.pageErased p with work := work, workQ := q })
  exact ⟨work, q', by rw [eraseDone_eq, waited, marked]⟩

theorem pageErased_spec (st : Store) (p : Page) : (st.pageErased p).stateOf p = .free
    ∧ (st.pageErased p).page p = { contents := .erased, retired := false }
    ∧ ∀ q, q ≠ p → (st.pageErased p).page q = st.page q ∧ (st.pageErased p).stateOf q = st.stateOf q :=
  ⟨stateOf_setState _ _ _, page_setPage _ _ _, fun _ ne =>
    ⟨page_setPage_of_ne _ _ _ _ ne, stateOf_setState_of_ne _ _ _ _ ne⟩⟩

theorem checkWait_of_none (none_ : s.store.work = none) : s.checkWait = s := by
  simp only [State.checkWait, none_]

/-- R88: a work that does not wait for pages goes on as it is. -/
theorem checkWait_of_other (running : s.store.work = some w) (other : w.phase ≠ .commitWait) : s.checkWait = s := by
  simp only [State.checkWait, running]
  exact if_neg fun go => other go.1

theorem eraseDone_of_none (none_ : s.store.work = none) : s.eraseDone p = s.withStore (s.store.pageErased p) := by
  have left : (s.withStore (s.store.pageErased p)).store.work = none := none_
  rw [eraseDone_eq, checkWait_of_none left, queueLogMark_of_none left]

/-- R63, R66, R88: what the erase lets the running work go on to. -/
theorem eraseDone_work (running : s.store.work = some w) :
    (w.phase ≠ .commitWait → (s.eraseDone p).store.work = some w
      ∧ (w.phase = .logging → MarkQueued (s.store.setState p .free) s.store.workQ (s.eraseDone p).store.workQ)
      ∧ (w.phase ≠ .logging → (s.eraseDone p).store.workQ = s.store.workQ))
    ∧ (w.phase = .commitWait →
      (w.copies.length ≤ (s.store.setState p .free).freePages →
        (s.eraseDone p).store.work = some { w with phase := .programming }
        ∧ (s.eraseDone p).store.workQ = s.store.workQ ++ (List.range w.copies.length).map WorkEntry.program)
      ∧ ((s.store.setState p .free).freePages < w.copies.length →
        (s.eraseDone p).store.work = some w ∧ (s.eraseDone p).store.workQ = s.store.workQ)) := by
  have works : (s.withStore (s.store.pageErased p)).store.work = some w := running
  have self : s.withStore (s.store.pageErased p) = (s.withStore (s.store.pageErased p)).working w s.store.workQ := by
    rw [State.working, ← running]
    rfl
  rw [eraseDone_eq]
  refine ⟨fun other => ?_, fun waits => ⟨fun enough => ?_, fun few => ?_⟩⟩
  · rw [checkWait_of_other works other]
    obtain ⟨q, touched⟩ := queueLogMark_touches (s.withStore (s.store.pageErased p))
    refine ⟨by rw [touched]; exact running, fun logs => ?_, fun other => by rw [queueLogMark_of_other works other]; rfl⟩
    exact queueLogMark_marks (s.withStore (s.store.pageErased p)) w works logs
  · rw [self, working_checkWait (s.withStore (s.store.pageErased p)) waits enough,
      queueLogMark_of_other (w := { w with phase := .programming }) rfl nofun]
    exact ⟨rfl, rfl⟩
  · rw [self, working_checkWait_of_few (s.withStore (s.store.pageErased p)) few,
      queueLogMark_of_other (w := w) rfl (by simp [waits])]
    exact ⟨rfl, rfl⟩

/-! ### A directory page that fails -/

theorem eraseFailed_eq (s : State) (p : Page) :
    s.eraseFailed p = (s.pageLost p .storeEraseFail).checkLack.queueLogMark := rfl

theorem eraseFailed_goesOn (s : State) (p : Page) : WorkGoesOn (s.pageLost p .storeEraseFail) (s.eraseFailed p) :=
  (checkLack_goesOn _).trans (queueLogMark_goesOn _)

theorem eraseFailed_of_none (none_ : s.store.work = none) : (s.eraseFailed p).store.stateOf p = .retired := by
  have lost : (s.pageLost p .storeEraseFail).store.work = none := by rw [pageLost_store]; exact none_
  rw [eraseFailed_eq, checkLack_of_none lost, queueLogMark_of_none lost, pageLost_store]
  exact stateOf_setState _ _ _

/-- R62, R63: the work ends for want of pages, or goes on as it was. -/
theorem eraseFailed_work (running : s.store.work = some w) (phase : w.phase ≠ .reading) :
    ((s.store.setState p .retired).obtainable < w.unprogrammed → WorkFails s (s.eraseFailed p) w .noPages)
    ∧ (w.unprogrammed ≤ (s.store.setState p .retired).obtainable → (s.eraseFailed p).store.work = some w
      ∧ (s.eraseFailed p).store.stateOf p = .retired
      ∧ (w.phase = .logging → MarkQueued (s.store.setState p .retired) s.store.workQ (s.eraseFailed p).store.workQ)
      ∧ (w.phase ≠ .logging → (s.eraseFailed p).store.workQ = s.store.workQ)) := by
  have store := pageLost_store s p .storeEraseFail
  have works : (s.pageLost p .storeEraseFail).store.work = some w := by rw [store]; exact running
  have pages : (s.pageLost p .storeEraseFail).store.obtainable = (s.store.setState p .retired).obtainable := by
    rw [store]
    rfl
  rw [← pages, eraseFailed_eq]
  refine ⟨fun lack => ?_, fun enough => ?_⟩
  · rw [checkLack_of_lack works phase lack, queueLogMark_of_none (failWork_work _ _)]
    exact (pageLost_raisedOnly s p .storeEraseFail).workFails (by decide) works rfl rfl rfl _
  · rw [checkLack_of_enough works enough]
    have marks := queueLogMark_marks (s.pageLost p .storeEraseFail) w works
    have still (other : w.phase ≠ .logging) := queueLogMark_of_other works other
    obtain ⟨q, touched⟩ := queueLogMark_touches (s.pageLost p .storeEraseFail)
    refine ⟨by rw [touched]; exact works, ?_, fun logs => ?_, fun other => by rw [still other, store]; rfl⟩
    · rw [touched, store]
      exact stateOf_setState _ _ _
    · have marked := marks logs
      rw [store] at marked
      exact marked

end

/-! ### A page of the Commit Log -/

section
variable {p : Fin 8}

theorem execEraseComplete_of_log (h : Works s (.eraseLog p)) : ThenArray .eraseComplete s (s.logEraseDone p) := by
  rw [ThenArray, exec_eraseComplete, execEraseComplete, whileRunning_of_running _ _ h.powered]
  simp only [h.running]

theorem execLogEraseFailure_of_log (h : Works s (.eraseLog p)) :
    ThenArray .logEraseFailure s (s.logEraseFailed p) := by
  rw [ThenArray, exec_logEraseFailure, execLogEraseFailure, whileRunning_of_running _ _ h.powered]
  simp only [h.running]

/-- R64: the store with the log page as a failed ERASE leaves it (log 28). -/
def Store.logPageLost (st : Store) (p : Fin 8) (free : Nat) : Store :=
  { st with log := st.log.set p.val (cutLogPage free st.log[p]) p.isLt, op := none, workQ := st.workQ.tail }

theorem logLost_eq (s : State) (p : Fin 8) : ∃ t,
    t = (s.mapStore fun st => st.logPageLost p s.free).raiseFault .storeEraseFail (1024 + p.val)
    ∧ s.logLost p = { t with free := t.free + 1 } := ⟨_, rfl, rfl⟩

theorem logLost_store (s : State) (p : Fin 8) : (s.logLost p).store = s.store.logPageLost p s.free := by
  obtain ⟨t, raised, lost⟩ := logLost_eq s p
  rw [lost]
  dsimp only
  rw [raised, raiseFault_store, mapStore_store]

theorem logLost_raisedOnly (s : State) (p : Fin 8) : RaisedOnly [.storeEraseFail] s (s.logLost p) := by
  obtain ⟨t, raised, lost⟩ := logLost_eq s p
  have only : RaisedOnly [.storeEraseFail] s t := by
    rw [raised]
    exact ((RaisedOnly.refl _ s).mapStore _).raiseFault _ (by simp)
  rw [lost]
  exact { only with }

theorem logLost_raised (s : State) (p : Fin 8) : Raised s (s.logLost p) .storeEraseFail (1024 + p.val) := by
  obtain ⟨t, eq, lost⟩ := logLost_eq s p
  have raised : Raised s t .storeEraseFail (1024 + p.val) := by
    rw [eq]
    exact (raiseFault_raised _ _ _).since (mapStore_faults s _).symm
  rw [lost]
  exact raised.after (.of_parts rfl rfl rfl)

theorem logLost_first (s : State) (p : Fin 8) (none_ : s.faults.first = none) : ∃ x,
    (s.logLost p).faults.first = some x ∧ x.kind = .storeEraseFail ∧ x.detail = 1024 + p.val := by
  obtain ⟨t, raised, lost⟩ := logLost_eq s p
  have first := raiseFault_first (s.mapStore fun st => st.logPageLost p s.free) .storeEraseFail (1024 + p.val) none_
  rw [← raised] at first
  rw [lost]
  exact ⟨_, first, rfl, rfl⟩

/-- R64: the log position has moved to the first slot of the page after `top`. -/
def State.logMovedPast (s : State) (top : Fin 8) : State :=
  s.mapStore fun st => { st with logPage := top + 1, logSlot := 0 }

/-- R64: the position moves to the next log page, or the work ends where that holds the highest number. -/
theorem logEraseFailed_eq (s : State) (p : Fin 8) : s.logEraseFailed p =
    if (s.logLost p).store.highestLogPage = some (p + 1)
    then ((s.logLost p).logMovedPast (p + 1)).failWork .logFail else (s.logLost p).moveLog (p + 1) := by
  have unfolded : s.logEraseFailed p = match (s.logLost p).store.highestLogPage with
    | some top => if p + 1 = top then ((s.logLost p).logMovedPast top).failWork .logFail
        else (s.logLost p).moveLog (p + 1)
    | none => (s.logLost p).moveLog (p + 1) := rfl
  rw [unfolded]
  cases (s.logLost p).store.highestLogPage with
  | none => rfl
  | some top =>
    by_cases eq : p + 1 = top
    · subst eq
      simp only [if_true]
    · have other : some top ≠ some (p + 1) := fun same => eq (Option.some.inj same).symm
      simp only [eq, other, if_false]

/-- The end of a work leaves the Commit Log and its position. -/
theorem failWork_log (v : State) (cause : FailCause) : (v.failWork cause).store.log = v.store.log
    ∧ (v.failWork cause).store.logPage = v.store.logPage ∧ (v.failWork cause).store.logSlot = v.store.logSlot := by
  cases running : v.store.work with
  | none =>
    rw [failWork_of_none running]
    exact ⟨rfl, rfl, rfl⟩
  | some w =>
    obtain ⟨-, -, -, states, store, -⟩ := failWork_failed v running cause
    rw [store]
    exact ⟨rfl, rfl, rfl⟩

/-- What follows the loss of a log page keeps of it. -/
structure LogKept (v u : State) : Prop where
  after : After v u
  first : ∀ x, v.faults.first = some x → u.faults.first = some x
  op : u.store.op = v.store.op
  pages : u.store.pages = v.store.pages
  log : u.store.log = v.store.log

theorem logEraseFailed_kept (s : State) (p : Fin 8) : LogKept (s.logLost p) (s.logEraseFailed p) := by
  rw [logEraseFailed_eq]
  generalize s.logLost p = v
  split
  · have on := failWork_goesOn (v.logMovedPast (p + 1)) .logFail
    have moved : After v (v.logMovedPast (p + 1)) := mapStore_after v _
    exact ⟨moved.trans on.after, on.first, on.op, on.pages, (failWork_log (v.logMovedPast (p + 1)) .logFail).1⟩
  · exact ⟨mapStore_after v _, fun _ => id, rfl, rfl, rfl⟩

theorem highestLogPage_congr {st st' : Store} (log : st'.log = st.log) : st'.highestLogPage = st.highestLogPage := by
  unfold Store.highestLogPage Store.lastLogged Store.logNumbers
  rw [log]

/-- R64: the next page does not hold the highest number: the position moves there, its erase ahead of the MARK where
it holds a number. -/
theorem logEraseFailed_moves (left : (s.logLost p).store.highestLogPage ≠ some (p + 1)) :
    (s.logEraseFailed p).store = { s.store.logPageLost p s.free with
      logPage := p + 1, logSlot := 0
      workQ := if (s.store.logPageLost p s.free).logPageErased (p + 1) then s.store.workQ.tail
        else .logErase (p + 1) :: s.store.workQ.tail } := by
  rw [logEraseFailed_eq, if_neg left, State.moveLog, mapStore_store, logLost_store]
  rfl

/-- R64: no log page is left. -/
theorem logEraseFailed_ends (none_ : (s.logLost p).store.highestLogPage = some (p + 1)) :
    (s.logEraseFailed p).store.work = none ∧ (s.logEraseFailed p).store.logPage = p + 1 + 1
    ∧ (s.logEraseFailed p).store.logSlot = 0
    ∧ ∀ w, s.store.work = some w → WorkFails s (s.logEraseFailed p) w .logFail := by
  have only := logLost_raisedOnly s p
  have store := logLost_store s p
  rw [logEraseFailed_eq, if_pos none_]
  generalize s.logLost p = v at *
  obtain ⟨-, page, slot⟩ := failWork_log (v.logMovedPast (p + 1)) .logFail
  refine ⟨failWork_work _ _, page, slot, fun w running => ?_⟩
  have works : (v.logMovedPast (p + 1)).store.work = some w := by
    rw [State.logMovedPast, mapStore_store, store]
    exact running
  have moved : RaisedOnly [.storeEraseFail] s (v.logMovedPast (p + 1)) := only.mapStore _
  exact moved.workFails (by decide) works rfl rfl rfl _

end

end

end Sys2Proof.Machine

namespace Sys2Proof

open Machine

/-- Settles O48: the erases of directory pages and of log pages, with what the running work goes on to. -/
theorem erasesEndFreeOrRetired : Obligations.ErasesEndFreeOrRetired := by
  unfold Obligations.ErasesEndFreeOrRetired
  intro s
  refine ⟨fun st p => ⟨logPageErased_iff st p, highestLogPage_some,
    fun none_ => slot_none_of_highestLogPage_none none_ p⟩,
    fun p works => ⟨⟨_, execEraseComplete_of_dir works, ?_⟩, _, execEraseFailure_of_dir works, ?_⟩,
    fun p works => ⟨⟨_, execEraseComplete_of_log works, rfl, rfl, log_set_same _ p _, fun q => log_set_of_ne _ _⟩,
      _, execLogEraseFailure_of_log works, ?_⟩⟩
  · obtain ⟨work, q, store⟩ := eraseDone_touches s p
    obtain ⟨free, erased, others⟩ := pageErased_spec s.store p
    refine ⟨by rw [store]; rfl, by rw [store]; exact free, by rw [store]; exact erased, by rw [store]; exact others,
      fun none_ => by rw [eraseDone_of_none none_]; exact ⟨none_, rfl⟩,
      fun w running => (eraseDone_work running).1, fun w running => (eraseDone_work running).2⟩
  · obtain ⟨op, page, -, raised, spare, first⟩ :=
      pageLost_retired (k := .storeEraseFail) (by decide) (eraseFailed_goesOn s p)
    exact ⟨op, page, raised, spare, first, eraseFailed_of_none, fun w => eraseFailed_work⟩
  · obtain ⟨after, first, op, pages, log⟩ := logEraseFailed_kept s p
    have store := logLost_store s p
    have highest := highestLogPage_congr log
    refine ⟨by rw [op, store]; rfl, ((logLost_raised s p).after after).arbitrate, by rw [pages, store]; rfl,
      fun none_ => ?_, fun q ne => ?_, fun left => ?_, fun none_ => logEraseFailed_ends (highest ▸ none_)⟩
    · obtain ⟨x, held, what⟩ := logLost_first s p none_
      exact ⟨x, first x held, what⟩
    · rw [log, store]
      exact log_set_of_ne _ _ ne
    · rw [logEraseFailed_moves (highest ▸ left)]
      refine ⟨rfl, rfl, rfl, fun erased => if_pos erased, fun held => if_neg ?_⟩
      rw [show (s.store.logPageLost p s.free).logPageErased (p + 1) = false from held]
      exact Bool.false_ne_true

end Sys2Proof
end

section
/-! PROOF. The candidates of the scan and those kept (R71, R72): their order, and what stands for one left out. -/

namespace Sys2Proof.Machine

/-- R71: the page `p` is whole, logged and not retired, with the header and records `x`. -/
def Store.IsCandidate (st : Store) (p : Page) (x : PageImage) : Prop :=
  (st.page p).retired = false ∧ (st.page p).contents = .programmed x ∧ x.complete = true
    ∧ x.low ≤ x.high ∧ x.count ≤ 64 ∧ x.commit ≤ st.lastLogged

section
variable {l : Nat} {d : DirPage} {x : PageImage}

theorem classify_of_retired (retired : d.retired = true) : classify l d = .retired := if_pos retired

theorem classify_of_erased (stands : d.retired = false) (erased : d.contents = .erased) : classify l d = .free := by
  simp [classify, stands, erased]

theorem classify_of_stale (stands : d.retired = false) (held : d.contents = .programmed x)
    (unsound : x.complete = false ∨ x.high < x.low ∨ 64 < x.count) : classify l d = .stale := by
  have cond : (!x.complete || decide (x.high < x.low) || decide (64 < x.count)) = true := by
    rcases unsound with h | h | h <;> simp [h]
  simp only [classify, stands, held, cond, Bool.false_eq_true, if_true, if_false]

theorem classify_of_sound (stands : d.retired = false) (held : d.contents = .programmed x) (whole : x.complete = true)
    (ordered : x.low ≤ x.high) (few : x.count ≤ 64) :
    classify l d = if l < x.commit then .abandoned else .candidate x := by
  have cond : (!x.complete || decide (x.high < x.low) || decide (64 < x.count)) = false := by
    simp [whole, ordered, few]
  simp only [classify, stands, held, cond, Bool.false_eq_true, if_false]

end

section
variable {st : Store}

theorem isCandidate_iff {p : Page} {x : PageImage} :
    st.IsCandidate p x ↔ classify st.lastLogged (st.page p) = .candidate x := by
  constructor
  · rintro ⟨stands, held, whole, ordered, few, logged⟩
    rw [classify_of_sound stands held whole ordered few, if_neg (Nat.not_lt.mpr logged)]
  · intro class_
    obtain ⟨held, ordered⟩ := classify_candidate class_
    have stands : (st.page p).retired = false := by
      by_contra retired
      rw [classify_of_retired (by simpa using retired)] at class_
      cases class_
    have sound : ¬ (x.complete = false ∨ x.high < x.low ∨ 64 < x.count) := fun unsound => by
      rw [classify_of_stale stands held unsound] at class_
      cases class_
    simp only [not_or, Bool.not_eq_false, Nat.not_lt] at sound
    obtain ⟨whole, -, few⟩ := sound
    rw [classify_of_sound stands held whole ordered few] at class_
    refine ⟨stands, held, whole, ordered, few, Nat.le_of_not_lt fun above => ?_⟩
    rw [if_pos above] at class_
    cases class_

theorem mem_candidates_iff {e : IndexEntry} :
    e ∈ st.candidates ↔ ∃ x, st.IsCandidate e.page x ∧ e = x.entry e.page := by
  rw [(candidates_perm st).mem_iff, List.mem_filterMap]
  constructor
  · rintro ⟨p, -, found⟩
    obtain ⟨x, class_, rfl⟩ := candidateOf_some found
    exact ⟨x, isCandidate_iff.mpr class_, rfl⟩
  · rintro ⟨x, cand, entry⟩
    refine ⟨e.page, mem_finList _, ?_⟩
    rw [Store.candidateOf, isCandidate_iff.mp cand]
    exact congrArg some entry.symm

/-! ### The order of the candidates -/

/-- R72: `a` is taken before `b`: its number is higher, or equal on a lower page. -/
def TakenBefore (a b : IndexEntry) : Prop := b.commit < a.commit ∨ (b.commit = a.commit ∧ a.page < b.page)

theorem insertCandidate_ordered {e : IndexEntry} {cs : List IndexEntry} (ordered : cs.Pairwise TakenBefore)
    (later : ∀ a ∈ cs, a.page < e.page) : (insertCandidate e cs).Pairwise TakenBefore := by
  induction cs with
  | nil => exact List.pairwise_singleton _ e
  | cons a rest ih =>
    obtain ⟨first, tail⟩ := List.pairwise_cons.mp ordered
    unfold insertCandidate
    split
    · rename_i higher
      refine List.pairwise_cons.mpr ⟨fun b mem => .inl ?_, ordered⟩
      rcases List.mem_cons.mp mem with rfl | mem
      · exact higher
      · rcases first b mem with lower | ⟨same, -⟩ <;> omega
    · rename_i not_higher
      refine List.pairwise_cons.mpr ⟨fun b mem => ?_, ih tail fun b mem => later b (List.mem_cons_of_mem a mem)⟩
      rcases List.mem_cons.mp ((insertCandidate_perm e rest).mem_iff.mp mem) with rfl | mem
      · rcases Nat.lt_or_ge b.commit a.commit with lower | ge
        · exact .inl lower
        · exact .inr ⟨Nat.le_antisymm (Nat.le_of_not_lt not_higher) ge, later a List.mem_cons_self⟩
      · exact first b mem

theorem insertCandidates_ordered {es cs : List IndexEntry} (ordered : cs.Pairwise TakenBefore)
    (pages : es.Pairwise fun a b => a.page < b.page) (later : ∀ a ∈ cs, ∀ e ∈ es, a.page < e.page) :
    (es.foldl (fun cs e => insertCandidate e cs) cs).Pairwise TakenBefore := by
  induction es generalizing cs with
  | nil => exact ordered
  | cons e es ih =>
    obtain ⟨first, tail⟩ := List.pairwise_cons.mp pages
    refine ih (insertCandidate_ordered ordered fun a mem => later a mem e List.mem_cons_self) tail
      fun a mem x after => ?_
    rcases List.mem_cons.mp ((insertCandidate_perm e cs).mem_iff.mp mem) with rfl | mem
    · exact first x after
    · exact later a mem x (List.mem_cons_of_mem e after)

theorem candidates_ordered (st : Store) : st.candidates.Pairwise TakenBefore := by
  refine insertCandidates_ordered List.Pairwise.nil ?_ fun a mem => absurd mem List.not_mem_nil
  refine List.Pairwise.filterMap _ (fun p q lt a found b found' => ?_) (finList_ascending 544)
  obtain ⟨x, -, rfl⟩ := candidateOf_some (st := st) found
  obtain ⟨y, -, rfl⟩ := candidateOf_some (st := st) found'
  exact lt

/-! ### The candidates left out -/

theorem prefix_keepFrom (kept cs : List IndexEntry) : kept <+: keepFrom kept cs := by
  induction cs generalizing kept with
  | nil => exact List.prefix_refl kept
  | cons e cs ih =>
    unfold keepFrom
    rw [List.foldl_cons]
    split
    · exact ih kept
    · exact (List.prefix_append kept [e]).trans (ih _)

/-- R72: one that is left out overlaps one kept that was taken before it. -/
theorem keepFrom_overlapped {kept cs : List IndexEntry} (before : ∀ a ∈ kept, ∀ e ∈ cs, TakenBefore a e)
    (ordered : cs.Pairwise TakenBefore) {e : IndexEntry} (mem : e ∈ cs) (out : e ∉ keepFrom kept cs) :
    ∃ a ∈ keepFrom kept cs, e.overlaps a = true ∧ TakenBefore a e := by
  induction cs generalizing kept with
  | nil => cases mem
  | cons c cs ih =>
    obtain ⟨first, tail⟩ := List.pairwise_cons.mp ordered
    have next : keepFrom kept (c :: cs) = keepFrom (if kept.any c.overlaps then kept else kept ++ [c]) cs := rfl
    rw [next] at out ⊢
    have earlier : ∀ a ∈ (if kept.any c.overlaps then kept else kept ++ [c]), ∀ x ∈ cs, TakenBefore a x := by
      intro a mem x after
      have old : a ∈ kept ∨ a = c := by
        split at mem
        · exact .inl mem
        · simpa using mem
      rcases old with old | rfl
      · exact before a old x (List.mem_cons_of_mem c after)
      · exact first x after
    rcases List.mem_cons.mp mem with rfl | mem
    · by_cases overlapped : kept.any e.overlaps = true
      · rw [if_pos overlapped] at out ⊢
        obtain ⟨a, old, overlap⟩ := List.any_eq_true.mp overlapped
        exact ⟨a, (prefix_keepFrom _ _).subset old, overlap, before a old e List.mem_cons_self⟩
      · rw [if_neg overlapped] at out
        exact absurd ((prefix_keepFrom _ _).subset (by simp)) out
    · exact ih earlier tail mem out

theorem overlaps_iff {a b : IndexEntry} : a.overlaps b = true ↔ b.low ≤ a.high ∧ a.low ≤ b.high := by
  simp [IndexEntry.overlaps, and_comm]

/-! ### The index (R41, R72) -/

theorem mem_scannedIndex_iff {e : IndexEntry} : e ∈ st.scannedIndex ↔ e ∈ keptOf st.candidates :=
  (scannedIndex_perm st).mem_iff

theorem candidate_of_mem_scannedIndex {e : IndexEntry} (mem : e ∈ st.scannedIndex) :
    ∃ x, st.IsCandidate e.page x ∧ e = x.entry e.page :=
  mem_candidates_iff.mp ((keptOf_sublist _).mem (mem_scannedIndex_iff.mp mem))

/-- R72: a candidate left out of the index is overlapped by one of a higher number, or of the lower page at equal
numbers. -/
theorem candidate_left_out {p : Page} {x : PageImage} (cand : st.IsCandidate p x)
    (out : ∀ e ∈ st.scannedIndex, e.page ≠ p) : ∃ e ∈ st.scannedIndex, e.low ≤ x.high ∧ x.low ≤ e.high
      ∧ (x.commit < e.commit ∨ (x.commit = e.commit ∧ e.page < p)) := by
  have mem : x.entry p ∈ st.candidates := mem_candidates_iff.mpr ⟨x, cand, rfl⟩
  have dropped : x.entry p ∉ keepFrom [] st.candidates := fun kept => out _ (mem_scannedIndex_iff.mpr kept) rfl
  obtain ⟨a, kept, overlap, before⟩ :=
    keepFrom_overlapped (fun a mem => absurd mem List.not_mem_nil) (candidates_ordered st) mem dropped
  obtain ⟨low, high⟩ := overlaps_iff.mp overlap
  exact ⟨a, mem_scannedIndex_iff.mpr kept, low, high, before⟩

theorem scannedIndex_disjoint (st : Store) :
    st.scannedIndex.Pairwise fun a b => a.low ≤ b.low ∧ ¬ (a.low ≤ b.high ∧ b.low ≤ a.high) := by
  have clear : st.scannedIndex.Pairwise ClearOf :=
    ((scannedIndex_perm st).pairwise_iff fun {a b} h => h.symm).mpr (keptOf_disjoint _)
  refine (scannedIndex_ordered st).imp₂ (fun a b low apart => ⟨low, fun overlap => ?_⟩) clear
  obtain ⟨first, second⟩ := overlap
  rcases apart with below | above
  · exact Nat.not_le.mpr below second
  · exact Nat.not_le.mpr above first

/-! ### What is not covered (R72) -/

/-- R72: `b` is the lowest badge number from `low` on that no entry covers. -/
structure LowestGap (low : Badge) (ix : List IndexEntry) (b : Badge) : Prop where
  above : low ≤ b
  top : b ≤ topBadge
  open_ : ∀ e ∈ ix, ¬ (e.low ≤ b ∧ b ≤ e.high)
  covered : ∀ k, low ≤ k → k < b → ∃ e ∈ ix, e.low ≤ k ∧ k ≤ e.high

theorem uncovered_spec {low : Badge} {ix : List IndexEntry} (apart : ix.Pairwise fun a b => a.high < b.low)
    (bounds : ∀ e ∈ ix, low ≤ e.low ∧ e.low ≤ e.high ∧ e.high ≤ topBadge) :
    (∀ b, uncovered low ix = some b → LowestGap low ix b)
    ∧ (uncovered low ix = none → ∀ b, low ≤ b → b ≤ topBadge → ∃ e ∈ ix, e.low ≤ b ∧ b ≤ e.high) := by
  induction ix generalizing low with
  | nil =>
    unfold uncovered
    split
    · rename_i le
      refine ⟨fun b eq => ?_, nofun⟩
      obtain rfl := Option.some.inj eq
      exact ⟨Nat.le_refl _, le, nofun, fun k ge lt => absurd lt (Nat.not_lt.mpr ge)⟩
    · rename_i above
      exact ⟨nofun, fun _ b ge le => absurd (Nat.le_trans ge le) above⟩
  | cons e rest ih =>
    obtain ⟨first, tail⟩ := List.pairwise_cons.mp apart
    obtain ⟨least, ordered, most⟩ := bounds e List.mem_cons_self
    unfold uncovered
    split
    · rename_i begins
      obtain ⟨gap, none_⟩ := ih (low := e.high + 1) tail fun x mem => by
        obtain ⟨-, le, top⟩ := bounds x (List.mem_cons_of_mem e mem)
        exact ⟨first x mem, le, top⟩
      have own (k : Nat) (ge : low ≤ k) (le : k ≤ e.high) : e.low ≤ k ∧ k ≤ e.high := ⟨Nat.le_trans begins ge, le⟩
      refine ⟨fun b eq => ?_, fun eq b ge le => ?_⟩
      · obtain ⟨above, top, open_, covered⟩ := gap b eq
        refine ⟨Nat.le_trans least (Nat.le_trans ordered (Nat.le_of_succ_le above)), top,
          List.forall_mem_cons.mpr ⟨fun held => Nat.not_le.mpr above held.2, open_⟩, fun k ge lt => ?_⟩
        by_cases within : k ≤ e.high
        · exact ⟨e, List.mem_cons_self, own k ge within⟩
        · obtain ⟨x, mem, held⟩ := covered k (Nat.lt_of_not_le within) lt
          exact ⟨x, List.mem_cons_of_mem e mem, held⟩
      · by_cases within : b ≤ e.high
        · exact ⟨e, List.mem_cons_self, own b ge within⟩
        · obtain ⟨x, mem, held⟩ := none_ eq b (Nat.lt_of_not_le within) le
          exact ⟨x, List.mem_cons_of_mem e mem, held⟩
    · rename_i after
      refine ⟨fun b eq => ?_, nofun⟩
      obtain rfl := Option.some.inj eq
      have below : low < e.low := Nat.lt_of_not_le after
      have inside : low ≤ e.high := Nat.le_trans least ordered
      exact ⟨Nat.le_refl _, Nat.le_trans inside most, List.forall_mem_cons.mpr
        ⟨fun held => after held.1, fun x mem held =>
          Nat.not_le.mpr (Nat.lt_of_le_of_lt inside (first x mem)) held.1⟩,
        fun k ge lt => absurd lt (Nat.not_lt.mpr ge)⟩

end

end Sys2Proof.Machine
end

section
/-! PROOF. The end of the scan (R57, R59, R65, R71, R72): the page states, the log position, the counter, and the
faults it raises. -/

namespace Sys2Proof.Machine

section
variable {st : Store}

/-! ### The page states (R71) -/

/-- R71: whether a candidate is kept shows in the index. -/
theorem kept_any_iff {p : Page} :
    (keptOf st.candidates).any (fun e => e.page == p) = true ↔ ∃ e ∈ st.scannedIndex, e.page = p := by
  simp [List.any_eq_true, mem_scannedIndex_iff]

/-- R57, R71: the state that the scan gives the page `p`. -/
def scannedStateOf (st : Store) (p : Page) : PageState :=
  scannedState st.lastLogged (keptOf st.candidates) p (st.page p)

theorem scannedStateOf_retired {p : Page} (retired : (st.page p).retired = true) : scannedStateOf st p = .retired := by
  simp only [scannedStateOf, scannedState, classify_of_retired retired]

section
variable {p : Page} {x : PageImage} (stands : (st.page p).retired = false)
include stands

theorem scannedStateOf_erased (erased : (st.page p).contents = .erased) : scannedStateOf st p = .free := by
  simp only [scannedStateOf, scannedState, classify_of_erased stands erased]

variable (held : (st.page p).contents = .programmed x)
include held

theorem scannedStateOf_unsound (unsound : x.complete = false ∨ x.high < x.low ∨ 64 < x.count) :
    scannedStateOf st p = .stale .superseded := by
  simp only [scannedStateOf, scannedState, classify_of_stale stands held unsound]

theorem scannedStateOf_unlogged (whole : x.complete = true) (ordered : x.low ≤ x.high) (few : x.count ≤ 64)
    (above : st.lastLogged < x.commit) : scannedStateOf st p = .stale .abandoned := by
  simp only [scannedStateOf, scannedState, classify_of_sound stands held whole ordered few, if_pos above]

end

theorem scannedStateOf_candidate {p : Page} {x : PageImage} (cand : st.IsCandidate p x) :
    ((∃ e ∈ st.scannedIndex, e.page = p) → scannedStateOf st p = .data)
    ∧ ((∀ e ∈ st.scannedIndex, e.page ≠ p) → scannedStateOf st p = .stale .superseded) := by
  simp only [scannedStateOf, scannedState, isCandidate_iff.mp cand]
  refine ⟨fun kept => if_pos (kept_any_iff.mpr kept), fun out => if_neg fun any => ?_⟩
  obtain ⟨e, mem, page⟩ := kept_any_iff.mp any
  exact out e mem page

/-! ### The log position (R71) and the counter (R65) -/

theorem scannedPosition_of_none (none_ : st.logNumbers = []) : st.scannedPosition = (0, 0) := by
  simp only [Store.scannedPosition, highestLogPage_none_iff.mpr none_]

/-- R71: the log position follows the slot of the highest number. -/
theorem scannedPosition_of_some (some_ : st.logNumbers ≠ []) : ∃ (p : Fin 8) (i : Fin 64),
    st.log[p][i] = some st.lastLogged
    ∧ (i.val = 63 → st.scannedPosition = (p + 1, 0)) ∧ (i.val < 63 → st.scannedPosition = (p, i + 1)) := by
  obtain ⟨p, top⟩ := Option.ne_none_iff_exists'.mp fun none_ => some_ (highestLogPage_none_iff.mp none_)
  obtain ⟨i, at_⟩ := highestLogPage_some top
  have slot (j : Fin 64) : st.log[p].toList.getD j.val none = st.log[p][j] := by
    simp [List.getD_eq_getElem?_getD]
  cases found : (finList 64).find? fun i => st.log[p].toList.getD i.val none == some st.lastLogged with
  | none =>
    have none_ := List.find?_eq_none.mp found i (mem_finList i)
    rw [slot, at_] at none_
    exact absurd (beq_self_eq_true _) none_
  | some j =>
    have holds := List.find?_some found
    rw [slot, beq_iff_eq] at holds
    refine ⟨p, j, holds, fun last => ?_, fun before => ?_⟩
    · simp only [Store.scannedPosition, top, found, Option.getD_some, if_pos last]
      rfl
    · simp only [Store.scannedPosition, top, found, Option.getD_some, if_neg (Nat.ne_of_lt before)]

theorem mem_headerNumbers_iff {n : Nat} : n ∈ st.headerNumbers ↔
    ∃ p x, (st.page p).contents = .programmed x ∧ x.complete = true ∧ x.commit = n := by
  simp only [Store.headerNumbers, List.mem_filterMap, Vector.mem_toList_iff]
  constructor
  · rintro ⟨d, mem, number⟩
    obtain ⟨p, lt, rfl⟩ := Vector.mem_iff_getElem.mp mem
    refine ⟨⟨p, lt⟩, ?_⟩
    show ∃ x, st.pages[p].contents = .programmed x ∧ _
    split at number
    · rename_i x held
      by_cases whole : x.complete = true
      · rw [if_pos whole] at number
        exact ⟨x, held, whole, Option.some.inj number⟩
      · rw [if_neg whole] at number
        cases number
    · cases number
  · rintro ⟨p, x, held, whole, rfl⟩
    exact ⟨_, Vector.getElem_mem p.isLt, by
      show (match (st.page p).contents with
        | .programmed p => if p.complete then some p.commit else none
        | .erased => none) = some x.commit
      simp only [held, whole, if_true]⟩

/-- R65, R91: the counter after the scan. -/
def scannedCounter (st : Store) : Nat := max st.counter (st.headerNumbers.foldl max st.lastLogged + 1)

theorem scannedCounter_spec (st : Store) :
    (∀ n ∈ st.logNumbers ++ st.headerNumbers, n < scannedCounter st) ∧ st.counter ≤ scannedCounter st
    ∧ (scannedCounter st = 1 ∨ scannedCounter st = st.counter
      ∨ scannedCounter st - 1 ∈ st.logNumbers ++ st.headerNumbers) := by
  obtain ⟨last, below, found⟩ := foldl_max_spec st.headerNumbers st.lastLogged
  unfold scannedCounter
  refine ⟨fun n mem => ?_, Nat.le_max_left _ _, ?_⟩
  · have le : n ≤ st.headerNumbers.foldl max st.lastLogged := by
      rcases List.mem_append.mp mem with log | header
      · exact Nat.le_trans (le_lastLogged log) last
      · exact below n header
    omega
  · rcases Nat.le_total (st.headerNumbers.foldl max st.lastLogged + 1) st.counter with kept | raised
    · exact .inr (.inl (Nat.max_eq_left kept))
    · rw [Nat.max_eq_right raised]
      rcases found with eq | mem
      · rw [eq]
        by_cases none_ : st.logNumbers = []
        · exact .inl (by rw [lastLogged_of_none none_])
        · exact .inr (.inr (List.mem_append_left _ (lastLogged_mem none_)))
      · exact .inr (.inr (List.mem_append_right _ mem))

/-! ### The store and the directory -/

/-- What the scan's end leaves of the store `st`. -/
structure StoreScanned (st u : Store) : Prop where
  pages : u.pages = st.pages
  log : u.log = st.log
  states : ∀ p, u.stateOf p = scannedStateOf st p
  erases : u.eraseQ = (finList 544).filter fun p => (u.stateOf p).isStale
  position : (u.logPage, u.logSlot) = st.scannedPosition
  counter : u.counter = scannedCounter st

theorem scanned_queue (st : Store) (kept : List IndexEntry) :
    (st.scanned kept).eraseQ = (finList 544).filter fun p => ((st.scanned kept).stateOf p).isStale := by
  unfold Store.scanned
  generalize finList 544 = ps
  rfl

theorem scanned_position (st : Store) (kept : List IndexEntry) :
    ((st.scanned kept).logPage, (st.scanned kept).logSlot) = st.scannedPosition := by
  unfold Store.scanned
  generalize st.scannedPosition = position
  rfl

theorem scanned_storeScanned (st : Store) : StoreScanned st (st.scanned (keptOf st.candidates)) := by
  have states := stateOf_scanned st (keptOf st.candidates)
  have erases := scanned_queue st (keptOf st.candidates)
  have position := scanned_position st (keptOf st.candidates)
  have counter := scanned_counter st (keptOf st.candidates)
  obtain ⟨v, page, slot, number, queue, eq⟩ := scanned_parts st (keptOf st.candidates)
  rw [eq] at states erases position counter ⊢
  exact ⟨rfl, rfl, states, erases, position, counter⟩

/-- R72: the lowest badge number that the index leaves uncovered. -/
def Store.gap (st : Store) : Option Badge := uncovered 1 st.scannedIndex

/-- R72: the directory that the scan forms. -/
structure DirScanned (st : Store) (d : Directory) : Prop where
  index : d.index = st.scannedIndex
  recordCount : d.recordCount = (st.scannedIndex.map IndexEntry.count).sum
  condition : d.condition = if (uncovered 1 st.scannedIndex).isSome then .unusable else .usable

theorem scanned_dirScanned (d : Directory) (st : Store) : DirScanned st (d.scanned (keptOf st.candidates)) := by
  have index : (keptOf st.candidates).foldl (fun ix e => insertEntry e ix) [] = st.scannedIndex := rfl
  constructor <;> simp only [Directory.scanned, index]

end

section
variable {s : State}

/-- R71, R72: the state with the page states and the directory of the scan, before its faults. -/
def State.scanKept (s : State) : State :=
  (s.mapStore fun st => st.scanned (keptOf s.store.candidates)).mapDir fun d => d.scanned (keptOf s.store.candidates)

theorem scanKept_store (s : State) : s.scanKept.store = s.store.scanned (keptOf s.store.candidates) := by
  rw [State.scanKept, mapDir_store, mapStore_store]

theorem scanKept_dir (s : State) : s.scanKept.dir = s.dir.scanned (keptOf s.store.candidates) := by
  rw [State.scanKept, mapDir_dir, mapStore_dir]

theorem scanKept_faults (s : State) : s.scanKept.faults = s.faults := by
  rw [State.scanKept, mapDir_faults, mapStore_faults]

theorem scanEnds_eq (s : State) : s.scanEnds
    = ((s.scanKept.raiseGap s.store.gap).raiseScanSpare).mapSite fun p => { p with phase := .loading } := by
  have index : s.scanKept.dir.index = s.store.scannedIndex := by
    rw [scanKept_dir]
    exact (scanned_dirScanned s.dir s.store).index
  rw [Store.gap, ← index, State.scanEnds, State.scanKept]

theorem raiseGap_store (s : State) (gap : Option Badge) : (s.raiseGap gap).store = s.store := by
  cases gap with
  | none => rfl
  | some b => exact raiseFault_store _ _ _

theorem raiseGap_dir (s : State) (gap : Option Badge) : (s.raiseGap gap).dir = s.dir := by
  cases gap with
  | none => rfl
  | some b => exact raiseFault_dir _ _ _

theorem raiseScanSpare_store (s : State) : s.raiseScanSpare.store = s.store := by
  unfold State.raiseScanSpare
  split
  · exact raiseFault_store _ _ _
  · rfl

theorem raiseScanSpare_dir (s : State) : s.raiseScanSpare.dir = s.dir := by
  unfold State.raiseScanSpare
  split
  · exact raiseFault_dir _ _ _
  · rfl

theorem scanEnds_store (s : State) : s.scanEnds.store = s.store.scanned (keptOf s.store.candidates) := by
  rw [scanEnds_eq, mapSite_store, raiseScanSpare_store, raiseGap_store, scanKept_store]

theorem scanEnds_dir (s : State) : s.scanEnds.dir = s.dir.scanned (keptOf s.store.candidates) := by
  rw [scanEnds_eq, mapSite_dir, raiseScanSpare_dir, raiseGap_dir, scanKept_dir]

theorem scanEnds_phase (s : State) : s.scanEnds.site.phase = .loading := by
  rw [scanEnds_eq, mapSite_site]

/-! ### The faults (R59, R72) -/

theorem raiseGap_after (u : State) (gap : Option Badge) : After u (u.raiseGap gap) := by
  cases gap with
  | none => exact .refl u
  | some b => exact raiseFault_after _ _ _

theorem raiseGap_only (u : State) (gap : Option Badge) : RaisedOnly [.storeFault] u (u.raiseGap gap) := by
  cases gap with
  | none => exact .refl _ u
  | some b => exact (RaisedOnly.refl _ u).raiseFault _ (by simp)

theorem raiseScanSpare_after (u : State) : After u u.raiseScanSpare := .ite (raiseFault_after _ _ _) (.refl u)

theorem raiseFault_storeDetail_of_ne (s : State) {k : FaultKind} (d : Nat) (ne : k ≠ .storeFault) :
    (s.raiseFault k d).faults.storeDetail = s.faults.storeDetail := by
  rw [raiseFault_faults]
  exact if_neg ne

/-- R59: SPARE_LOW leaves the First-Fault Record and the detail that STORE_FAULT has left. -/
theorem raiseScanSpare_keeps (u : State) : u.raiseScanSpare.faults.storeDetail = u.faults.storeDetail
    ∧ ∀ x, u.faults.first = some x → u.raiseScanSpare.faults.first = some x := by
  unfold State.raiseScanSpare
  split
  · exact ⟨raiseFault_storeDetail_of_ne u _ (by decide), fun x held => raiseFault_first_of_some u _ _ held⟩
  · exact ⟨rfl, fun _ => id⟩

/-- R59: SPARE_LOW at the end of the scan, with the sum as its detail, below 8 and not otherwise. -/
theorem scanEnds_spare (s : State) :
    (s.scanEnds.store.spareSum < 8 → Raised s s.scanEnds .spareLow s.scanEnds.store.spareSum)
    ∧ (8 ≤ s.scanEnds.store.spareSum → s.scanEnds.faults.isSet .spareLow = s.faults.isSet .spareLow) := by
  have ends := scanEnds_eq s
  have faults : s.faults = s.scanKept.faults := (scanKept_faults s).symm
  generalize s.scanKept = u at ends faults
  have only := raiseGap_only u s.store.gap
  have sum : s.scanEnds.store.spareSum = (u.raiseGap s.store.gap).store.spareSum := by
    rw [ends, mapSite_store, raiseScanSpare_store]
  rw [sum, ends]
  generalize u.raiseGap s.store.gap = v at only
  refine ⟨fun few => ?_, fun enough => ?_⟩
  · rw [State.raiseScanSpare, if_pos few]
    exact ((only.raised (by decide) (raiseFault_raised v .spareLow v.store.spareSum)).since faults).after
      (.of_parts rfl rfl rfl)
  · rw [State.raiseScanSpare, if_neg (Nat.not_lt.mpr enough), faults]
    exact only.others .spareLow (by decide)

/-- R72: STORE_FAULT for the lowest badge number not covered. -/
theorem scanEnds_gap {b : Badge} (gap : s.store.gap = some b) :
    Raised s s.scanEnds .storeFault (b % 65536) ∧ s.scanEnds.faults.storeDetail = b % 65536
    ∧ (s.faults.first = none →
        ∃ x, s.scanEnds.faults.first = some x ∧ x.kind = .storeFault ∧ x.detail = b % 65536) := by
  have ends := scanEnds_eq s
  have faults : s.faults = s.scanKept.faults := (scanKept_faults s).symm
  generalize s.scanKept = u at ends faults
  have raised : u.raiseGap s.store.gap = u.raiseFault .storeFault (b % 65536) := by rw [gap]; rfl
  obtain ⟨detail, first⟩ := raiseScanSpare_keeps (u.raiseFault .storeFault (b % 65536))
  rw [ends, raised, faults]
  refine ⟨?_, detail.trans (raiseFault_storeDetail u _), fun none_ =>
    ⟨_, first _ (raiseFault_first u .storeFault _ none_), rfl, rfl⟩⟩
  exact (((raiseFault_raised u .storeFault (b % 65536)).after (raiseScanSpare_after _)).since faults).after
    (.of_parts rfl rfl rfl)

/-- R72: the condition says whether the index covers every badge number. -/
theorem DirScanned.usable_iff {st : Store} {d : Directory} (h : DirScanned st d) (headers : HeadersInRange st) :
    d.condition = .usable ↔ ∀ b, 1 ≤ b → b ≤ topBadge → ∃ e ∈ d.index, e.low ≤ b ∧ b ≤ e.high := by
  obtain ⟨lowest, covered⟩ := uncovered_spec (scannedIndex_apart headers) fun e mem => scannedIndex_bounds headers mem
  rw [h.condition, h.index]
  cases gap : uncovered 1 st.scannedIndex with
  | none => exact iff_of_true rfl (covered gap)
  | some b =>
    obtain ⟨above, top, open_, -⟩ := lowest b gap
    refine iff_of_false nofun fun all => ?_
    obtain ⟨e, mem, held⟩ := all b above top
    exact open_ e mem held

theorem DirScanned.gap_of_unusable {st : Store} {d : Directory} (h : DirScanned st d) (headers : HeadersInRange st)
    (unusable : d.condition = .unusable) : ∃ b, st.gap = some b ∧ LowestGap 1 d.index b := by
  obtain ⟨lowest, -⟩ := uncovered_spec (scannedIndex_apart headers) fun e mem => scannedIndex_bounds headers mem
  rw [h.condition] at unusable
  rw [h.index]
  cases gap : uncovered 1 st.scannedIndex with
  | none => rw [gap] at unusable; cases unusable
  | some b => exact ⟨b, gap, lowest b gap⟩

theorem execScanEnd_of_scanning (runs : Runs s) (phase : s.site.phase = .scanning) :
    exec .scanEnd s = .next s.scanEnds.settle := by
  rw [exec_scanEnd, execScanEnd, whileRunning_of_running _ _ runs.1, if_pos phase]

end

end Sys2Proof.Machine

namespace Sys2Proof

open Machine

/-- Settles O6: the candidates kept form the index, and the rest follows from it and from the log. -/
theorem scanEndBuildsTheDirectory : Obligations.ScanEndBuildsTheDirectory := by
  unfold Obligations.ScanEndBuildsTheDirectory
  intro s runs phase
  obtain ⟨pages, log, states, erases, position, counter⟩ := scanned_storeScanned s.store
  have formed := scanned_dirScanned s.dir s.store
  rw [← scanEnds_store] at pages log states erases position counter
  rw [← scanEnds_dir] at formed
  obtain ⟨few, enough⟩ := scanEnds_spare s
  have gap (b : Badge) := scanEnds_gap (s := s) (b := b)
  have phase' := scanEnds_phase s
  have run := execScanEnd_of_scanning runs phase
  obtain ⟨above, grows, where_⟩ := scannedCounter_spec s.store
  rw [← counter] at above grows where_
  generalize s.scanEnds = t at *
  have index : t.settle.dir.index = s.store.scannedIndex := formed.index
  have state (p : Page) : t.settle.store.stateOf p = scannedStateOf s.store p := states p
  have place : (t.settle.store.logPage, t.settle.store.logSlot) = s.store.scannedPosition := position
  refine ⟨fun n => mem_logNumbers_iff, fun n => le_lastLogged, lastLogged_mem, lastLogged_of_none,
    fun n => mem_headerNumbers_iff, t.settle, run, phase', pages, log, ?_⟩
  simp only [index, state]
  refine ⟨scannedIndex_disjoint _, fun e mem => candidate_of_mem_scannedIndex mem,
    fun p x cand out => candidate_left_out cand out, formed.recordCount,
    fun p => ⟨scannedStateOf_retired, fun stands => ⟨scannedStateOf_erased stands, fun x held =>
      ⟨scannedStateOf_unsound stands held, scannedStateOf_unlogged stands held, scannedStateOf_candidate⟩⟩⟩,
    erases.trans (by simp only [states]), fun none_ => ?_, fun some_ => ?_, above, grows, where_,
    fun low => (few low).settle, enough, fun headers => ?_⟩
  · rw [scannedPosition_of_none none_] at place
    exact Prod.mk.inj place
  · obtain ⟨p, i, top, last, before⟩ := scannedPosition_of_some some_
    exact ⟨p, i, top, fun eq => Prod.mk.inj (place.trans (last eq)),
      fun lt => Prod.mk.inj (place.trans (before lt))⟩
  · refine ⟨formed.index ▸ formed.usable_iff headers, fun unusable => ?_⟩
    obtain ⟨b, gapAt, lowest⟩ := formed.gap_of_unusable headers unusable
    rw [formed.index] at lowest
    obtain ⟨raised, detail, first⟩ := gap b gapAt
    exact ⟨b, lowest.above, lowest.top, lowest.open_, lowest.covered, raised.settle, detail, first⟩

end Sys2Proof
end

section
/-! PROOF. The rows of a plan (R87, steps 3 and 4; R88, R90): what a page's edits make of its records. -/

namespace Sys2Proof.Machine

/-! ### One edit -/

theorem Edit.isPut_eq_false_iff {x : Edit} : x.isPut = false ↔ x.kind = .drop := by
  cases kind : x.kind <;> simp [Edit.isPut, kind]

theorem Edit.isPut_eq {x : Edit} : x.isPut = (x.kind != .drop) := by
  cases kind : x.kind <;> simp [Edit.isPut, kind]

theorem Edit.isPut_iff_ne_drop {x : Edit} : x.isPut = true ↔ x.kind ≠ .drop := by
  rw [← Bool.not_eq_false, not_iff_not, Edit.isPut_eq_false_iff]

/-- R46: the record that a PUT of `b` leaves, with every slot unmarked. -/
def PlanRecord.put (b : Badge) (r : Record) : PlanRecord := { badge := b, fresh := some { r with slots := 0 } }

/-- Whether a record of the badge stands among the records. -/
def holdsBadge (rs : List PlanRecord) (b : Badge) : Bool := rs.any fun r => r.badge == b

theorem holdsBadge_iff {rs : List PlanRecord} {b : Badge} : holdsBadge rs b = true ↔ b ∈ rs.map PlanRecord.badge := by
  simp [holdsBadge]

theorem holdsBadge_carried (rs : List Record) (b : Badge) :
    holdsBadge (rs.map PlanRecord.carried) b = rs.any fun r => r.badge == b := by
  rw [holdsBadge, List.any_map]
  rfl

section
variable {rs : List PlanRecord} {e : Edit}

theorem mem_applyEdit_iff {pr : PlanRecord} : pr ∈ applyEdit rs e ↔
    (∃ r, e.kind = .put r ∧ pr = .put e.badge r) ∨ (pr ∈ rs ∧ pr.badge ≠ e.badge) := by
  have others : pr ∈ (rs.filter fun r => r.badge != e.badge) ↔ pr ∈ rs ∧ pr.badge ≠ e.badge := by
    simp [List.mem_filter]
  unfold applyEdit
  cases kind : e.kind with
  | put r =>
    dsimp only
    rw [(insertRecord_perm _ _).mem_iff, List.mem_cons, others]
    refine or_congr_left ⟨fun eq => ⟨r, rfl, eq⟩, ?_⟩
    rintro ⟨_, same, eq⟩
    cases same
    exact eq
  | drop =>
    dsimp only
    rw [others]
    exact ⟨.inr, fun h => h.resolve_left fun ⟨_, put, _⟩ => nomatch put⟩

theorem holdsBadge_applyEdit_of_ne {b : Badge} (ne : b ≠ e.badge) :
    holdsBadge (applyEdit rs e) b = holdsBadge rs b := by
  rw [Bool.eq_iff_iff, holdsBadge_iff, holdsBadge_iff, List.mem_map, List.mem_map]
  constructor
  · rintro ⟨pr, mem, rfl⟩
    rcases mem_applyEdit_iff.mp mem with ⟨r, -, rfl⟩ | ⟨old, -⟩
    · exact absurd rfl ne
    · exact ⟨pr, old, rfl⟩
  · rintro ⟨pr, mem, rfl⟩
    exact ⟨pr, mem_applyEdit_iff.mpr (.inr ⟨mem, ne⟩), rfl⟩

theorem length_others (nodup : (rs.map PlanRecord.badge).Nodup) (b : Badge) :
    (rs.filter fun r => r.badge != b).length + (if holdsBadge rs b then 1 else 0) = rs.length := by
  have split_ := List.length_eq_countP_add_countP (fun r : PlanRecord => r.badge == b) (l := rs)
  have one : rs.countP (fun r : PlanRecord => r.badge == b) = if holdsBadge rs b then 1 else 0 := by
    have count := nodup.count (a := b)
    rw [List.count, List.countP_map] at count
    simpa only [Function.comp_def, ← holdsBadge_iff] using count
  have rest : (rs.filter fun r => r.badge != b).length = rs.countP fun r => decide ¬ (r.badge == b) = true := by
    rw [← List.countP_eq_length_filter]
    exact List.countP_congr fun r _ => by simp
  omega

/-- R90: a put of a badge that is not there adds a record, a drop of one that is there removes it. -/
theorem length_applyEdit (nodup : (rs.map PlanRecord.badge).Nodup) :
    (applyEdit rs e).length + (if !e.isPut && holdsBadge rs e.badge then 1 else 0)
      = rs.length + (if e.isPut && !holdsBadge rs e.badge then 1 else 0) := by
  have others := length_others nodup e.badge
  cases kind : e.kind with
  | put r =>
    have length : (applyEdit rs e).length = (rs.filter fun r => r.badge != e.badge).length + 1 := by
      simp only [applyEdit, kind, (insertRecord_perm _ _).length_eq, List.length_cons]
    rw [length, ← others]
    cases held : holdsBadge rs e.badge <;> simp [Edit.isPut, kind]
  | drop =>
    have length : (applyEdit rs e).length = (rs.filter fun r => r.badge != e.badge).length := by
      simp only [applyEdit, kind]
    rw [length, ← others]
    cases held : holdsBadge rs e.badge <;> simp [Edit.isPut, kind]

end

/-! ### The edits of a page -/

section
variable {edits : List Edit} {rs : List PlanRecord} (once : (edits.map Edit.badge).Nodup)
include once

theorem mem_applyEdits_iff {pr : PlanRecord} : pr ∈ edits.foldl applyEdit rs ↔
    (∃ x ∈ edits, ∃ r, x.kind = .put r ∧ pr = .put x.badge r) ∨ (pr ∈ rs ∧ ∀ x ∈ edits, x.badge ≠ pr.badge) := by
  induction edits generalizing rs with
  | nil => simp
  | cons e es ih =>
    obtain ⟨first, once⟩ := List.nodup_cons.mp once
    have other : ∀ x ∈ es, x.badge ≠ e.badge := fun x mem same => first (List.mem_map.mpr ⟨x, mem, same⟩)
    rw [List.foldl_cons, ih once, mem_applyEdit_iff]
    constructor
    · rintro (⟨x, mem, put⟩ | ⟨⟨r, put, eq⟩ | ⟨old, ne⟩, left⟩)
      · exact .inl ⟨x, List.mem_cons_of_mem e mem, put⟩
      · exact .inl ⟨e, List.mem_cons_self, r, put, eq⟩
      · exact .inr ⟨old, List.forall_mem_cons.mpr ⟨ne.symm, left⟩⟩
    · rintro (⟨x, mem, r, put, eq⟩ | ⟨old, left⟩)
      · rcases List.mem_cons.mp mem with rfl | mem
        · exact .inr ⟨.inl ⟨r, put, eq⟩, eq ▸ other⟩
        · exact .inl ⟨x, mem, r, put, eq⟩
      · obtain ⟨ne, left⟩ := List.forall_mem_cons.mp left
        exact .inr ⟨.inr ⟨old, ne.symm⟩, left⟩

theorem length_applyEdits {low high : Nat} (ordered : InOrder low high rs)
    (inside : ∀ e ∈ edits, low ≤ e.badge ∧ e.badge ≤ high) :
    (edits.foldl applyEdit rs).length + edits.countP (fun x => !x.isPut && holdsBadge rs x.badge)
      = rs.length + edits.countP fun x => x.isPut && !holdsBadge rs x.badge := by
  induction edits generalizing rs with
  | nil => rfl
  | cons e es ih =>
    obtain ⟨first, once⟩ := List.nodup_cons.mp once
    obtain ⟨own, inside⟩ := List.forall_mem_cons.mp inside
    have nodup : (rs.map PlanRecord.badge).Nodup := List.pairwise_map.mpr (ordered.1.imp Nat.ne_of_lt)
    have one := length_applyEdit (e := e) nodup
    have rest := ih once (applyEdit_inOrder ordered own) inside
    have held (x : Edit) (mem : x ∈ es) : holdsBadge (applyEdit rs e) x.badge = holdsBadge rs x.badge :=
      holdsBadge_applyEdit_of_ne fun same => first (List.mem_map.mpr ⟨x, mem, same⟩)
    have removed : es.countP (fun x => !x.isPut && holdsBadge (applyEdit rs e) x.badge)
        = es.countP fun x => !x.isPut && holdsBadge rs x.badge := List.countP_congr fun x mem => by rw [held x mem]
    have added : es.countP (fun x => x.isPut && !holdsBadge (applyEdit rs e) x.badge)
        = es.countP fun x => x.isPut && !holdsBadge rs x.badge := List.countP_congr fun x mem => by rw [held x mem]
    rw [List.foldl_cons, List.countP_cons, List.countP_cons]
    omega

end

/-! ### The row of a page read -/

/-- Whether the badge of the edit lies in the page's range. -/
def IndexEntry.takes (e : IndexEntry) (x : Edit) : Bool := e.low ≤ x.badge && x.badge ≤ e.high

theorem takes_iff {e : IndexEntry} {x : Edit} : e.takes x = true ↔ e.low ≤ x.badge ∧ x.badge ≤ e.high := by
  simp [IndexEntry.takes]

/-- The edits of the page's range. -/
def IndexEntry.taken (e : IndexEntry) (edits : List Edit) : List Edit := edits.filter e.takes

theorem mem_taken_iff {edits : List Edit} {e : IndexEntry} {x : Edit} :
    x ∈ e.taken edits ↔ x ∈ edits ∧ e.low ≤ x.badge ∧ x.badge ≤ e.high := by
  rw [IndexEntry.taken, List.mem_filter, takes_iff]

section
variable {edits : List Edit} {e : IndexEntry} {rs : List Record}

theorem taken_once (once : (edits.map Edit.badge).Nodup) : ((e.taken edits).map Edit.badge).Nodup :=
  once.sublist (List.filter_sublist.map _)

theorem planRow_records : (planRow edits e rs).records
    = (e.taken edits).foldl applyEdit (rs.map PlanRecord.carried) := rfl

/-- R87: of the edits of the range, those that find a record and those that put one. -/
theorem countP_edits (xs : List Edit) (held : Edit → Bool) :
    xs.countP (fun x => x.isPut && !held x) + xs.countP (fun x => !x.isPut && held x)
      + xs.countP (fun x => x.isPut && held x) = xs.countP fun x => x.isPut || held x := by
  induction xs with
  | nil => rfl
  | cons x xs ih =>
    simp only [List.countP_cons, ← ih]
    cases x.isPut <;> cases held x <;> simp <;> omega

theorem planRow_counts : (planRow edits e rs).added + (planRow edits e rs).removed + (planRow edits e rs).replaced
    = (e.taken edits).countP fun x => x.isPut || rs.any fun r => r.badge == x.badge :=
  countP_edits _ _

theorem planRow_edited_iff : (planRow edits e rs).edited = true ↔
    ∃ x ∈ e.taken edits, x.kind = .drop → ∃ r ∈ rs, r.badge = x.badge := by
  have edited : (planRow edits e rs).edited
    = decide (0 < (planRow edits e rs).added + (planRow edits e rs).removed + (planRow edits e rs).replaced) := rfl
  rw [edited, planRow_counts, decide_eq_true_iff, List.countP_pos_iff]
  refine exists_congr fun x => and_congr_right fun _ => ?_
  rw [Bool.or_eq_true, Edit.isPut_iff_ne_drop, ← imp_iff_not_or, List.any_eq_true]
  simp only [beq_iff_eq]

theorem planRow_counts_le :
    (planRow edits e rs).added + (planRow edits e rs).removed + (planRow edits e rs).replaced ≤ edits.length := by
  rw [planRow_counts]
  exact Nat.le_trans List.countP_le_length (List.length_filter_le _ _)

theorem countP_taken (p q : Edit → Bool) (same : ∀ x, p x = q x) :
    (e.taken edits).countP p = edits.countP fun x => e.low ≤ x.badge && x.badge ≤ e.high && q x := by
  rw [IndexEntry.taken, List.countP_filter]
  refine List.countP_congr fun x _ => ?_
  rw [same x, IndexEntry.takes, Bool.and_comm]

theorem mem_planRow_iff (once : (edits.map Edit.badge).Nodup) {pr : PlanRecord} :
    pr ∈ (planRow edits e rs).records ↔
      (∃ x r, x ∈ e.taken edits ∧ x.kind = .put r ∧ pr = .put x.badge r)
      ∨ ∃ r ∈ rs, (∀ x ∈ e.taken edits, x.badge ≠ r.badge) ∧ pr = .carried r := by
  rw [planRow_records, mem_applyEdits_iff (taken_once once)]
  refine or_congr ⟨?_, ?_⟩ ⟨?_, ?_⟩
  · rintro ⟨x, mem, r, put⟩
    exact ⟨x, r, mem, put⟩
  · rintro ⟨x, r, mem, put⟩
    exact ⟨x, mem, r, put⟩
  · rintro ⟨old, left⟩
    obtain ⟨r, mem, rfl⟩ := List.mem_map.mp old
    exact ⟨r, mem, left, rfl⟩
  · rintro ⟨r, mem, left, rfl⟩
    exact ⟨List.mem_map_of_mem mem, left⟩

theorem length_planRow (once : (edits.map Edit.badge).Nodup) (ordered : orderedWithin e.low e.high rs = true) :
    (planRow edits e rs).records.length + (planRow edits e rs).removed
      = rs.length + (planRow edits e rs).added := by
  have length := length_applyEdits (taken_once once) (inOrder_carried ordered) fun x mem => (mem_taken_iff.mp mem).2
  simp only [holdsBadge_carried, List.length_map] at length
  exact length

end

theorem rowOf_of_read {edits : List Edit} {st : Store} {done : List (IndexEntry × List Record)} {e : IndexEntry}
    {x : IndexEntry × List Record} (read : (done.find? fun x => x.1 == e) = some x) :
    st.rowOf edits done e = planRow edits e x.2 := by
  unfold Store.rowOf
  rw [read]

theorem rowOf_of_unread {edits : List Edit} {st : Store} {done : List (IndexEntry × List Record)} {e : IndexEntry}
    {i : PageImage} (unread : (done.find? fun x => x.1 == e) = none)
    (held : (st.page e.page).contents = .programmed i) : st.rowOf edits done e = planRow [] e i.records := by
  unfold Store.rowOf
  rw [unread]
  dsimp only
  rw [held]

end Sys2Proof.Machine
end

section
/-! PROOF. The covers of a plan (R87, step 5): a page that its edits do not empty, with the emptied pages that follow
it, and the lowest of them with the emptied pages before it. -/

namespace Sys2Proof.Machine

/-! ### The step from row to row -/

/-- R87, step 5, for one row: the covers so far, highest first, and the low bound of the emptied pages below which
none is left unemptied. -/
def coverStep (acc : List PlanCover × Option Badge) (r : PlanRow) : List PlanCover × Option Badge :=
  if r.emptied then
    match acc.1 with
    | c :: below => ({ c with high := r.entry.high, rewritten := true } :: below, acc.2)
    | [] => ([], acc.2 <|> some r.entry.low)
  else
    match acc.2 with
    | some low => ([{ r.cover with low := low, rewritten := true }], none)
    | none => (r.cover :: acc.1, none)

theorem coverRows_eq_foldl (rows : List PlanRow) (acc : List PlanCover) (floor : Option Badge) :
    coverRows rows acc floor
      = ((rows.foldl coverStep (acc, floor)).1.reverse, (rows.foldl coverStep (acc, floor)).2) := by
  induction rows generalizing acc floor with
  | nil => rfl
  | cons r rows ih =>
    unfold coverRows
    rw [List.foldl_cons]
    by_cases emptied : r.emptied = true
    · cases acc with
      | cons c below => simp [coverStep, emptied, ih]
      | nil => simp [coverStep, emptied, ih]
    · cases floor with
      | some low => simp [coverStep, emptied, ih]
      | none => simp [coverStep, emptied, ih]

/-- The covers of the rows so far, highest first, with the floor. -/
def coveredSoFar (rows : List PlanRow) : List PlanCover × Option Badge := rows.foldl coverStep ([], none)

theorem mem_planCovers_soFar {rows : List PlanRow} {c : PlanCover} :
    c ∈ planCovers rows ↔ c ∈ (coveredSoFar rows).1 := by
  rw [planCovers, coverRows_eq_foldl, List.mem_reverse, coveredSoFar]

theorem planOf_copies_soFar (rows : List PlanRow) : (planOf rows).copies = match (coveredSoFar rows).2 with
    | some _ => [emptyCopy]
    | none => (planCovers rows).flatMap PlanCover.copies := by
  rw [planOf_copies, coverRows_eq_foldl]
  rfl

section
variable {r : PlanRow} {acc : List PlanCover}

theorem coverStep_emptied_cons {c : PlanCover} {floor : Option Badge} (emptied : r.emptied = true) :
    coverStep (c :: acc, floor) r = ({ c with high := r.entry.high, rewritten := true } :: acc, floor) := by
  simp [coverStep, emptied]

theorem coverStep_emptied_nil {floor : Option Badge} (emptied : r.emptied = true) :
    coverStep ([], floor) r = ([], floor <|> some r.entry.low) := by
  simp [coverStep, emptied]

theorem coverStep_floor {low : Badge} (stays : r.emptied = false) :
    coverStep (acc, some low) r = ([{ r.cover with low := low, rewritten := true }], none) := by
  simp [coverStep, stays]

theorem coverStep_none (stays : r.emptied = false) : coverStep (acc, none) r = (r.cover :: acc, none) := by
  simp [coverStep, stays]

end

/-! ### Emptied rows -/

/-- R87: rows that are all emptied leave no cover, and the low bound of the first as the floor. -/
theorem coveredSoFar_of_emptied {rows : List PlanRow} (emptied : ∀ r ∈ rows, r.emptied = true) :
    coveredSoFar rows = ([], rows.head?.map fun r => r.entry.low) := by
  induction rows using List.reverseRecOn with
  | nil => rfl
  | append_singleton rows r ih =>
    have before := ih fun x mem => emptied x (List.mem_append_left _ mem)
    rw [coveredSoFar, List.foldl_append, ← coveredSoFar, before, List.foldl_cons, List.foldl_nil,
      coverStep_emptied_nil (emptied r (by simp))]
    cases rows <;> rfl

/-- R87: a cover widened over the emptied pages that follow it. -/
def PlanCover.widened (c : PlanCover) (gap : List PlanRow) : PlanCover :=
  { c with
    high := (gap.getLast?.map fun x => x.entry.high).getD c.high
    rewritten := c.rewritten || !gap.isEmpty }

theorem foldl_coverStep_of_emptied {gap : List PlanRow} (emptied : ∀ r ∈ gap, r.emptied = true) (c : PlanCover)
    (acc : List PlanCover) (floor : Option Badge) :
    gap.foldl coverStep (c :: acc, floor) = (c.widened gap :: acc, floor) := by
  induction gap using List.reverseRecOn with
  | nil => simp [PlanCover.widened]
  | append_singleton gap r ih =>
    rw [List.foldl_append, ih fun x mem => emptied x (List.mem_append_left _ mem), List.foldl_cons, List.foldl_nil,
      coverStep_emptied_cons (emptied r (by simp))]
    simp [PlanCover.widened]

/-! ### A row that stands (R87) -/

/-- R87: the cover of the row `r`, of the emptied rows `gap` that follow it and, where all rows below it are emptied,
of those. -/
def standingCover (below : List PlanRow) (r : PlanRow) (gap : List PlanRow) : PlanCover :=
  if below.all PlanRow.emptied && !below.isEmpty then
    PlanCover.widened { r.cover with
      low := (below.head?.map fun x => x.entry.low).getD r.entry.low
      rewritten := true } gap
  else r.cover.widened gap

/-- The covers below a row that stands. -/
def coversBelow (below : List PlanRow) : List PlanCover := (coveredSoFar below).1

theorem coversBelow_of_emptied {below : List PlanRow} (emptied : ∀ r ∈ below, r.emptied = true) :
    coversBelow below = [] := by
  rw [coversBelow, coveredSoFar_of_emptied emptied]

/-- Rows that are not all emptied have a last one that is not. -/
theorem exists_last_standing {rows : List PlanRow} (some_ : ¬ ∀ r ∈ rows, r.emptied = true) :
    ∃ below r gap, rows = below ++ r :: gap ∧ r.emptied = false ∧ ∀ x ∈ gap, x.emptied = true := by
  induction rows using List.reverseRecOn with
  | nil => exact absurd nofun some_
  | append_singleton rows x ih =>
    by_cases stays : x.emptied = true
    · have before : ¬ ∀ r ∈ rows, r.emptied = true := fun all => some_ fun r mem => by
        rcases List.mem_append.mp mem with mem | mem
        · exact all r mem
        · rw [List.mem_singleton.mp mem]
          exact stays
      obtain ⟨below, r, gap, eq, stands, emptied⟩ := ih before
      refine ⟨below, r, gap ++ [x], by simp [eq], stands, fun y mem => ?_⟩
      rcases List.mem_append.mp mem with mem | mem
      · exact emptied y mem
      · rw [List.mem_singleton.mp mem]
        exact stays
    · exact ⟨rows, x, [], rfl, by simpa using stays, nofun⟩

/-- R87: after a row that stands and the emptied rows that follow it, its cover is the highest. -/
theorem coveredSoFar_standing {below : List PlanRow} {r : PlanRow} {gap : List PlanRow} (stands : r.emptied = false)
    (emptied : ∀ x ∈ gap, x.emptied = true) :
    coveredSoFar (below ++ r :: gap) = (standingCover below r gap :: coversBelow below, none) := by
  induction size : below.length using Nat.strong_induction_on generalizing below r gap with
  | _ n ih =>
    rw [coveredSoFar, List.foldl_append, List.foldl_cons, ← coveredSoFar]
    by_cases all : ∀ x ∈ below, x.emptied = true
    · rw [coversBelow_of_emptied all, coveredSoFar_of_emptied all]
      cases below with
      | nil =>
        rw [List.head?_nil, Option.map_none, coverStep_none stands, foldl_coverStep_of_emptied emptied]
        simp [standingCover]
      | cons a as =>
        rw [List.head?_cons, Option.map_some, coverStep_floor stands, foldl_coverStep_of_emptied emptied]
        have every : ((a :: as).all PlanRow.emptied && !(a :: as).isEmpty) = true := by
          rw [List.all_eq_true.mpr all]
          rfl
        rw [standingCover, if_pos every]
        rfl
    · obtain ⟨lower, r', gap', eq, stands', emptied'⟩ := exists_last_standing all
      have before := ih lower.length (by rw [← size, eq]; simp) (below := lower) stands' emptied' rfl
      rw [← eq] at before
      have some_ : ¬ (below.all PlanRow.emptied && !below.isEmpty) = true := fun every =>
        all (List.all_eq_true.mp ((Bool.and_eq_true _ _).mp every).1)
      rw [coversBelow, before, coverStep_none stands, foldl_coverStep_of_emptied emptied]
      have own : standingCover below r gap = r.cover.widened gap := if_neg some_
      rw [own]

/-- R87: the rows that follow change the highest cover at most. -/
theorem foldl_coverStep_keeps (rows : List PlanRow) (c : PlanCover) (acc : List PlanCover) :
    ∀ x ∈ acc, x ∈ (rows.foldl coverStep (c :: acc, none)).1 := by
  induction rows generalizing c acc with
  | nil => exact fun x mem => List.mem_cons_of_mem c mem
  | cons r rows ih =>
    intro x mem
    rw [List.foldl_cons]
    by_cases emptied : r.emptied = true
    · rw [coverStep_emptied_cons emptied]
      exact ih _ acc x mem
    · rw [coverStep_none (by simpa using emptied)]
      exact ih _ (c :: acc) x (List.mem_cons_of_mem c mem)

/-- R87: the row `r` of the plan is not emptied, and `gap` are the emptied rows that follow it. -/
structure Stands (rows below : List PlanRow) (r : PlanRow) (gap above : List PlanRow) : Prop where
  rows : rows = below ++ r :: (gap ++ above)
  stays : r.emptied = false
  emptied : ∀ x ∈ gap, x.emptied = true
  next : ∀ x, above.head? = some x → x.emptied = false

section
variable {rows below gap above : List PlanRow} {r : PlanRow}

theorem Stands.cover_mem (h : Stands rows below r gap above) : standingCover below r gap ∈ planCovers rows := by
  obtain ⟨rfl, stays, emptied, next⟩ := h
  have so_far := coveredSoFar_standing (below := below) stays emptied
  rw [mem_planCovers_soFar]
  cases above with
  | nil =>
    rw [List.append_nil, so_far]
    exact List.mem_cons_self
  | cons a as =>
    have parts : below ++ r :: (gap ++ a :: as) = (below ++ r :: gap) ++ a :: as := by simp
    rw [parts, coveredSoFar, List.foldl_append, ← coveredSoFar, so_far, List.foldl_cons, coverStep_none (next a rfl)]
    exact foldl_coverStep_keeps as _ _ _ List.mem_cons_self

/-- R87: each cover of a plan is that of a row that stands. -/
theorem stands_of_mem_soFar {c : PlanCover} (mem : c ∈ (coveredSoFar rows).1) :
    ∃ below r gap above, Stands rows below r gap above ∧ c = standingCover below r gap := by
  induction size : rows.length using Nat.strong_induction_on generalizing rows with
  | _ n ih =>
    by_cases all : ∀ x ∈ rows, x.emptied = true
    · rw [coveredSoFar_of_emptied all] at mem
      cases mem
    · obtain ⟨below, r, gap, eq, stays, emptied⟩ := exists_last_standing all
      rw [eq, coveredSoFar_standing stays emptied] at mem
      rcases List.mem_cons.mp mem with rfl | mem
      · exact ⟨below, r, gap, [], ⟨by rw [List.append_nil, eq], stays, emptied, nofun⟩, rfl⟩
      · obtain ⟨lower, r', gap', above, stands, cover⟩ := ih below.length (by rw [← size, eq]; simp) mem rfl
        obtain ⟨rows', stays', emptied', next⟩ := stands
        refine ⟨lower, r', gap', above ++ r :: gap,
          ⟨by rw [eq, rows']; simp, stays', emptied', fun x head => ?_⟩, cover⟩
        cases above with
        | nil =>
          obtain rfl : r = x := by simpa using head
          exact stays
        | cons a as => exact next x head

theorem mem_planCovers_iff {c : PlanCover} :
    c ∈ planCovers rows ↔ ∃ below r gap above, Stands rows below r gap above ∧ c = standingCover below r gap := by
  constructor
  · exact fun mem => stands_of_mem_soFar (mem_planCovers_soFar.mp mem)
  · rintro ⟨below, r, gap, above, stands, rfl⟩
    exact stands.cover_mem

/-- Each row that is not emptied stands. -/
theorem exists_stands (mem : r ∈ rows) (stays : r.emptied = false) :
    ∃ below gap above, Stands rows below r gap above := by
  obtain ⟨below, rest, rfl⟩ := List.append_of_mem mem
  refine ⟨below, rest.takeWhile PlanRow.emptied, rest.dropWhile PlanRow.emptied,
    by rw [List.takeWhile_append_dropWhile], stays, fun x mem => List.mem_takeWhile_imp mem, fun x head => ?_⟩
  have := List.head?_dropWhile_not PlanRow.emptied rest
  rw [head] at this
  simpa using this

end

end Sys2Proof.Machine
end

section
/-! PROOF. What a plan holds (R87): the bounds, the records and the copies of each cover, and the pages released. -/

namespace Sys2Proof.Machine

/-! ### The cover of a row that stands -/

theorem emptied_iff {r : PlanRow} : r.emptied = true ↔ r.edited = true ∧ r.records = [] := by
  simp [PlanRow.emptied]

theorem not_emptied_iff {r : PlanRow} : r.emptied = false ↔ ¬ (r.edited = true ∧ r.records = []) := by
  rw [← emptied_iff, Bool.not_eq_true]

section
variable {rows below gap above : List PlanRow} {r : PlanRow}

theorem standingCover_page : (standingCover below r gap).page = r.entry.page := by
  unfold standingCover
  split <;> rfl

theorem standingCover_records : (standingCover below r gap).records = r.records := by
  unfold standingCover
  split <;> rfl

theorem standingCover_high :
    (standingCover below r gap).high = (gap.getLast?.map fun x => x.entry.high).getD r.entry.high := by
  unfold standingCover
  split <;> rfl

theorem standingCover_low_of_emptied (all : ∀ x ∈ below, x.emptied = true) :
    (standingCover below r gap).low = (below.head?.map fun x => x.entry.low).getD r.entry.low := by
  cases below with
  | nil => rfl
  | cons a as =>
    have every : ((a :: as).all PlanRow.emptied && !(a :: as).isEmpty) = true := by
      rw [List.all_eq_true.mpr all]
      rfl
    rw [standingCover, if_pos every]
    rfl

theorem standingCover_low_of_not (some_ : ¬ ∀ x ∈ below, x.emptied = true) :
    (standingCover below r gap).low = r.entry.low := by
  rw [standingCover, if_neg fun every => some_ (List.all_eq_true.mp ((Bool.and_eq_true _ _).mp every).1)]
  rfl

theorem standingCover_rewritten_iff : (standingCover below r gap).rewritten = true ↔
    r.edited = true ∨ gap ≠ [] ∨ (below ≠ [] ∧ ∀ x ∈ below, x.emptied = true) := by
  unfold standingCover
  split
  · rename_i every
    obtain ⟨all, some_⟩ := (Bool.and_eq_true _ _).mp every
    refine iff_of_true (by simp [PlanCover.widened]) (.inr (.inr ⟨by simpa using some_, List.all_eq_true.mp all⟩))
  · rename_i none_
    have none_ : ¬ (below ≠ [] ∧ ∀ x ∈ below, x.emptied = true) := by
      rintro ⟨some_, all⟩
      refine none_ ?_
      rw [List.all_eq_true.mpr all, List.isEmpty_eq_false_iff.mpr some_]
      rfl
    have cover : (r.cover.widened gap).rewritten = (r.edited || !gap.isEmpty) := rfl
    rw [cover, Bool.or_eq_true, or_iff_left (b := below ≠ [] ∧ _) none_]
    simp

theorem Stands.not_all_emptied (h : Stands rows below r gap above) : ¬ ∀ x ∈ rows, x.emptied = true := fun all => by
  have own := all r (by rw [h.rows]; simp)
  rw [h.stays] at own
  cases own

variable (h : Stands rows below r gap above) (spans : Spans 1 (rows.map PlanRow.range) (topBadge + 1))
include h spans

theorem Stands.ranges : ∃ mid next, Spans 1 (below.map PlanRow.range) mid
    ∧ Spans mid ((r :: gap).map PlanRow.range) next := by
  rw [h.rows, List.map_append] at spans
  obtain ⟨mid, before, rest⟩ := spans_append.mp spans
  rw [← List.cons_append, List.map_append] at rest
  obtain ⟨next, own, -⟩ := spans_append.mp rest
  exact ⟨mid, next, before, own⟩

theorem Stands.low_of_emptied (all : ∀ x ∈ below, x.emptied = true) : (standingCover below r gap).low = 1 := by
  obtain ⟨mid, next, before, first, -⟩ := h.ranges spans
  rw [standingCover_low_of_emptied all]
  cases below with
  | nil => exact first.trans before.symm
  | cons a as => exact before.1

theorem Stands.low_le : (standingCover below r gap).low ≤ r.entry.low := by
  by_cases all : ∀ x ∈ below, x.emptied = true
  · rw [h.low_of_emptied spans all]
    refine (spans.bounds (r := r.range) (List.mem_map_of_mem ?_)).1
    rw [h.rows]
    simp
  · exact Nat.le_of_eq (standingCover_low_of_not all)

theorem Stands.le_high : r.entry.high ≤ (standingCover below r gap).high := by
  obtain ⟨mid, next, -, own⟩ := h.ranges spans
  rw [standingCover_high]
  cases last : gap.getLast? with
  | none => exact Nat.le_refl _
  | some x =>
    have mem : x.range ∈ gap.map PlanRow.range := List.mem_map_of_mem (List.mem_of_getLast? last)
    have apart : r.range.2 < x.range.1 := (List.pairwise_cons.mp own.apart).1 _ mem
    have ordered : x.range.1 ≤ x.range.2 := (own.bounds (List.mem_cons_of_mem _ mem)).2.1
    exact Nat.le_of_lt (Nat.lt_of_lt_of_le apart ordered)

end

/-! ### The copies of a cover -/

theorem rewritten_of_mem_copies {c : PlanCover} {x : Copy} (mem : x ∈ c.copies) : c.rewritten = true := by
  by_contra kept
  rw [coverCopies_of_kept (by simpa using kept)] at mem
  cases mem

section
variable {c : PlanCover} (rewritten : c.rewritten = true)
include rewritten

theorem coverCopies_of_few (few : c.records.length ≤ 64) :
    c.copies = [{ low := c.low, high := c.high, records := c.records, page := none, failures := 0 }] := by
  simp [PlanCover.copies, rewritten, few]

/-- R87: the cut of more than 64 records at the median. -/
theorem coverCopies_of_many (many : 64 < c.records.length) :
    ∃ first, (c.records.drop (c.records.length - c.records.length / 2)).head? = some first
      ∧ c.copies = [
        { low := c.low, high := first.badge - 1
          records := c.records.take (c.records.length - c.records.length / 2), page := none, failures := 0 },
        { low := first.badge, high := c.high
          records := c.records.drop (c.records.length - c.records.length / 2), page := none, failures := 0 }] := by
  have upper : 0 < (c.records.drop (c.records.length - c.records.length / 2)).length := by
    rw [List.length_drop]
    omega
  obtain ⟨first, rest, head⟩ := List.exists_cons_of_length_pos upper
  refine ⟨first, by rw [head]; rfl, ?_⟩
  simp [PlanCover.copies, rewritten, Nat.not_le.mpr many, head]

theorem coverCopies_flatMap : c.copies.flatMap Copy.records = c.records := by
  rcases Nat.lt_or_ge 64 c.records.length with many | few
  · obtain ⟨first, -, copies⟩ := coverCopies_of_many rewritten many
    simp [copies]
  · simp [coverCopies_of_few rewritten few]

/-- R40, R87: each copy of a cover holds its records in order. -/
theorem coverCopies_inOrder (ordered : InOrder c.low c.high c.records) {x : Copy} (mem : x ∈ c.copies) :
    x.failures = 0 ∧ InOrder x.low x.high x.records := by
  rcases Nat.lt_or_ge 64 c.records.length with many | few
  · obtain ⟨first, head, copies⟩ := coverCopies_of_many rewritten many
    obtain ⟨ascending, within⟩ := ordered
    have parts := List.take_append_drop (c.records.length - c.records.length / 2) c.records
    rw [copies] at mem
    generalize c.records.take (c.records.length - c.records.length / 2) = lower at parts mem
    generalize c.records.drop (c.records.length - c.records.length / 2) = upper at parts mem head
    obtain ⟨rest, rfl⟩ := List.head?_eq_some_iff.mp head
    rw [← parts] at ascending within
    obtain ⟨below, above, between⟩ := List.pairwise_append.mp ascending
    rcases List.mem_cons.mp mem with rfl | mem
    · refine ⟨rfl, below, fun r mem => ⟨(within r (List.mem_append_left _ mem)).1, ?_⟩⟩
      exact Nat.le_sub_one_of_lt (between r mem first List.mem_cons_self)
    · obtain rfl := List.mem_singleton.mp mem
      refine ⟨rfl, above, fun r mem => ⟨?_, (within r (List.mem_append_right _ mem)).2⟩⟩
      rcases List.mem_cons.mp mem with rfl | mem
      · exact Nat.le_refl _
      · exact Nat.le_of_lt ((List.pairwise_cons.mp above).1 r mem)
  · rw [coverCopies_of_few rewritten few] at mem
    obtain rfl := List.mem_singleton.mp mem
    exact ⟨rfl, ordered⟩

end

/-! ### The pages released -/

section
variable {rows below gap above : List PlanRow} {r : PlanRow}

theorem mem_released_iff {q : Page} : q ∈ (planOf rows).released ↔
    (∃ r ∈ rows, r.emptied = true ∧ r.entry.page = q) ∨ ∃ c ∈ planCovers rows, c.rewritten = true ∧ c.page = q := by
  simp [planOf_released, List.mem_append, List.mem_map, List.mem_filter, and_assoc]

variable (pages : (rows.map fun r => r.entry.page).Nodup)
include pages

theorem eq_of_same_page {r r' : PlanRow} (mem : r ∈ rows) (mem' : r' ∈ rows) (same : r.entry.page = r'.entry.page) :
    r = r' :=
  List.inj_on_of_nodup_map pages mem mem' same

theorem cover_eq_of_same_page {c c' : PlanCover} (mem : c ∈ planCovers rows) (mem' : c' ∈ planCovers rows)
    (same : c.page = c'.page) : c = c' := by
  refine List.inj_on_of_nodup_map (f := PlanCover.page) ?_ mem mem' same
  rw [planCovers_pages]
  exact pages.sublist (List.filter_sublist.map _)

/-- R87: a page that is not emptied is replaced where its cover is rewritten. -/
theorem Stands.released_iff (h : Stands rows below r gap above) :
    r.entry.page ∈ (planOf rows).released ↔ (standingCover below r gap).rewritten = true := by
  have own : r ∈ rows := by
    rw [h.rows]
    simp
  rw [mem_released_iff]
  constructor
  · rintro (⟨r', mem, emptied, same⟩ | ⟨c, mem, rewritten, same⟩)
    · obtain rfl := eq_of_same_page pages mem own same
      exact absurd emptied (by simp [h.stays])
    · rw [← cover_eq_of_same_page pages mem h.cover_mem (by rw [same, standingCover_page])]
      exact rewritten
  · exact fun rewritten => .inr ⟨_, h.cover_mem, rewritten, standingCover_page⟩

omit pages in
theorem released_of_emptied (mem : r ∈ rows) (emptied : r.emptied = true) : r.entry.page ∈ (planOf rows).released :=
  mem_released_iff.mpr (.inl ⟨r, mem, emptied, rfl⟩)

/-- R87: a page that its edits touch is replaced. -/
theorem released_of_edited (mem : r ∈ rows) (edited : r.edited = true) : r.entry.page ∈ (planOf rows).released := by
  by_cases emptied : r.emptied = true
  · exact released_of_emptied mem emptied
  · obtain ⟨below, gap, above, stands⟩ := exists_stands mem (by simpa using emptied)
    exact (stands.released_iff pages).mpr (standingCover_rewritten_iff.mpr (.inl edited))

end

/-! ### The copies of a plan -/

section
variable {rows : List PlanRow}

theorem planOf_copies_of_emptied (some_ : rows ≠ []) (all : ∀ r ∈ rows, r.emptied = true) :
    (planOf rows).copies = [emptyCopy] := by
  rw [planOf_copies_soFar, coveredSoFar_of_emptied all]
  obtain ⟨r, rest, rfl⟩ := List.exists_cons_of_ne_nil some_
  rfl

theorem planOf_copies_of_standing (some_ : ¬ ∀ r ∈ rows, r.emptied = true) :
    (planOf rows).copies = (planCovers rows).flatMap PlanCover.copies := by
  obtain ⟨below, r, gap, eq, stays, emptied⟩ := exists_last_standing some_
  have so_far := coveredSoFar_standing (below := below) stays emptied
  rw [← eq] at so_far
  rw [planOf_copies_soFar, so_far]

variable (spans : Spans 1 (rows.map PlanRow.range) (topBadge + 1))
  (ordered : ∀ r ∈ rows, InOrder r.entry.low r.entry.high r.records)
include spans ordered

theorem planCovers_inOrder {c : PlanCover} (mem : c ∈ planCovers rows) : InOrder c.low c.high c.records := by
  obtain ⟨below, r, gap, above, stands, rfl⟩ := mem_planCovers_iff.mp mem
  obtain ⟨ascending, within⟩ := ordered r (by rw [stands.rows]; simp)
  rw [standingCover_records]
  refine ⟨ascending, fun pr mem => ?_⟩
  obtain ⟨least, most⟩ := within pr mem
  exact ⟨Nat.le_trans (stands.low_le spans) least, Nat.le_trans most (stands.le_high spans)⟩

/-- R40, R87: each copy of a plan holds its records in order. -/
theorem planOf_copies_inOrder {x : Copy} (mem : x ∈ (planOf rows).copies) :
    x.failures = 0 ∧ InOrder x.low x.high x.records := by
  by_cases all : ∀ r ∈ rows, r.emptied = true
  · by_cases none_ : rows = []
    · subst none_
      cases mem
    · rw [planOf_copies_of_emptied none_ all, List.mem_singleton] at mem
      rw [mem]
      exact ⟨rfl, List.Pairwise.nil, nofun⟩
  · rw [planOf_copies_of_standing all] at mem
    obtain ⟨c, cover, mem⟩ := List.mem_flatMap.mp mem
    exact coverCopies_inOrder (rewritten_of_mem_copies mem) (planCovers_inOrder spans ordered cover) mem

omit ordered in
/-- R87: the new copies are in ascending order of low bound. -/
theorem planOf_copies_ascending (fits : ∀ r ∈ rows, Fits r.entry.low r.entry.high r.records) :
    (planOf rows).copies.Pairwise fun a b => a.high < b.low := by
  by_cases all : ∀ r ∈ rows, r.emptied = true
  · by_cases none_ : rows = []
    · subst none_
      exact List.Pairwise.nil
    · rw [planOf_copies_of_emptied none_ all]
      exact List.pairwise_singleton _ _
  · have covered := planCovers_coveredTo spans fits
    obtain ⟨below, r, gap, eq, stays, emptied⟩ := exists_last_standing all
    have so_far := coveredSoFar_standing (below := below) stays emptied
    rw [← eq] at so_far
    have floor : (coverRows rows [] none).2 = none := by
      rw [coverRows_eq_foldl]
      exact congrArg Prod.snd so_far
    have whole := covered.spans floor
    rw [List.reverse_reverse] at whole
    have cut : Spans 1 ((planCovers rows).flatMap PlanCover.pieces) (topBadge + 1) :=
      whole.flatMap fun c mem => PlanCover.pieces_spans (planCovers_fits spans fits mem)
        (whole.bounds (List.mem_map_of_mem mem)).2.1
    have sublist : ((planOf rows).copies.map Copy.range).Sublist ((planCovers rows).flatMap PlanCover.pieces) := by
      rw [planOf_copies_of_standing all, List.map_flatMap]
      generalize planCovers rows = cs
      induction cs with
      | nil => exact List.Sublist.refl _
      | cons c cs ih => exact (List.sublist_append_left _ _).append ih
    exact List.pairwise_map.mp (cut.apart.sublist sublist)

omit spans ordered in
/-- R87: the copies hold exactly the records of the pages they replace. -/
theorem mem_planOf_copies_iff (pages : (rows.map fun r => r.entry.page).Nodup) {pr : PlanRecord} :
    (∃ c ∈ (planOf rows).copies, pr ∈ c.records)
      ↔ ∃ r, (r ∈ rows ∧ r.entry.page ∈ (planOf rows).released) ∧ pr ∈ r.records := by
  constructor
  · rintro ⟨x, copy, mem⟩
    by_cases all : ∀ r ∈ rows, r.emptied = true
    · by_cases none_ : rows = []
      · subst none_
        cases copy
      · rw [planOf_copies_of_emptied none_ all, List.mem_singleton] at copy
        rw [copy] at mem
        cases mem
    · rw [planOf_copies_of_standing all] at copy
      obtain ⟨c, cover, copy⟩ := List.mem_flatMap.mp copy
      obtain ⟨below, r, gap, above, stands, rfl⟩ := mem_planCovers_iff.mp cover
      have rewritten := rewritten_of_mem_copies copy
      refine ⟨r, ⟨by rw [stands.rows]; simp, (stands.released_iff pages).mpr rewritten⟩, ?_⟩
      rw [← standingCover_records (below := below) (gap := gap), ← coverCopies_flatMap rewritten]
      exact List.mem_flatMap.mpr ⟨x, copy, mem⟩
  · rintro ⟨r, ⟨row, released⟩, mem⟩
    have stays : r.emptied = false := by
      rw [not_emptied_iff]
      rintro ⟨-, none_⟩
      rw [none_] at mem
      cases mem
    obtain ⟨below, gap, above, stands⟩ := exists_stands row stays
    have rewritten := (stands.released_iff pages).mp released
    rw [planOf_copies_of_standing stands.not_all_emptied]
    rw [← standingCover_records (below := below) (gap := gap), ← coverCopies_flatMap rewritten] at mem
    obtain ⟨x, copy, mem⟩ := List.mem_flatMap.mp mem
    exact ⟨x, List.mem_flatMap.mpr ⟨_, stands.cover_mem, copy⟩, mem⟩

end

end Sys2Proof.Machine
end

section
/-! PROOF. The layout of a COMPACT (R75) and the purge list (R90), and the obligation on plans and layouts. -/

namespace Sys2Proof.Machine

/-! ### Runs of 64 -/

section
variable {α : Type}

theorem runsOf64_flatten {fuel : Nat} {rs : List α} (enough : rs.length < fuel) : (runsOf64 fuel rs).flatten = rs := by
  induction fuel generalizing rs with
  | zero => exact absurd enough (Nat.not_lt_zero _)
  | succ fuel ih =>
    unfold runsOf64
    split
    · simp
    · rw [List.flatten_cons, ih (by rw [List.length_drop]; omega), List.take_append_drop]

theorem runsOf64_length {fuel : Nat} {rs : List α} (enough : rs.length < fuel) :
    (runsOf64 fuel rs).length = max 1 ((rs.length + 63) / 64) := by
  induction fuel generalizing rs with
  | zero => exact absurd enough (Nat.not_lt_zero _)
  | succ fuel ih =>
    unfold runsOf64
    split
    · rw [List.length_singleton]
      omega
    · rw [List.length_cons, ih (by rw [List.length_drop]; omega), List.length_drop]
      omega

theorem runsOf64_ne_nil (fuel : Nat) (rs : List α) : runsOf64 (fuel + 1) rs ≠ [] := by
  unfold runsOf64
  split
  · exact List.cons_ne_nil _ _
  · exact List.cons_ne_nil _ _

/-- R75: every run but the last is full. -/
theorem runsOf64_full {fuel : Nat} {rs : List α} (enough : rs.length < fuel) :
    ∀ run ∈ (runsOf64 fuel rs).dropLast, run.length = 64 := by
  induction fuel generalizing rs with
  | zero => exact absurd enough (Nat.not_lt_zero _)
  | succ fuel ih =>
    unfold runsOf64
    split
    · exact nofun
    · obtain ⟨fuel, rfl⟩ : ∃ n, fuel = n + 1 := ⟨fuel - 1, by omega⟩
      rw [List.dropLast_cons_of_ne_nil (runsOf64_ne_nil fuel _)]
      refine List.forall_mem_cons.mpr ⟨by rw [List.length_take]; omega, ih (by rw [List.length_drop]; omega)⟩

/-- R75: of more than one run none is empty. -/
theorem runsOf64_nonempty {fuel : Nat} {rs : List α} (enough : rs.length < fuel) (some_ : rs ≠ []) :
    ∀ run ∈ runsOf64 fuel rs, run ≠ [] := by
  induction fuel generalizing rs with
  | zero => exact absurd enough (Nat.not_lt_zero _)
  | succ fuel ih =>
    have pos : 0 < rs.length := List.length_pos_iff.mpr some_
    unfold runsOf64
    split
    · exact List.forall_mem_singleton.mpr some_
    · have left : rs.drop 64 ≠ [] := List.length_pos_iff.mp (by rw [List.length_drop]; omega)
      have taken : rs.take 64 ≠ [] := List.length_pos_iff.mp (by rw [List.length_take]; omega)
      exact List.forall_mem_cons.mpr ⟨taken, ih (by rw [List.length_drop]; omega) left⟩

end

/-! ### The layout -/

/-- R75: each run becomes one copy with its records, on no page yet. -/
theorem compactCopies_runs (low : Badge) (runs : List (List Record)) :
    (compactCopies low runs).map Copy.records = runs.map (List.map PlanRecord.carried) := by
  induction runs generalizing low with
  | nil => rfl
  | cons run runs ih =>
    cases runs with
    | nil => rfl
    | cons next rest =>
      rw [compactCopies, List.map_cons, ih, List.map_cons (l := next :: rest)]

theorem compactCopies_failures {low : Badge} {runs : List (List Record)} {x : Copy}
    (mem : x ∈ compactCopies low runs) : x.failures = 0 := by
  induction runs generalizing low with
  | nil => cases mem
  | cons run runs ih =>
    cases runs with
    | nil =>
      obtain rfl := List.mem_singleton.mp mem
      rfl
    | cons next rest =>
      rcases List.mem_cons.mp mem with rfl | mem
      · rfl
      · exact ih mem

/-- R75: each copy's range holds its records. -/
theorem compactCopies_within {low : Badge} {runs : List (List Record)}
    (ordered : orderedWithin low topBadge runs.flatten = true) (some_ : ∀ run ∈ runs.tail, run ≠ []) {x : Copy}
    (mem : x ∈ compactCopies low runs) : ∀ pr ∈ x.records, x.low ≤ pr.badge ∧ pr.badge ≤ x.high := by
  induction runs generalizing low with
  | nil => cases mem
  | cons run runs ih =>
    obtain ⟨ascending, within⟩ := orderedWithin_iff.mp ordered
    rw [List.flatten_cons] at ascending within
    cases runs with
    | nil =>
      obtain rfl := List.mem_singleton.mp mem
      exact List.forall_mem_map.mpr fun r mem => within r (List.mem_append_left _ mem)
    | cons next rest =>
      obtain ⟨b, bs, rfl⟩ := List.exists_cons_of_ne_nil (some_ next List.mem_cons_self)
      obtain ⟨-, later, between⟩ := List.pairwise_append.mp ascending
      have first : b ∈ ((b :: bs) :: rest).flatten := by simp
      rcases List.mem_cons.mp mem with rfl | mem
      · refine List.forall_mem_map.mpr fun r mem => ⟨(within r (List.mem_append_left _ mem)).1, ?_⟩
        exact Nat.le_sub_one_of_lt (between r mem b first)
      · refine ih (low := b.badge) ?_ (fun run mem => some_ run (List.mem_of_mem_tail mem)) mem
        refine orderedWithin_iff.mpr ⟨later, fun r mem => ⟨?_, (within r (List.mem_append_right _ mem)).2⟩⟩
        rcases List.mem_cons.mp mem with rfl | mem
        · exact Nat.le_refl _
        · exact Nat.le_of_lt ((List.pairwise_cons.mp later).1 r mem)

section
variable {rs : List Record}

theorem compactLayout_runs (rs : List Record) : (compactLayout rs).map Copy.records
    = (runsOf64 (rs.length + 1) rs).map (List.map PlanRecord.carried) :=
  compactCopies_runs _ _

theorem compactLayout_length (rs : List Record) : (compactLayout rs).length = max 1 ((rs.length + 63) / 64) := by
  have runs := congrArg List.length (compactLayout_runs rs)
  rw [List.length_map, List.length_map, runsOf64_length (Nat.lt_succ_self _)] at runs
  exact runs

theorem compactLayout_flatMap (rs : List Record) :
    (compactLayout rs).flatMap Copy.records = rs.map PlanRecord.carried := by
  rw [List.flatMap_def, compactLayout_runs, ← List.map_flatten, runsOf64_flatten (Nat.lt_succ_self _)]

theorem compactLayout_full {c : Copy} (mem : c ∈ (compactLayout rs).dropLast) : c.records.length = 64 := by
  have run : c.records ∈ ((compactLayout rs).map Copy.records).dropLast := by
    rw [← List.map_dropLast]
    exact List.mem_map_of_mem mem
  rw [compactLayout_runs, ← List.map_dropLast] at run
  obtain ⟨run, mem, eq⟩ := List.mem_map.mp run
  rw [← eq, List.length_map]
  exact runsOf64_full (Nat.lt_succ_self _) run mem

theorem compactLayout_within (ordered : orderedWithin 1 topBadge rs = true) {c : Copy} (mem : c ∈ compactLayout rs) :
    ∀ pr ∈ c.records, c.low ≤ pr.badge ∧ pr.badge ≤ c.high := by
  refine compactCopies_within ?_ (fun run mem => ?_) mem
  · rw [runsOf64_flatten (Nat.lt_succ_self _)]
    exact ordered
  · by_cases none_ : rs = []
    · subst none_
      cases mem
    · exact runsOf64_nonempty (Nat.lt_succ_self _) none_ run (List.mem_of_mem_tail mem)

end

/-- R90: the purge list names the badges dropped and those put other than ACTIVE. -/
theorem mem_purgeListOf_iff {edits : List Edit} {b : Badge} : b ∈ purgeListOf edits ↔
    ∃ x ∈ edits, x.badge = b ∧ (x.kind = .drop ∨ ∃ r, x.kind = .put r ∧ r.status ≠ .active) := by
  rw [purgeListOf, List.mem_filterMap]
  refine exists_congr fun x => and_congr_right fun _ => ?_
  cases kind : x.kind with
  | drop => simp
  | put r =>
    by_cases active : r.status = .active
    · simp [active]
    · simp [active]

/-! ### The rows that stand, as the obligation says it -/

/-- R87: the row is edited, and its edits leave it no record. -/
def PlanRow.Gone (r : PlanRow) : Prop := r.edited = true ∧ r.records = []

/-- A new copy before its PROGRAM. -/
def newCopy (low high : Badge) (rs : List PlanRecord) : Copy :=
  { low := low, high := high, records := rs, page := none, failures := 0 }

theorem stands_iff {rows below : List PlanRow} {r : PlanRow} {gap above : List PlanRow} :
    Stands rows below r gap above ↔ rows = below ++ r :: (gap ++ above) ∧ ¬ r.Gone ∧ (∀ x ∈ gap, x.Gone)
      ∧ ∀ x, above.head? = some x → ¬ x.Gone := by
  constructor
  · rintro ⟨rows, stays, emptied, next⟩
    exact ⟨rows, not_emptied_iff.mp stays, fun x mem => emptied_iff.mp (emptied x mem),
      fun x head => not_emptied_iff.mp (next x head)⟩
  · rintro ⟨rows, stays, emptied, next⟩
    exact ⟨rows, not_emptied_iff.mpr stays, fun x mem => emptied_iff.mpr (emptied x mem),
      fun x head => not_emptied_iff.mpr (next x head)⟩

theorem all_gone_iff {rows : List PlanRow} : (∀ r ∈ rows, r.Gone) ↔ ∀ r ∈ rows, r.emptied = true :=
  forall₂_congr fun _ _ => emptied_iff.symm

theorem rewritten_iff {below gap : List PlanRow} {r : PlanRow} : (standingCover below r gap).rewritten = true ↔
    r.edited = true ∨ gap ≠ [] ∨ (below ≠ [] ∧ ∀ x ∈ below, x.Gone) := by
  rw [standingCover_rewritten_iff, all_gone_iff]

/-- R87: the bounds and the copies of a row that stands and is rewritten. -/
theorem Stands.becomes {rows below gap above : List PlanRow} {r : PlanRow} (h : Stands rows below r gap above)
    (spans : Spans 1 (rows.map PlanRow.range) (topBadge + 1))
    (rewritten : (standingCover below r gap).rewritten = true) :
    let k := r.records.length
    let lower := r.records.take (k - k / 2)
    let upper := r.records.drop (k - k / 2)
    let high := (gap.getLast?.map fun x => x.entry.high).getD r.entry.high
    ∃ low, ((∀ x ∈ below, x.Gone) → low = 1) ∧ ((¬ ∀ x ∈ below, x.Gone) → low = r.entry.low)
      ∧ (k ≤ 64 → (standingCover below r gap).copies = [newCopy low high r.records])
      ∧ (64 < k → ∃ first, upper.head? = some first
          ∧ (standingCover below r gap).copies
            = [newCopy low (first.badge - 1) lower, newCopy first.badge high upper]) := by
  have few := coverCopies_of_few rewritten
  have many := coverCopies_of_many rewritten
  rw [standingCover_records, standingCover_high] at few many
  rw [all_gone_iff]
  exact ⟨_, h.low_of_emptied spans, standingCover_low_of_not, few, many⟩

end Sys2Proof.Machine


namespace Sys2Proof

open Machine

/-- Settles O23: the covers of the rows that stand, and their copies, are the plan. -/
theorem plansAndLayoutsTileTheRange : Obligations.PlansAndLayoutsTileTheRange := by
  unfold Obligations.PlansAndLayoutsTileTheRange
  refine ⟨fun edits e rs once ordered => ?_, fun edits st done e => ⟨fun x read => rowOf_of_read read,
    fun i unread held => rowOf_of_unread unread held⟩, fun rows tiled pages rowsRight => ?_, fun rs ordered => ?_,
    fun edits b => mem_purgeListOf_iff⟩
  · obtain ⟨ascending, within⟩ := planRow_inOrder (edits := edits) ordered
    refine ⟨rfl, ascending, within, fun pr => ?_, length_planRow once ordered,
      ⟨?_, ?_, ?_⟩, ?_, planRow_counts_le⟩
    · simp only [mem_planRow_iff once, mem_taken_iff]
      rfl
    · exact countP_taken _ _ fun x => by rw [Edit.isPut_eq]
    · exact countP_taken _ _ fun x => by rw [Edit.isPut_eq, bne, Bool.not_not]
    · exact countP_taken _ _ fun x => by rw [Edit.isPut_eq]
    · simp only [planRow_edited_iff, mem_taken_iff]
  · have spans : Spans 1 (rows.map PlanRow.range) (topBadge + 1) := tiles_iff_spans.mp tiled
    have ordered : ∀ r ∈ rows, InOrder r.entry.low r.entry.high r.records := fun r mem => by
      obtain ⟨ascending, -, within⟩ := rowsRight r mem
      exact ⟨ascending, within⟩
    have fits : ∀ r ∈ rows, Fits r.entry.low r.entry.high r.records := fun r mem => by
      obtain ⟨-, few, -⟩ := rowsRight r mem
      exact ⟨few, fun _ => ordered r mem⟩
    refine ⟨(planOf_partition pages spans fits).perm List.perm_append_comm,
      fun r mem edited => ⟨mem, released_of_edited pages mem edited⟩, fun q mem => planOf_released_subset mem,
      fun c mem => ?_, fun pr => mem_planOf_copies_iff pages, planOf_copies_ascending spans fits, rfl, rfl, rfl,
      fun r mem gone => released_of_emptied mem (emptied_iff.mpr gone), fun below r gap above stands => ?_,
      fun some_ c copy => ?_, fun some_ gone => planOf_copies_of_emptied some_ (all_gone_iff.mp gone)⟩
    · obtain ⟨page, few⟩ := planOf_copies_records spans fits mem
      obtain ⟨failures, ascending, within⟩ := planOf_copies_inOrder spans ordered mem
      exact ⟨page, failures, few, ascending, within⟩
    · have stands := stands_iff.mpr stands
      refine ⟨(stands.released_iff pages).trans rewritten_iff, fun rewritten => ?_⟩
      have rewritten := rewritten_iff.mpr rewritten
      refine ⟨(standingCover below r gap).copies, stands.becomes spans rewritten, fun c mem => ?_⟩
      rw [planOf_copies_of_standing stands.not_all_emptied]
      exact List.mem_flatMap.mpr ⟨_, stands.cover_mem, mem⟩
    · have standing : ¬ ∀ r ∈ rows, r.emptied = true := fun all => by
        obtain ⟨r, mem, stays⟩ := some_
        exact stays (emptied_iff.mp (all r mem))
      rw [planOf_copies_of_standing standing] at copy
      obtain ⟨x, cover, mem⟩ := List.mem_flatMap.mp copy
      obtain ⟨below, r, gap, above, stands, rfl⟩ := mem_planCovers_iff.mp cover
      have rewritten := rewritten_of_mem_copies mem
      exact ⟨below, r, gap, above, _, stands_iff.mp stands, rewritten_iff.mp rewritten,
        stands.becomes spans rewritten, mem⟩
  · refine ⟨tiles_iff_spans.mpr (compactCopies_spans (Nat.lt_succ_self _) (by decide) ordered), compactLayout_length rs,
      compactLayout_flatMap rs, fun c mem => ?_, fun c mem => compactLayout_full mem⟩
    obtain ⟨page, few⟩ := compactLayout_records mem
    exact ⟨page, compactCopies_failures mem, few, compactLayout_within ordered mem⟩

end Sys2Proof
end

section
/-! PROOF. The first fixing of the recall states (R134, R152, R154) where no channel has an admission in flight. -/

namespace Sys2Proof.Machine

/-! ### What an event has raised so far -/

/-- R171: every notice raised in the event so far carries the present uptime. -/
def Fresh (s : State) : Prop := ∀ n ∈ s.notices.raised, n.uptime = s.cal.uptime

/-- An event goes on from `u` to `v` with notices of the present uptime. -/
structure Onward (u v : State) : Prop where
  after : After u v
  fresh : Fresh u → Fresh v

section
variable {u v w : State}

theorem Onward.refl (u : State) : Onward u u := ⟨.refl u, id⟩

theorem Onward.trans (h : Onward u v) (g : Onward v w) : Onward u w := ⟨h.after.trans g.after, g.fresh ∘ h.fresh⟩

theorem Onward.of_parts (faults : v.faults = u.faults) (cal : v.cal = u.cal) (notices : v.notices = u.notices) :
    Onward u v :=
  ⟨.of_parts faults cal notices, fun fresh n mem => by
    rw [notices] at mem
    rw [cal]
    exact fresh n mem⟩

theorem raiseNotice_onward (u : State) (b : NoticeBody) : Onward u (u.raiseNotice b) where
  after := raiseNotice_after u b
  fresh fresh n mem := by
    have mem : n ∈ u.notices.raised ++ [{ uptime := u.cal.uptime, body := b }] := mem
    rcases List.mem_append.mp mem with old | new
    · exact fresh n old
    · rw [List.mem_singleton.mp new]
      rfl

theorem raiseFault_onward (u : State) (k : FaultKind) (d : Nat) : Onward u (u.raiseFault k d) where
  after := raiseFault_after u k d
  fresh fresh := by
    have after := (raiseFault_after u k d).cal
    have raised : ∀ n ∈ (u.raiseFault k d).notices.raised, n ∈ u.notices.raised ∨ n.uptime = u.cal.uptime := by
      unfold State.raiseFault
      dsimp only
      split
      · exact fun n mem => .inl mem
      · intro n mem
        rcases List.mem_append.mp mem with old | new
        · exact .inl old
        · rw [List.mem_singleton.mp new]
          exact .inr rfl
    intro n mem
    rw [after]
    exact (raised n mem).elim (fresh n) id

theorem Onward.foldl {α : Type} {f : State → α → State} (step : ∀ s a, Onward s (f s a)) (as : List α) (s : State) :
    Onward s (as.foldl f s) := by
  induction as generalizing s with
  | nil => exact .refl s
  | cons a as ih => exact (step s a).trans (ih _)

end

/-! ### A group leaves service (R135) -/

/-- No channel has an admission in flight. -/
def Unmarked (s : State) : Prop := ∀ c, (s.reader c).mark = .none

/-- An update of a group's manager that leaves what its availability comes from. -/
def KeepsLink (f : GroupMgr → GroupMgr) : Prop := ∀ m, (f m).link = m.link ∧ (f m).accepting = m.accepting

section
variable {s : State}

theorem foldl_deliver_of_unmarked (unmarked : Unmarked s) (answer : Order → Answer) (os : List Order) :
    os.foldl (fun s o => s.deliver o.channel (answer o)) s = s := by
  induction os with
  | nil => rfl
  | cons o os ih => rw [List.foldl_cons, deliver_of_none _ _ _ (unmarked _), ih]

theorem foldl_sendGroup_eq (s : State) (g : Group) (cars : List Car) : ∃ f, KeepsLink f
    ∧ cars.foldl (fun s car => s.sendGroup g (.withdraw car)) s = s.mapGroup g f := by
  induction cars generalizing s with
  | nil => exact ⟨fun m => m, fun m => ⟨rfl, rfl⟩, (mapGroup_id s g).symm⟩
  | cons car cars ih =>
    obtain ⟨f, keeps, eq⟩ := ih (s.sendGroup g (.withdraw car))
    rw [List.foldl_cons, eq, sendGroup_eq, mapGroup_mapGroup]
    refine ⟨_, fun m => ?_, rfl⟩
    exact keeps _

/-- R135: the orders of a group are answered to no channel, and its manager alone changes. -/
theorem leaveService_of_unmarked (unmarked : Unmarked s) (g : Group) (after : Avail) : ∃ f, KeepsLink f
    ∧ s.leaveService g after = s.mapGroup g f := by
  have still : Unmarked (s.mapGroup g fun m => { m with orders := [] }) := unmarked
  unfold State.leaveService
  dsimp only
  rw [foldl_deliver_of_unmarked still]
  obtain ⟨f, keeps, eq⟩ := foldl_sendGroup_eq (s.mapGroup g fun m => { m with orders := [] }) g
    ((s.group g).withdrawals after)
  rw [eq, mapGroup_mapGroup, mapGroup_mapGroup]
  refine ⟨_, fun m => ?_, rfl⟩
  exact keeps _

/-- R134: the availability is reworked, and a notice of it raised. -/
theorem regroup_of_unmarked (unmarked : Unmarked s) (g : Group) (cause : GroupCause) (change : Option RecallChange) :
    ∃ f n, KeepsLink f ∧ (f (s.group g)).avail = s.availability g
      ∧ s.regroup g cause true change = (s.mapGroup g f).raiseNotice (.availability n)
      ∧ n.group = g ∧ n.cause = cause ∧ n.before = (s.group g).avail ∧ n.after = s.availability g
      ∧ n.recallChange = change := by
  unfold State.regroup
  simp only [Bool.not_true, Bool.false_eq_true, and_false, if_false]
  split
  · obtain ⟨f, keeps, eq⟩ := leaveService_of_unmarked unmarked g (s.availability g)
    rw [eq, mapGroup_mapGroup]
    refine ⟨_, _, fun m => ?_, ?_, rfl, rfl, rfl, rfl, rfl, rfl⟩
    · exact keeps _
    · rfl
  · refine ⟨_, _, fun m => ?_, ?_, rfl, rfl, rfl, rfl, rfl, rfl⟩
    · exact ⟨rfl, rfl⟩
    · rfl

end

/-! ### What a fixing may change -/

/-- What the fixing of one group's recall state leaves alone. -/
structure FixesOnly (s t : State) (g : Group) : Prop where
  touches : ∃ gs rc ns, t = { s with
    groups := gs, recallIn := rc, notices := { s.notices with raised := s.notices.raised ++ ns } }
  onward : Onward s t
  groups : ∀ h ≠ g, t.group h = s.group h
  inputs : ∀ h ≠ g, t.recallOf h = s.recallOf h

/-- R134, R152: the change of a recall state handed to its manager. -/
def Handed (s t : State) (g : Group) (level : Level) : Prop :=
  (t.group g).avail = t.availability g ∧ ∃ n, Noticed t (.availability n) ∧ n.group = g ∧ n.cause = .recallChange
    ∧ n.before = (s.group g).avail ∧ n.after = (t.group g).avail
    ∧ n.recallChange = some { before := (s.recallOf g).state, after := (t.recallOf g).state
                              active := (t.recallOf g).cfg.polarity.active level }

/-- R154: what the opening makes of a group's recall state. -/
structure FixedIn (s t : State) (g : Group) : Prop where
  cfg : (t.recallOf g).cfg = (s.recallOf g).cfg
  unknown : (s.recallOf g).line.stable = none →
    (t.recallOf g).fixed = (s.recallOf g).fixed ∧ (t.recallOf g).state = (s.recallOf g).state
  fixed : ∀ level, (s.recallOf g).line.stable = some level → (t.recallOf g).fixed = true
  state : ∀ level, (s.recallOf g).line.stable = some level → (s.recallOf g).fixed = false →
    (t.recallOf g).state = (if (t.recallOf g).cfg.polarity.active level = true then .inRecall
      else if (t.recallOf g).cfg.mode = .latched then .held else .clear)
  handed : ∀ level, (s.recallOf g).line.stable = some level → (s.recallOf g).fixed = false →
    (t.recallOf g).state ≠ (s.recallOf g).state → Handed s t g level

section
variable {s t u : State} {g : Group}

theorem FixesOnly.refl (s : State) (g : Group) : FixesOnly s s g :=
  ⟨⟨s.groups, s.recallIn, [], by rw [List.append_nil]⟩, .refl s, fun _ _ => rfl, fun _ _ => rfl⟩

theorem FixesOnly.trans (h : FixesOnly s t g) (k : FixesOnly t u g) : FixesOnly s u g where
  touches := by
    obtain ⟨gs, rc, ns, rfl⟩ := h.touches
    obtain ⟨gs', rc', ns', rfl⟩ := k.touches
    exact ⟨gs', rc', ns ++ ns', by simp only [List.append_assoc]⟩
  onward := h.onward.trans k.onward
  groups x ne := (k.groups x ne).trans (h.groups x ne)
  inputs x ne := (k.inputs x ne).trans (h.inputs x ne)

theorem mapRecall_fixesOnly (s : State) (g : Group) (f : RecallIn → RecallIn) : FixesOnly s (s.mapRecall g f) g :=
  ⟨⟨s.groups, _, [], by rw [List.append_nil]; rfl⟩, .of_parts rfl rfl rfl, fun _ _ => rfl,
    fun _ ne => recallOf_mapRecall_of_ne s f ne⟩

theorem mapGroup_fixesOnly (s : State) (g : Group) (f : GroupMgr → GroupMgr) : FixesOnly s (s.mapGroup g f) g :=
  ⟨⟨_, s.recallIn, [], by rw [List.append_nil]; rfl⟩, .of_parts rfl rfl rfl,
    fun _ ne => group_mapGroup_of_ne s f ne, fun _ _ => rfl⟩

theorem raiseNotice_fixesOnly (s : State) (b : NoticeBody) (g : Group) : FixesOnly s (s.raiseNotice b) g :=
  ⟨⟨s.groups, s.recallIn, [_], rfl⟩, raiseNotice_onward s b, fun _ _ => rfl, fun _ _ => rfl⟩

theorem fixedState_eq {r : RecallIn} {level : Level} (known : r.line.stable = some level) :
    r.active = r.cfg.polarity.active level
    ∧ r.fixedState = if r.cfg.polarity.active level = true then .inRecall
        else if r.cfg.mode = .latched then .held else .clear := by
  have active : r.active = r.cfg.polarity.active level := by simp only [RecallIn.active, known]
  refine ⟨active, ?_⟩
  rw [RecallIn.fixedState, active]
  cases mode : r.cfg.mode <;> simp

/-- R152, R154: the recall state takes a new value, and the manager its notice. -/
theorem setRecall_of_unmarked (unmarked : Unmarked s) {after : RecallState} (changes : (s.recallOf g).state ≠ after) :
    FixesOnly s (s.setRecall g after) g
    ∧ (s.setRecall g after).recallOf g = { s.recallOf g with state := after }
    ∧ ((s.setRecall g after).group g).avail = (s.setRecall g after).availability g
    ∧ ∃ n, Noticed (s.setRecall g after) (.availability n) ∧ n.group = g ∧ n.cause = .recallChange
      ∧ n.before = (s.group g).avail ∧ n.after = ((s.setRecall g after).group g).avail
      ∧ n.recallChange = some { before := (s.recallOf g).state, after := after, active := (s.recallOf g).active } := by
  have eq : s.setRecall g after = (s.mapRecall g fun r => { r with state := after }).regroup g .recallChange true
      (some { before := (s.recallOf g).state, after := after, active := (s.recallOf g).active }) := if_neg changes
  obtain ⟨f, n, keeps, avail, regrouped, group, cause, before, after', change⟩ :=
    regroup_of_unmarked (s := s.mapRecall g fun r => { r with state := after }) unmarked g .recallChange
      (some { before := (s.recallOf g).state, after := after, active := (s.recallOf g).active })
  have only := ((mapRecall_fixesOnly s g fun r => { r with state := after }).trans (mapGroup_fixesOnly _ g f)).trans
    (raiseNotice_fixesOnly _ (.availability n) g)
  generalize mapped : s.mapRecall g (fun r => { r with state := after }) = m at *
  have input : ((m.mapGroup g f).raiseNotice (.availability n)).recallOf g = { s.recallOf g with state := after } := by
    rw [← recallOf_mapRecall s g fun r => { r with state := after }, mapped]
    rfl
  have groups : ((m.mapGroup g f).raiseNotice (.availability n)).group g = f (m.group g) := group_mapGroup m g f
  have availability : ((m.mapGroup g f).raiseNotice (.availability n)).availability g = m.availability g := by
    obtain ⟨link, accepting⟩ := keeps (m.group g)
    have same : ((m.mapGroup g f).raiseNotice (.availability n)).recallOf g = m.recallOf g := rfl
    rw [State.availability, groups, link, accepting, same, ← State.availability]
  have before' : m.group g = s.group g := by rw [← mapped]; rfl
  rw [eq, regrouped, input, groups, availability]
  exact ⟨only, rfl, avail, n, raiseNotice_noticed _ _, group, cause, before.trans (by rw [before']),
    after'.trans avail.symm, change⟩

/-- R154: the first fixing of a group's recall state once admission is open. -/
theorem fixRecall_of_unmarked (unmarked : Unmarked s) (open_ : s.site.phase = .open_) (g : Group) :
    FixesOnly s (s.fixRecall g) g ∧ FixedIn s (s.fixRecall g) g := by
  by_cases due : (s.recallOf g).line.stable.isSome = true ∧ (s.recallOf g).fixed = false
  · obtain ⟨known, unfixed⟩ := due
    obtain ⟨level, known⟩ := Option.isSome_iff_exists.mp known
    have eq : s.fixRecall g
        = (s.mapRecall g fun r => { r with fixed := true }).setRecall g (s.recallOf g).fixedState :=
      if_pos ⟨open_, by rw [known]; rfl, by rw [unfixed]; rfl⟩
    obtain ⟨active, state⟩ := fixedState_eq known
    have marked := mapRecall_fixesOnly s g fun r => { r with fixed := true }
    have input := recallOf_mapRecall s g fun r => { r with fixed := true }
    rw [eq]
    generalize mapped : s.mapRecall g (fun r => { r with fixed := true }) = m at *
    have still : Unmarked m := by rw [← mapped]; exact unmarked
    have group : m.group g = s.group g := by rw [← mapped]; rfl
    by_cases same : (m.recallOf g).state = (s.recallOf g).fixedState
    · have stays : m.setRecall g (s.recallOf g).fixedState = m := if_pos same
      rw [stays]
      have state' : (s.recallOf g).state = (s.recallOf g).fixedState := by rw [← same, input]
      refine ⟨marked, ⟨by rw [input], fun none_ => ?_, fun _ _ => by rw [input], fun level' known' _ => ?_,
        fun _ _ _ changes => absurd (by rw [input]) changes⟩⟩
      · exact absurd (known.symm.trans none_) (by simp)
      · obtain rfl := Option.some.inj (known.symm.trans known')
        rw [input]
        exact state'.trans state
    · obtain ⟨only, after, avail, n, noticed, names, cause, before, after', change⟩ := setRecall_of_unmarked still same
      generalize m.setRecall g (s.recallOf g).fixedState = u at *
      rw [input] at after change
      refine ⟨marked.trans only, ⟨by rw [after], fun none_ => ?_, fun _ _ => by rw [after], fun level' known' _ => ?_,
        fun level' known' _ _ => ⟨avail, n, noticed, names, cause, before.trans (by rw [group]), after', ?_⟩⟩⟩
      · exact absurd (known.symm.trans none_) (by simp)
      · obtain rfl := Option.some.inj (known.symm.trans known')
        rw [after]
        exact state
      · obtain rfl := Option.some.inj (known.symm.trans known')
        rw [change, after]
        exact congrArg some (congrArg (RecallChange.mk _ _) active)
  · have stays : s.fixRecall g = s := if_neg fun h => due ⟨h.2.1, by simpa using h.2.2⟩
    rw [stays]
    have fixed (level : Level) (known : (s.recallOf g).line.stable = some level) : (s.recallOf g).fixed = true := by
      by_contra unfixed
      exact due ⟨by rw [known]; rfl, by simpa using unfixed⟩
    refine ⟨.refl s g, ⟨rfl, fun _ => ⟨rfl, rfl⟩, fixed, fun level known unfixed => ?_,
      fun _ _ _ changes => absurd rfl changes⟩⟩
    exact absurd ((fixed level known).symm.trans unfixed) (by simp)

end

end Sys2Proof.Machine
end

section
/-! PROOF. The fixing of every group's recall state (R154), the summaries of the classes newly enabled (R171), and
what the end of an event leaves of the queue and the flags. -/

namespace Sys2Proof.Machine

/-! ### Every group -/

section
variable {s t u : State} {g : Group}

theorem Handed.congr (h : Handed s u g level) (input : t.recallOf g = u.recallOf g) (group : t.group g = u.group g)
    (after : After u t) : Handed s t g level := by
  obtain ⟨avail, n, noticed, names⟩ := h
  rw [Handed, State.availability, input, group, ← State.availability]
  exact ⟨avail, n, noticed.after after, names⟩

theorem FixedIn.congr (h : FixedIn s u g) (input : t.recallOf g = u.recallOf g) (group : t.group g = u.group g)
    (after : After u t) : FixedIn s t g where
  cfg := by rw [input, h.cfg]
  unknown := by rw [input]; exact h.unknown
  fixed := by rw [input]; exact h.fixed
  state := by rw [input]; exact h.state
  handed level known unfixed changes :=
    (h.handed level known unfixed (input ▸ changes)).congr input group after

theorem FixedIn.since (h : FixedIn u t g) (input : u.recallOf g = s.recallOf g) (group : u.group g = s.group g) :
    FixedIn s t g where
  cfg := by rw [← input, h.cfg]
  unknown := by rw [← input]; exact h.unknown
  fixed := by rw [← input]; exact h.fixed
  state := by rw [← input]; exact h.state
  handed := by
    have handed := h.handed
    simp only [Handed] at handed ⊢
    rw [← input, ← group]
    exact handed

/-- What the fixing of the recall states of the groups `gs` does. -/
structure FixesAll (s t : State) (gs : List Group) : Prop where
  touches : ∃ gs rc ns, t = { s with
    groups := gs, recallIn := rc, notices := { s.notices with raised := s.notices.raised ++ ns } }
  onward : Onward s t
  others : ∀ h ∉ gs, t.group h = s.group h ∧ t.recallOf h = s.recallOf h
  fixed : ∀ g ∈ gs, FixedIn s t g

theorem foldl_fixRecall {gs : List Group} (unmarked : Unmarked s) (open_ : s.site.phase = .open_) (once : gs.Nodup) :
    FixesAll s (gs.foldl State.fixRecall s) gs := by
  induction gs generalizing s with
  | nil => exact ⟨⟨s.groups, s.recallIn, [], by rw [List.append_nil]; rfl⟩, .refl s, fun _ _ => ⟨rfl, rfl⟩, nofun⟩
  | cons g gs ih =>
    obtain ⟨first, once⟩ := List.nodup_cons.mp once
    obtain ⟨only, fixed⟩ := fixRecall_of_unmarked unmarked open_ g
    rw [List.foldl_cons]
    generalize s.fixRecall g = u at only fixed ⊢
    have parts : u.readers = s.readers ∧ u.site = s.site := by
      obtain ⟨_, _, _, rfl⟩ := only.touches
      exact ⟨rfl, rfl⟩
    have unmarked' : Unmarked u := fun c => by
      rw [State.reader, parts.1]
      exact unmarked c
    obtain ⟨touches, onward, others, all⟩ := ih unmarked' (by rw [parts.2]; exact open_) once
    generalize gs.foldl State.fixRecall u = t at touches onward others all ⊢
    refine ⟨?_, only.onward.trans onward, fun h out => ?_, fun h mem => ?_⟩
    · obtain ⟨a, b, ns, rfl⟩ := only.touches
      obtain ⟨a', b', ns', rfl⟩ := touches
      exact ⟨a', b', ns ++ ns', by simp only [List.append_assoc]⟩
    · rw [List.mem_cons, not_or] at out
      obtain ⟨ne, out⟩ := out
      obtain ⟨group, input⟩ := others h out
      exact ⟨group.trans (only.groups h ne), input.trans (only.inputs h ne)⟩
    · rcases List.mem_cons.mp mem with rfl | mem
      · obtain ⟨group, input⟩ := others h first
        exact fixed.congr input group onward.after
      · have ne : h ≠ g := fun same => first (same ▸ mem)
        exact (all h mem).since (only.inputs h ne) (only.groups h ne)

end

/-! ### The summaries (R171) -/

section
variable {u : NoticeUnit}

theorem queueSummary_isPending (u : NoticeUnit) (c d : NoticeClass) :
    (u.queueSummary c).isPending d = (u.isPending d && !decide (d = c)) := by
  have code : d.code < 8 := by cases d <;> decide
  simp only [NoticeUnit.queueSummary, NoticeUnit.isPending, BitVec.getLsbD_and, BitVec.getLsbD_not, code,
    decide_true, Bool.true_and, noticeClass_bit_getLsbD]

/-- R171: the classes of `cs` that are given a SUMMARY. -/
def NoticeUnit.due (u : NoticeUnit) (cs : List NoticeClass) : List NoticeClass :=
  (cs.filter fun c => u.enabled c && u.isPending c).take (64 - u.queue.length)

/-- What the summaries of the classes `due` do. -/
structure Summarised (u v : NoticeUnit) (due : List NoticeClass) : Prop where
  queue : v.queue = u.queue ++ due.map .summary
  enables : v.enables = u.enables
  raised : v.raised = u.raised
  pending : ∀ c, v.isPending c = true ↔ u.isPending c = true ∧ c ∉ due

theorem summaries_summarised {cs : List NoticeClass} (once : cs.Nodup) : Summarised u (u.summaries cs) (u.due cs) := by
  induction cs generalizing u with
  | nil => exact ⟨by simp [NoticeUnit.summaries, NoticeUnit.due], rfl, rfl,
      by simp [NoticeUnit.summaries, NoticeUnit.due]⟩
  | cons c cs ih =>
    obtain ⟨first, once⟩ := List.nodup_cons.mp once
    have next : u.summaries (c :: cs)
      = (if u.enabled c ∧ u.isPending c ∧ u.queue.length < 64 then u.queueSummary c else u).summaries cs := rfl
    rw [next]
    by_cases due : u.enabled c = true ∧ u.isPending c = true ∧ u.queue.length < 64
    · obtain ⟨enabled, pending, free⟩ := due
      rw [if_pos ⟨enabled, pending, free⟩]
      obtain ⟨queue, enables, raised, flags⟩ := ih (u := u.queueSummary c) once
      have same : cs.filter (fun d => (u.queueSummary c).enabled d && (u.queueSummary c).isPending d)
          = cs.filter fun d => u.enabled d && u.isPending d := List.filter_congr fun d mem => by
        have ne : d ≠ c := fun e => first (e ▸ mem)
        rw [queueSummary_isPending, decide_eq_false ne, Bool.not_false, Bool.and_true]
        rfl
      have places : 64 - u.queue.length = (64 - (u.queueSummary c).queue.length) + 1 := by
        simp only [NoticeUnit.queueSummary, List.length_append, List.length_singleton]
        omega
      have eq : u.due (c :: cs) = c :: (u.queueSummary c).due cs := by
        rw [NoticeUnit.due, NoticeUnit.due, same, List.filter_cons_of_pos (by rw [enabled, pending]; rfl), places,
          List.take_succ_cons]
      rw [eq]
      refine ⟨?_, enables, raised, fun d => ?_⟩
      · rw [queue, NoticeUnit.queueSummary, List.append_assoc]
        rfl
      · rw [flags, queueSummary_isPending, List.mem_cons, not_or]
        simp [and_assoc]
    · rw [if_neg due]
      have eq : u.due (c :: cs) = u.due cs := by
        by_cases counts : u.enabled c = true ∧ u.isPending c = true
        · have full : 64 - u.queue.length = 0 := by
            have : ¬ u.queue.length < 64 := fun free => due ⟨counts.1, counts.2, free⟩
            omega
          rw [NoticeUnit.due, NoticeUnit.due, full, List.take_zero, List.take_zero]
        · have out : ¬ (u.enabled c && u.isPending c) = true := fun h => counts ((Bool.and_eq_true _ _).mp h)
          rw [NoticeUnit.due, NoticeUnit.due, List.filter_cons, if_neg out]
      rw [eq]
      exact ih once

/-- R171: the enables replaced, with the summaries of the classes that this enables. -/
theorem setEnables_summarised (u : NoticeUnit) (e : BitVec 8) :
    Summarised { u with enables := e } (u.setEnables e)
      ((NoticeClass.all.filter fun c => !u.enabled c && ({ u with enables := e } : NoticeUnit).enabled c
        && u.isPending c).take (64 - u.queue.length)) := by
  have once : (NoticeClass.all.filter fun c => !u.enabled c).Nodup := List.Nodup.filter _ (by decide)
  have summarised := summaries_summarised (u := { u with enables := e }) once
  have same : (NoticeClass.all.filter fun c => !u.enabled c).filter (fun c =>
        ({ u with enables := e } : NoticeUnit).enabled c && ({ u with enables := e } : NoticeUnit).isPending c)
      = NoticeClass.all.filter fun c => !u.enabled c && ({ u with enables := e } : NoticeUnit).enabled c
        && u.isPending c := by
    rw [List.filter_filter]
    refine List.filter_congr fun c _ => ?_
    rw [Bool.and_comm, Bool.and_assoc]
    rfl
  rw [NoticeUnit.due, same] at summarised
  exact summarised

end

/-! ### The end of the event -/

section
variable {ns : List Notice} {u : NoticeUnit}

/-- R171: the notices taken join the tail. -/
theorem foldl_take_queue (ns : List Notice) (u : NoticeUnit) : ∃ taken : List Notice,
    (ns.foldl NoticeUnit.take u).queue = u.queue ++ taken.map .notice ∧ ∀ n ∈ taken, n ∈ ns := by
  induction ns generalizing u with
  | nil => exact ⟨[], by simp, fun n mem => absurd mem List.not_mem_nil⟩
  | cons n ns ih =>
    obtain ⟨taken, queue, from_⟩ := ih (u.take n)
    have later : ∀ m ∈ taken, m ∈ n :: ns := fun m mem => List.mem_cons_of_mem n (from_ m mem)
    rw [List.foldl_cons, queue]
    by_cases takes : u.enabled n.body.cls = true ∧ u.queue.length < 64
    · have joined : (u.take n).queue = u.queue ++ [.notice n] := by rw [NoticeUnit.take, if_pos takes]
      rw [joined]
      exact ⟨n :: taken, by simp, List.forall_mem_cons.mpr ⟨List.mem_cons_self, later⟩⟩
    · have withheld : (u.take n).queue = u.queue := by rw [NoticeUnit.take, if_neg takes]
      rw [withheld]
      exact ⟨taken, rfl, later⟩

/-- R171: the flag of a class that is enabled is set only for want of a place. -/
theorem foldl_take_flagged {c : NoticeClass} (enabled : u.enabled c = true) (clear : u.isPending c = false)
    (set : (ns.foldl NoticeUnit.take u).isPending c = true) : 64 ≤ (ns.foldl NoticeUnit.take u).queue.length := by
  induction ns generalizing u with
  | nil =>
    rw [List.foldl_nil, clear] at set
    cases set
  | cons n ns ih =>
    rw [List.foldl_cons] at set ⊢
    have enabled' : (u.take n).enabled c = true := by rw [NoticeUnit.enabled, take_enables]; exact enabled
    cases flag : (u.take n).isPending c with
    | false => exact ih enabled' flag set
    | true =>
      have full : 64 ≤ (u.take n).queue.length := by
        by_contra few
        by_cases taken : u.enabled n.body.cls = true ∧ u.queue.length < 64
        · rw [NoticeUnit.take, if_pos taken] at flag
          exact absurd (clear.symm.trans flag) (by simp)
        · rw [NoticeUnit.take, if_neg taken] at flag few
          have set : (u.isPending c || decide (c = n.body.cls)) = true := by
            rw [← noticeClass_bit_getLsbD, ← flag]
            simp only [NoticeUnit.isPending, BitVec.getLsbD_or]
          rw [clear, Bool.false_or, decide_eq_true_iff] at set
          exact taken ⟨set ▸ enabled, Nat.lt_of_not_le few⟩
      exact Nat.le_trans full (foldl_take_prefix ns _).length_le

end

end Sys2Proof.Machine
end

section
/-! PROOF. The settings load and the opening of admission (R70, R93, R100, R133, R154, R170, R173). -/

namespace Sys2Proof.Machine

/-! ### The configuration that each block takes -/

theorem vector_getD {α : Type} {n : Nat} (v : Vector α n) (i : Fin n) (d : α) : v.toList.getD i.val d = v[i] := by
  simp [List.getD_eq_getElem?_getD]

theorem applySettings_reader (s : State) (x : Settings) (c : Chan) :
    (s.applySettings x).reader c = (s.reader c).opened x.channels[c] s.cal.uptime := by
  refine (vmake_getElem _ c).trans ?_
  rw [vector_getD, vector_getD]
  rfl

theorem applySettings_recallOf (s : State) (x : Settings) (g : Group) :
    (s.applySettings x).recallOf g = { s.recallOf g with cfg := x.groups[g] } := by
  refine (vmake_getElem _ g).trans ?_
  rw [vector_getD, vector_getD]
  rfl

theorem accepted_iff {a : SettingsArea} {x : Settings} :
    a.accepted = some x ↔ a.complete = true ∧ a.checkMatches = true ∧ a.image = x := by
  by_cases whole : (a.complete && a.checkMatches) = true
  · obtain ⟨complete, matches_⟩ := (Bool.and_eq_true _ _).mp whole
    rw [SettingsArea.accepted, if_pos whole, Option.some.injEq]
    exact ⟨fun image => ⟨complete, matches_, image⟩, fun h => h.2.2⟩
  · rw [SettingsArea.accepted, if_neg whole]
    refine iff_of_false nofun fun ⟨complete, matches_, _⟩ => whole ?_
    rw [complete, matches_]
    rfl

/-- R70, R93: the load ends: the masks, the severities and the enables are taken, and the port is OPEN. -/
def State.loadEnds (s : State) (x : Settings) : State :=
  (((s.mapFaults fun f => { f with masks := x.masks, majors := x.majors }).mapNotices
    fun u => u.setEnables x.enables).mapSite fun p => { p with phase := .open_ }).reworkLine

theorem loadEnds_onward (s : State) (x : Settings) : Onward s (s.loadEnds x) := by
  have raised : (s.loadEnds x).notices.raised = s.notices.raised := (setEnables_summarised s.notices x.enables).raised
  refine ⟨⟨fun _ => id, rfl, fun n mem => ?_⟩, fun fresh n mem => fresh n ?_⟩
  · rw [raised]
    exact mem
  · rw [← raised]
    exact mem

/-- The state that takes the settings `x`, the map `before` being replaced. -/
def State.loads (w : State) (x : Settings) (before : ZoneMap) : State :=
  (finList 6).foldl State.fixRecall (((w.applySettings x).mapReplaced before).loadEnds x)

theorem opens_of_accepted {s : State} {x : Settings} (accepted : s.store.area.accepted = some x) :
    s.opens = s.loads x s.zone := by
  rw [State.opens, accepted]
  rfl

theorem opens_of_rejected {s : State} (rejected : s.store.area.accepted = none) :
    s.opens = (s.raiseFault .settingsLost 0).loads Settings.default s.zone := by
  rw [State.opens, rejected]
  rfl

/-! ### GROUP_OFFLINE -/

theorem raiseGroupsOffline_onward (s : State) (gs : List Group) : Onward s (s.raiseGroupsOffline gs) := by
  induction gs generalizing s with
  | nil => exact .refl s
  | cons g gs ih => exact (raiseFault_onward s .groupOffline g.val).trans (ih _)

/-- R133: the raisings of an event that goes on to its end. -/
theorem offlineRaised_of_after {s a u : State} (zone : u.zone = a.zone) (groups : a.groups = s.groups)
    (cal : a.cal = s.cal) (was : a.faults.isSet .groupOffline = s.faults.isSet .groupOffline)
    (masks : a.faults.masks = s.faults.masks) (majors : a.faults.majors = s.faults.majors)
    (set : u.faults.isSet .groupOffline
      = (a.raiseGroupsOffline (a.appearing s.zone)).faults.isSet .groupOffline)
    (after : After (a.raiseGroupsOffline (a.appearing s.zone)) u) : OfflineRaised s u.settle := by
  have appears_iff : ∀ g, ((s.zoneGroup g).present = false ∧ (u.settle.zoneGroup g).present = true
      ∧ (s.group g).link = .silent) ↔ g ∈ a.appearing s.zone := fun g => by
    have here : u.settle.zoneGroup g = a.zoneGroup g := by
      rw [State.zoneGroup, State.zoneGroup, ← zone]
      rfl
    rw [mem_appearing_iff, here, State.group, State.group, groups]
    rfl
  unfold OfflineRaised
  simp only [appears_iff]
  refine ⟨?_, fun g mem unmasked => ?_⟩
  · rw [← was, ← List.length_pos_iff_exists_mem, List.length_pos_iff, ← groupOffline_isSet_iff, ← set]
    rfl
  · have asc : (a.appearing s.zone).Pairwise (· < ·) := appearing_ascending _ _
    obtain ⟨pre, post, e⟩ := List.append_of_mem mem
    have before : ∀ h, h ∈ pre ↔ h < g ∧ h ∈ a.appearing s.zone := fun h => by
      rw [e] at asc
      calc h ∈ pre ↔ h ∈ (pre ++ g :: post).filter fun b => decide (b < g) := by rw [filter_lt_of_split asc]
        _ ↔ h < g ∧ h ∈ a.appearing s.zone := by rw [e, List.mem_filter, decide_eq_true_iff, and_comm]
    have unmasked' : a.faults.masked .groupOffline = false := by rw [FaultUnit.masked, masks]; exact unmasked
    have raised := mem_raiseGroupsOffline a pre post g unmasked'
    rw [← e] at raised
    have major : a.faults.major .groupOffline = s.faults.major .groupOffline := by
      rw [FaultUnit.major, majors, ← FaultUnit.major]
    have same : (a.raiseGroupsOffline (a.appearing s.zone)).cal = a.cal :=
      (raiseGroupsOffline_onward a _).after.cal
    have date : a.date = s.date := by rw [State.date, State.date, cal]
    refine ⟨(a.raiseGroupsOffline pre).faults.isSet .groupOffline, ?_, Noticed.settle ?_⟩
    · rw [groupOffline_isSet_iff, was, ← List.length_pos_iff, List.length_pos_iff_exists_mem]
      simp only [before]
    · rw [major, date] at raised
      refine Noticed.after ?_ after
      rw [Noticed, same]
      exact raised

/-! ### What a load leaves -/

/-- The state `w` in which a load begins: `s`, with what the load has raised by then. -/
structure Begins (s w : State) : Prop where
  touches : ∃ f ns, w = { s with faults := f, notices := { s.notices with raised := ns } }
  fresh : Fresh w
  was : w.faults.isSet .groupOffline = s.faults.isSet .groupOffline
  masks : w.faults.masks = s.faults.masks
  majors : w.faults.majors = s.faults.majors

/-- What the load of the settings `x` leaves, before the notices of the event are taken. -/
structure Loaded (s w t : State) (x : Settings) : Prop where
  parts : t.site.phase = .open_ ∧ t.store = s.store ∧ t.dir = s.dir ∧ t.cal = s.cal ∧ t.zone = x.zone
    ∧ t.timing = x.timing
  banks : t.banks = { active := x.bank, shadow := x.bank, number := x.bankNumber, arm := .none, holidays := x.holidays }
  masks : t.faults.masks = x.masks
  majors : t.faults.majors = x.majors
  isSet : ∀ k, k ≠ .groupOffline → t.faults.isSet k = w.faults.isSet k
  reader : ∀ c, t.reader c = (s.reader c).opened x.channels[c] s.cal.uptime
  input : ∀ g, ∃ v : State, FixedIn v t g ∧ v.recallOf g = { s.recallOf g with cfg := x.groups[g] }
    ∧ v.group g = s.group g
  summaries : Summarised { s.notices with enables := x.enables, raised := t.notices.raised } t.notices
    ((NoticeClass.all.filter fun c => !s.notices.enabled c
      && ({ s.notices with enables := x.enables } : NoticeUnit).enabled c && s.notices.isPending c).take
        (64 - s.notices.queue.length))
  after : After w t
  fresh : Fresh t
  offline : OfflineRaised s t.settle

theorem Begins.applies {s w : State} (begins : Begins s w) (x : Settings) :
    ∃ f ns, w.applySettings x = { s.applySettings x with faults := f, notices := { s.notices with raised := ns } } := by
  obtain ⟨f, ns, start⟩ := begins.touches
  rw [start]
  exact ⟨f, ns, rfl⟩

/-- The load of `x`, with GROUP_OFFLINE raised: what `s` has taken of the settings. -/
theorem Begins.raises {s w : State} (begins : Begins s w) (x : Settings) (gs : List Group) :
    ∃ f ns, (w.applySettings x).raiseGroupsOffline gs
      = { s.applySettings x with faults := f, notices := { s.notices with raised := ns } } := by
  obtain ⟨f, ns, start⟩ := begins.applies x
  obtain ⟨f', ns', touched⟩ := raiseGroupsOffline_touches (w.applySettings x) gs
  rw [touched, start]
  exact ⟨f', ns ++ ns', rfl⟩

/-- R70: what the end of the load leaves of the state `r` that has taken the settings. -/
structure Readied (s r v : State) (x : Settings) : Prop where
  touches : ∃ f u, v = { s.applySettings x with faults := f, notices := u, site := { s.site with phase := .open_ } }
  masks : v.faults.masks = x.masks
  majors : v.faults.majors = x.majors
  isSet : ∀ k, v.faults.isSet k = r.faults.isSet k
  onward : Onward r v
  summaries : Summarised { s.notices with enables := x.enables, raised := v.notices.raised } v.notices
    ((NoticeClass.all.filter fun c => !s.notices.enabled c
      && ({ s.notices with enables := x.enables } : NoticeUnit).enabled c && s.notices.isPending c).take
        (64 - s.notices.queue.length))

theorem loadEnds_readied {s r : State} {x : Settings}
    (h : ∃ f ns, r = { s.applySettings x with faults := f, notices := { s.notices with raised := ns } }) :
    Readied s r (r.loadEnds x) x where
  touches := by
    obtain ⟨f, ns, rfl⟩ := h
    exact ⟨_, _, rfl⟩
  masks := rfl
  majors := rfl
  isSet _ := rfl
  onward := loadEnds_onward r x
  summaries := by
    have notices : (r.loadEnds x).notices = r.notices.setEnables x.enables := rfl
    obtain ⟨queue, enables, raised, pending⟩ := setEnables_summarised r.notices x.enables
    rw [notices]
    generalize r.notices.setEnables x.enables = u at *
    obtain ⟨f, ns, rfl⟩ := h
    exact ⟨queue, enables, rfl, pending⟩

theorem Readied.reader {s r v : State} {x : Settings} (h : Readied s r v x) (c : Chan) :
    v.reader c = (s.reader c).opened x.channels[c] s.cal.uptime := by
  obtain ⟨f, u, rfl⟩ := h.touches
  exact applySettings_reader s x c

theorem Readied.input {s r v : State} {x : Settings} (h : Readied s r v x) (g : Group) :
    v.recallOf g = { s.recallOf g with cfg := x.groups[g] } ∧ v.group g = s.group g := by
  obtain ⟨f, u, rfl⟩ := h.touches
  exact ⟨applySettings_recallOf s x g, rfl⟩

theorem Readied.unmarked {s r v : State} {x : Settings} (h : Readied s r v x) (unmarked : Unmarked s) : Unmarked v := by
  intro c
  rw [h.reader]
  exact unmarked c

theorem Readied.fixes {s r v : State} {x : Settings} (h : Readied s r v x) (unmarked : Unmarked s) :
    FixesAll v ((finList 6).foldl State.fixRecall v) (finList 6) := by
  have open_ : v.site.phase = .open_ := by
    obtain ⟨f, u, rfl⟩ := h.touches
    rfl
  exact foldl_fixRecall (h.unmarked unmarked) open_ ((finList_ascending 6).imp ne_of_lt)

theorem loads_loaded {s w : State} (begins : Begins s w) (unmarked : Unmarked s) (x : Settings) :
    Loaded s w (w.loads x s.zone) x := by
  have applied : Onward w (w.applySettings x) := .of_parts rfl rfl rfl
  have raising := raiseGroupsOffline_onward (w.applySettings x) ((w.applySettings x).appearing s.zone)
  have others (k : FaultKind) (ne : k ≠ .groupOffline) :=
    raiseGroupsOffline_isSet_of_ne (w.applySettings x) ((w.applySettings x).appearing s.zone) ne
  have ready := loadEnds_readied (begins.raises x ((w.applySettings x).appearing s.zone))
  have fixes := ready.fixes unmarked
  rw [State.loads, mapReplaced_eq]
  have offline := offlineRaised_of_after (s := s) (a := w.applySettings x)
    (u := (finList 6).foldl State.fixRecall (((w.applySettings x).raiseGroupsOffline
      ((w.applySettings x).appearing s.zone)).loadEnds x))
  generalize (w.applySettings x).raiseGroupsOffline ((w.applySettings x).appearing s.zone) = r at *
  generalize r.loadEnds x = v at *
  generalize (finList 6).foldl State.fixRecall v = t at *
  have faults : t.faults = v.faults := by
    obtain ⟨_, _, _, rfl⟩ := fixes.touches
    rfl
  have zone : t.zone = (w.applySettings x).zone := by
    obtain ⟨_, _, touched⟩ := ready.touches
    obtain ⟨_, _, _, rfl⟩ := fixes.touches
    rw [touched]
    rfl
  have start : (w.applySettings x).groups = s.groups ∧ (w.applySettings x).cal = s.cal := by
    obtain ⟨_, _, eq⟩ := begins.applies x
    rw [eq]
    exact ⟨rfl, rfl⟩
  have later : Onward r t := ready.onward.trans fixes.onward
  have whole : Onward w t := (applied.trans raising).trans later
  refine ⟨?_, ?_, by rw [faults, ready.masks], by rw [faults, ready.majors], fun k ne => ?_, fun c => ?_, fun g => ?_,
    ?_, whole.after, whole.fresh begins.fresh, ?_⟩
  · obtain ⟨_, _, touched⟩ := ready.touches
    obtain ⟨_, _, _, rfl⟩ := fixes.touches
    rw [touched]
    exact ⟨rfl, rfl, rfl, rfl, rfl, rfl⟩
  · obtain ⟨_, _, touched⟩ := ready.touches
    obtain ⟨_, _, _, rfl⟩ := fixes.touches
    rw [touched]
    rfl
  · rw [faults, ready.isSet, others k ne]
    rfl
  · rw [← ready.reader]
    obtain ⟨_, _, _, rfl⟩ := fixes.touches
    rfl
  · exact ⟨v, fixes.fixed g (mem_finList g), ready.input g⟩
  · obtain ⟨queue, enables, -, pending⟩ := ready.summaries
    obtain ⟨_, _, _, rfl⟩ := fixes.touches
    exact ⟨queue, enables, rfl, pending⟩
  · exact offline zone start.1 start.2 begins.was begins.masks begins.majors (by rw [faults, ready.isSet]) later.after

end Sys2Proof.Machine
end

section
/-! PROOF. The obligation on the opening: the load of the image accepted, or of the defaults with SETTINGS_LOST. -/

namespace Sys2Proof.Machine

section
variable {s w t : State} {x : Settings}

theorem Loaded.enables (h : Loaded s w t x) : t.settle.notices.enables = x.enables :=
  (foldl_take_enables _ _).trans h.summaries.enables

/-- R171: the summaries stand ahead of the notices of the event, and their flags are cleared. -/
theorem Loaded.notices (h : Loaded s w t x) :
    let due := (NoticeClass.all.filter fun c =>
      !s.notices.enabled c && t.settle.notices.enabled c && s.notices.isPending c).take (64 - s.notices.queue.length)
    (∃ raised : List Notice, t.settle.notices.queue = s.notices.queue ++ due.map .summary ++ raised.map .notice
      ∧ ∀ n ∈ raised, n.uptime = s.cal.uptime)
    ∧ (∀ c ∈ due, t.settle.notices.isPending c = true → 64 ≤ t.settle.notices.queue.length)
    ∧ ∀ c, c ∉ due → s.notices.isPending c = true → t.settle.notices.isPending c = true := by
  have enabled (c : NoticeClass) : t.settle.notices.enabled c
      = ({ s.notices with enables := x.enables } : NoticeUnit).enabled c := by
    rw [NoticeUnit.enabled, h.enables, NoticeUnit.enabled]
  have all : (NoticeClass.all.filter fun c =>
        !s.notices.enabled c && t.settle.notices.enabled c && s.notices.isPending c)
      = NoticeClass.all.filter fun c => !s.notices.enabled c
        && ({ s.notices with enables := x.enables } : NoticeUnit).enabled c && s.notices.isPending c :=
    List.filter_congr fun c _ => by rw [enabled]
  obtain ⟨queue, enables, -, pending⟩ := h.summaries
  have settled : t.settle.notices
    = (inClassOrder t.notices.raised).foldl NoticeUnit.take { t.notices with raised := [] } := rfl
  have uptime : ∀ n ∈ t.notices.raised, n.uptime = s.cal.uptime := fun n mem => by
    obtain ⟨-, -, -, cal, -⟩ := h.parts
    rw [h.fresh n mem, cal]
  have member (c : NoticeClass) (mem : c ∈ NoticeClass.all.filter fun c => !s.notices.enabled c
      && ({ s.notices with enables := x.enables } : NoticeUnit).enabled c && s.notices.isPending c) :
      ({ t.notices with raised := [] } : NoticeUnit).enabled c = true := by
    have holds := (List.mem_filter.mp mem).2
    rw [Bool.and_eq_true, Bool.and_eq_true] at holds
    obtain ⟨⟨-, holds⟩, -⟩ := holds
    rw [NoticeUnit.enabled, enables]
    exact holds
  intro due
  rw [settled]
  have eq : due = _ := congrArg (List.take (64 - s.notices.queue.length)) all
  rw [← eq] at queue pending
  clear_value due
  obtain ⟨taken, joined, from_⟩ := foldl_take_queue (inClassOrder t.notices.raised) { t.notices with raised := [] }
  refine ⟨⟨taken, ?_, fun n mem => uptime n (mem_of_mem_inClassOrder (from_ n mem))⟩, fun c mem set => ?_,
    fun c out set => ?_⟩
  · rw [joined]
    exact congrArg (· ++ _) queue
  · refine foldl_take_flagged (member c (List.mem_of_mem_take (eq ▸ mem))) ?_ set
    have clear : ¬ t.notices.isPending c = true := fun set => ((pending c).mp set).2 mem
    exact Bool.eq_false_iff.mpr clear
  · exact foldl_take_pending _ _ c ((pending c).mpr ⟨set, out⟩)

/-- R100: the channel takes its configuration. -/
theorem Loaded.line (h : Loaded s w t x) (c : Chan) :
    let unused : Prop := (t.settle.reader c).cfg.place = .unused
    t.settle.reader c = { s.reader c with
      cfg := (t.settle.reader c).cfg, state := if unused then .unused else .idle, displayDeadline := none
      silenceDeadline := some (max (((s.reader c).silenceDeadline).getD 0) (s.cal.uptime + 3))
      tx := (if unused then [] else (s.reader c).tx)
        ++ if (s.reader c).displayDeadline.isSome then [.blank] else [] } := by
  have same : t.settle.reader c = (s.reader c).opened x.channels[c] s.cal.uptime := h.reader c
  rw [same]
  rfl

theorem Loaded.input_cfg (h : Loaded s w t x) (g : Group) : (t.settle.recallOf g).cfg = x.groups[g] := by
  obtain ⟨v, fixed, input, -⟩ := h.input g
  have cfg := fixed.cfg
  rw [input] at cfg
  exact cfg

/-- R154: a recall state whose line is known is fixed, and its change handed on. -/
theorem Loaded.input_known (h : Loaded s w t x) (g : Group) (level : Level)
    (known : (s.recallOf g).line.stable = some level) : (t.settle.recallOf g).fixed = true
      ∧ ((s.recallOf g).fixed = false →
        (t.settle.recallOf g).state =
          (if (t.settle.recallOf g).cfg.polarity.active level = true then .inRecall
           else if (t.settle.recallOf g).cfg.mode = .latched then .held else .clear)
        ∧ ((t.settle.recallOf g).state ≠ (s.recallOf g).state →
          (t.settle.group g).avail = t.settle.availability g
            ∧ ∃ n, Reported t.settle (.availability n) ∧ n.group = g ∧ n.cause = .recallChange
              ∧ n.before = (s.group g).avail ∧ n.after = (t.settle.group g).avail
              ∧ n.recallChange = some { before := (s.recallOf g).state, after := (t.settle.recallOf g).state
                                        active := (t.settle.recallOf g).cfg.polarity.active level })) := by
  obtain ⟨v, fixing, input, group⟩ := h.input g
  obtain ⟨-, -, fixed, state, handed⟩ := fixing
  simp only [Handed] at handed
  rw [input] at fixed state handed
  rw [group] at handed
  refine ⟨fixed level known, fun unfixed => ⟨state level known unfixed, fun changes => ?_⟩⟩
  obtain ⟨avail, n, noticed, names⟩ := handed level known unfixed changes
  exact ⟨avail, n, noticed.settle, names⟩

theorem Loaded.input_unknown (h : Loaded s w t x) (g : Group) (unknown : (s.recallOf g).line.stable = none) :
    (t.settle.recallOf g).fixed = (s.recallOf g).fixed ∧ (t.settle.recallOf g).state = (s.recallOf g).state := by
  obtain ⟨v, fixing, input, -⟩ := h.input g
  have same := fixing.unknown
  rw [input] at same
  exact same unknown

theorem begins_self (runs : Runs s) : Begins s s := by
  refine ⟨⟨s.faults, s.notices.raised, rfl⟩, fun n mem => ?_, rfl, rfl, rfl⟩
  rw [runs.2] at mem
  cases mem

theorem begins_settingsLost (runs : Runs s) : Begins s (s.raiseFault .settingsLost 0) := by
  refine ⟨?_, (raiseFault_onward s .settingsLost 0).fresh (begins_self runs).fresh,
    raiseFault_isSet_of_ne s 0 (by decide), raiseFault_masks s _ _, raiseFault_majors s _ _⟩
  obtain ⟨f, ns, touched⟩ := raiseFault_touches s .settingsLost 0
  exact ⟨f, _, touched⟩

/-- R70: the load of an image accepted. -/
theorem Loaded.image (h : Loaded s s t x) :
    t.settle.zone = x.zone ∧ t.settle.timing = x.timing ∧ t.settle.banks.active = x.bank
    ∧ t.settle.banks.shadow = x.bank ∧ t.settle.banks.number = x.bankNumber ∧ t.settle.banks.arm = .none
    ∧ t.settle.banks.holidays = x.holidays ∧ t.settle.notices.enables = x.enables ∧ t.settle.faults.masks = x.masks
    ∧ t.settle.faults.majors = x.majors ∧ t.settle.faults.isSet .settingsLost = s.faults.isSet .settingsLost
    ∧ (∀ c : Chan, (t.settle.reader c).cfg = x.channels[c]) ∧ ∀ g : Group, (t.settle.recallOf g).cfg = x.groups[g] := by
  obtain ⟨-, -, -, -, zone, timing⟩ := h.parts
  have banks : t.settle.banks = _ := h.banks
  rw [banks]
  refine ⟨zone, timing, rfl, rfl, rfl, rfl, rfl, h.enables, h.masks, h.majors, h.isSet _ (by decide), fun c => ?_,
    h.input_cfg⟩
  exact congrArg Channel.cfg (h.reader c)

/-- R70: the load of the defaults, spelled out. -/
theorem Loaded.defaults (h : Loaded s (s.raiseFault .settingsLost 0) t .default) :
    t.settle.banks = { active := Vector.replicate 256 { serviceCar := false, clauses := [] }
                       shadow := Vector.replicate 256 { serviceCar := false, clauses := [] }
                       number := 0, arm := .none, holidays := [] }
    ∧ (∀ l : Landing, t.settle.zone.landing l = { present := false, label := [], secure := false, transfer := false })
    ∧ (∀ g : Group, t.settle.zone.group g = { present := false, serviceCar := false, served := 0 })
    ∧ t.settle.timing = { badgeWait := 40, interKey := 15, carHold := 10, validity := 600, batchIdle := 30 }
    ∧ t.settle.notices.enables = 0xFE#8 ∧ t.settle.faults.masks = 0
    ∧ (∀ k : FaultKind, t.settle.faults.major k = true ↔ k ∈ [FaultKind.groupOffline, .storeProgramFail,
        .spareLow, .storeFault, .settingsLost, .commitFail])
    ∧ Raises s t.settle .settingsLost 0 ∧ (∀ c, (t.settle.reader c).cfg = { place := .unused, hold := 5 })
    ∧ ∀ g : Group, (t.settle.recallOf g).cfg = { polarity := .activeHigh, mode := .level } := by
  obtain ⟨-, -, -, -, zone, timing⟩ := h.parts
  have zone : t.settle.zone = ZoneMap.default := zone
  have majors : t.settle.faults.majors = defaultMajors := h.majors
  refine ⟨h.banks, fun l => ?_, fun g => ?_, timing, h.enables, h.masks, fun k => ?_,
    ((raiseFault_raised s .settingsLost 0).after h.after).settle, fun c => ?_, fun g => ?_⟩
  · rw [zone]
    exact Vector.getElem_replicate _
  · rw [zone]
    exact Vector.getElem_replicate _
  · rw [FaultUnit.major, majors]
    exact defaultMajors_getLsbD_iff k
  · exact (congrArg Channel.cfg (h.reader c)).trans (Vector.getElem_replicate _)
  · exact (h.input_cfg g).trans (Vector.getElem_replicate _)

end

end Sys2Proof.Machine

namespace Sys2Proof

open Machine

/-- Settles O7: both loads leave what `Loaded` says, the one with SETTINGS_LOST raised before it. -/
theorem openingTakesTheSettings : Obligations.OpeningTakesTheSettings := by
  unfold Obligations.OpeningTakesTheSettings
  intro s runs phase unmarked
  refine ⟨fun x => accepted_iff, ?_⟩
  have run : exec .admissionOpens s = .next s.opens.settle := by
    rw [exec_admissionOpens, execAdmissionOpens, whileRunning_of_running _ _ runs.1, if_pos phase]
  cases image : s.store.area.accepted with
  | some x =>
    have loaded := loads_loaded (begins_self runs) unmarked x
    rw [← opens_of_accepted image] at loaded
    generalize s.opens = t at run loaded
    obtain ⟨open_, store, dir, -⟩ := loaded.parts
    refine ⟨t.settle, run, open_, store, dir, fun y same => ?_, nofun, loaded.line, loaded.notices,
      loaded.input_known, loaded.input_unknown, loaded.offline⟩
    obtain rfl := Option.some.inj same
    exact loaded.image
  | none =>
    have loaded := loads_loaded (begins_settingsLost runs) unmarked Settings.default
    rw [← opens_of_rejected image] at loaded
    generalize s.opens = t at run loaded
    obtain ⟨open_, store, dir, -⟩ := loaded.parts
    exact ⟨t.settle, run, open_, store, dir, nofun, fun _ => loaded.defaults, loaded.line, loaded.notices,
      loaded.input_known, loaded.input_unknown, loaded.offline⟩

end Sys2Proof
end

section
/-! PROOF. What every step keeps of the Edit Buffer, the record count, the commit counter and the settings save: the
shared operations, the engine, the readers, the groups and the deadlines. -/

namespace Sys2Proof.Machine

/-- What a step keeps of the batch, the counts and the save, each part from itself alone. -/
structure KeepsBooks (s t : State) : Prop where
  count : CountRight s → CountRight t
  counter : s.store.counter ≤ t.store.counter
  number : NumberSpent s → NumberSpent t
  save : RunningSaveHasNoImage s → RunningSaveHasNoImage t
  batch : BatchRight s → BatchRight t

section
variable {s t u : State}

theorem KeepsBooks.refl (s : State) : KeepsBooks s s := ⟨id, Nat.le_refl _, id, id, id⟩

theorem KeepsBooks.trans (h : KeepsBooks s t) (k : KeepsBooks t u) : KeepsBooks s u :=
  ⟨k.count ∘ h.count, h.counter.trans k.counter, k.number ∘ h.number, k.save ∘ h.save, k.batch ∘ h.batch⟩

theorem KeepsBooks.ite {c : Prop} [Decidable c] (h : KeepsBooks s t) (k : KeepsBooks s u) :
    KeepsBooks s (if c then t else u) := by
  split
  · exact h
  · exact k

theorem KeepsBooks.foldl {α : Type} (f : State → α → State) (h : ∀ s a, KeepsBooks s (f s a)) (as : List α)
    (s : State) : KeepsBooks s (as.foldl f s) := by
  induction as generalizing s with
  | nil => exact .refl s
  | cons a as ih => exact (h s a).trans (ih _)

/-- R79: the edits stand, and no other edit waits for its lookup. -/
theorem batchRight_of_same (batch : t.batch = s.batch)
    (hand : ∀ f e, t.site.inHand = some { frame := f, wait := .stage e } → t.site.inHand = s.site.inHand)
    (h : BatchRight s) : BatchRight t := by
  obtain ⟨few, nodup, closed, staged⟩ := h
  rw [BatchRight, batch]
  exact ⟨few, nodup, closed, fun f e waits => staged f e ((hand f e waits).symm.trans waits)⟩

/-- R79: a batch without edits has room for any. -/
theorem batchRight_of_empty (h : t.batch.edits = []) : BatchRight t := by
  rw [BatchRight, h]
  exact ⟨Nat.zero_le _, List.nodup_nil, fun _ => rfl, fun _ _ _ => .inl (by decide)⟩

/-- The directory and the numbers of the store stand; the batch and the request in hand are looked at apart. -/
theorem KeepsBooks.of_batch (dir : t.dir = s.dir) (counter : t.store.counter = s.store.counter)
    (work : t.store.work = s.store.work) (area : t.store.area = s.store.area)
    (save : t.store.save.state = .running → s.store.save.state = .running)
    (batch : BatchRight s → BatchRight t) : KeepsBooks s t where
  count h := by rwa [CountRight, dir]
  counter := Nat.le_of_eq counter.symm
  number h := by rwa [NumberSpent, work, counter]
  save h runs := by
    rw [area]
    exact h (save runs)
  batch := batch

/-- The directory, the store, the batch and the request in hand stand, or the request has been answered. -/
theorem KeepsBooks.of_hand (dir : t.dir = s.dir) (store : t.store = s.store) (batch : t.batch = s.batch)
    (hand : t.site.inHand = s.site.inHand ∨ t.site.inHand = none) : KeepsBooks s t :=
  .of_batch dir (by rw [store]) (by rw [store]) (by rw [store]) (by rw [store]; exact id)
    (batchRight_of_same batch fun _ _ waits => hand.resolve_right fun none_ => absurd (none_.symm.trans waits) nofun)

theorem KeepsBooks.of_parts (dir : t.dir = s.dir) (store : t.store = s.store) (batch : t.batch = s.batch)
    (site : t.site = s.site) : KeepsBooks s t := .of_hand dir store batch (.inl (by rw [site]))

theorem SameButEngine.books (h : SameButEngine s t) : KeepsBooks s t := by
  obtain ⟨gs, rs, ns, tt, q, en, op, capped, more, rfl⟩ := h
  exact .of_batch rfl rfl rfl rfl id (batchRight_of_same rfl fun _ _ _ => rfl)

theorem SameButGroups.books (h : SameButGroups s t) : KeepsBooks s t := h.toEngine.books

theorem SameButDeadlines.books (h : SameButDeadlines s t) (batch : t.batch = s.batch) : KeepsBooks s t := by
  obtain ⟨gs, rs, q, b, f, ns, -, rfl⟩ := h
  exact .of_parts rfl rfl batch rfl

end

/-! ### The shared operations -/

section
variable (s : State)

theorem mapNotices_books (f : NoticeUnit → NoticeUnit) : KeepsBooks s (s.mapNotices f) := .of_parts rfl rfl rfl rfl

theorem mapFaults_books (f : FaultUnit → FaultUnit) : KeepsBooks s (s.mapFaults f) := .of_parts rfl rfl rfl rfl

theorem mapReader_books (c : Chan) (f : Channel → Channel) : KeepsBooks s (s.mapReader c f) :=
  .of_parts rfl rfl rfl rfl

theorem mapGroup_books (g : Group) (f : GroupMgr → GroupMgr) : KeepsBooks s (s.mapGroup g f) :=
  .of_parts rfl rfl rfl rfl

theorem mapRecall_books (g : Group) (f : RecallIn → RecallIn) : KeepsBooks s (s.mapRecall g f) :=
  .of_parts rfl rfl rfl rfl

theorem settle_books : KeepsBooks s s.settle := mapNotices_books s _

theorem raiseNotice_books (b : NoticeBody) : KeepsBooks s (s.raiseNotice b) := mapNotices_books s _

theorem reworkLine_books : KeepsBooks s s.reworkLine := mapFaults_books s _

theorem raiseFault_books (k : FaultKind) (d : Nat) : KeepsBooks s (s.raiseFault k d) := by
  obtain ⟨f, ns, touched⟩ := raiseFault_touches s k d
  rw [touched]
  exact .of_parts rfl rfl rfl rfl

theorem checkSpare_books (n : Nat) : KeepsBooks s (s.checkSpare n) := .ite (raiseFault_books _ _ _) (.refl s)

theorem readFor_books (e : IndexEntry) : KeepsBooks s (s.readFor e).1 := by
  obtain ⟨f, ns, touched⟩ := readFor_touches s e
  rw [touched]
  exact .of_parts rfl rfl rfl rfl

theorem lookup_books (b : Badge) : KeepsBooks s (s.lookup b).1 := by
  obtain ⟨f, ns, touched⟩ := lookup_touches s b
  rw [touched]
  exact .of_parts rfl rfl rfl rfl

theorem placePrio_books (e : PrioEntry) : KeepsBooks s (s.placePrio e) := (placePrio_sameEngine s e).books

theorem dropPrio_books : KeepsBooks s s.dropPrio :=
  .of_batch rfl rfl rfl rfl id (batchRight_of_same rfl fun _ _ _ => rfl)

/-- R68: a save that is queued leaves the area as it stands. -/
theorem saveQueued_books : KeepsBooks s { s with store := saveQueued s.store } := by
  unfold saveQueued
  split
  · exact .of_batch rfl rfl rfl rfl nofun (batchRight_of_same rfl fun _ _ _ => rfl)
  · exact .refl s
  · exact .of_batch rfl rfl rfl rfl id (batchRight_of_same rfl fun _ _ _ => rfl)

theorem queueSave_books : KeepsBooks s s.queueSave := by
  rw [queueSave_eq]
  exact saveQueued_books s

/-- R161, R162: an answer leaves no request in hand. -/
theorem handOver_books (t : SiteTx) : KeepsBooks s (s.handOver t) := by
  rw [handOver_eq]
  exact .of_hand rfl rfl rfl (.inr rfl)

theorem reply_books (f : SiteFrame) (x : Result) (d : List Byte) : KeepsBooks s (s.reply f x d) := handOver_books s _

variable {s} in
theorem KeepsBooks.reply {u : State} (h : KeepsBooks s u) (f : SiteFrame) (x : Result) (d : List Byte) :
    KeepsBooks s (u.reply f x d) := h.trans (reply_books u f x d)

variable {s} in
theorem KeepsBooks.saved {u : State} (h : KeepsBooks s u) : KeepsBooks s u.queueSave := h.trans (queueSave_books u)

/-- A request in hand waits for a read that is not of an edit's protection. -/
theorem setInHand_books (f : SiteFrame) (w : PortWait) (other : ∀ e, w ≠ .stage e) :
    KeepsBooks s (s.setInHand f w) :=
  .of_batch rfl rfl rfl rfl id (batchRight_of_same rfl fun g e waits => by
    obtain rfl := congrArg InHand.wait (Option.some.inj waits)
    exact absurd rfl (other e))

theorem closeBatch_books : KeepsBooks s (s.mapBatch fun _ => Batch.startUp) :=
  .of_batch rfl rfl rfl rfl id fun _ => batchRight_of_empty rfl

theorem restartIdle_books : KeepsBooks s s.restartIdle := .of_batch rfl rfl rfl rfl id id

theorem mapDir_books (f : Directory → Directory) (index : (f s.dir).index = s.dir.index)
    (count : (f s.dir).recordCount = s.dir.recordCount) : KeepsBooks s (s.mapDir f) where
  count h := by rwa [CountRight, mapDir_dir, index, count]
  counter := Nat.le_refl _
  number := id
  save := id
  batch := id

/-! ### The inputs, the receivers and the port -/

theorem setRecall_books (g : Group) (x : RecallState) : KeepsBooks s (s.setRecall g x) := by
  rcases setRecall_touches s g x with same | same
  · exact (mapRecall_books s g _).trans same.books
  · rw [same]
    exact .refl s

theorem fixRecall_books (g : Group) : KeepsBooks s (s.fixRecall g) :=
  .ite ((mapRecall_books s g _).trans (setRecall_books _ _ _)) (.refl s)

theorem mapInput_books (i : Input) (f : Debounce → Debounce) : KeepsBooks s (s.mapInput i f) := by
  cases i <;> exact .of_parts rfl rfl rfl rfl

theorem reach_books {t : Nat} {u : State} (h : s.reach t = some u) : KeepsBooks s u := by
  unfold State.reach at h
  split at h
  · obtain rfl := Option.some.inj h
    exact .refl s
  · split at h
    · obtain rfl := Option.some.inj h
      exact .of_parts rfl rfl rfl rfl
    · cases h

theorem countDone_books {i : Input} {first : Bool} {u : State} (h : s.countDone i first = some u) :
    KeepsBooks s u := by
  obtain ⟨t, -, done⟩ := Option.bind_eq_some_iff.mp h
  obtain ⟨v, reached, rfl⟩ := Option.map_eq_some_iff.mp done
  exact (reach_books s reached).trans (mapInput_books _ _ _)

theorem lineChange_books (g : Group) (active : Bool) : KeepsBooks s (s.lineChange g active) := by
  refine .ite ?_ (.refl s)
  split
  · rename_i done
    exact (countDone_books s done).trans (.ite (setRecall_books _ _ _) (.refl _))
  · exact .refl s

theorem setRx_books (l : Link) (x : Receiver) : KeepsBooks s (s.setRx l x) := by
  cases l with
  | site => exact .of_hand rfl rfl rfl (.inl rfl)
  | group g => exact .of_parts rfl rfl rfl rfl
  | reader c => exact .of_parts rfl rfl rfl rfl

theorem raiseDiscard_books (l : Link) (cause : DiscardCause) : KeepsBooks s (s.raiseDiscard l cause) := by
  cases l with
  | site => exact raiseFault_books _ _ _
  | group g => exact raiseFault_books _ _ _
  | reader c => exact .refl s

theorem receiveFrame_books (f : SiteFrame) : KeepsBooks s (s.receiveFrame f) :=
  have hunting : KeepsBooks s (s.mapSite fun p => { p with rx := .hunting }) := .of_hand rfl rfl rfl (.inl rfl)
  hunting.trans (.ite (.of_hand rfl rfl rfl (.inl rfl)) (raiseFault_books _ _ _))

theorem transmitNext_books : KeepsBooks s s.transmitNext := by
  unfold State.transmitNext
  split
  · exact .refl s
  · split
    · exact .of_hand rfl rfl rfl (.inl rfl)
    · split
      · exact .refl s
      · exact .of_hand rfl rfl rfl (.inl rfl)

theorem answerScan_books : KeepsBooks s s.answerScan := by
  unfold State.answerScan
  split
  · exact (mapDir_books s _ rfl rfl).reply _ _ _
  · exact .refl s

theorem handResult_books : KeepsBooks s s.handResult := by
  unfold State.handResult
  split
  · exact (engineResult_sameEngine _ _).books
  · exact .refl s

/-! ### The group controllers -/

theorem takeReply_books {g : Group} {tag car : Byte} {t : State}
    (h : t ∈ [s.takeAssign g tag car, s.takeEnabled g tag, s.takeRefusal g tag]) : KeepsBooks s t := by
  obtain ⟨gs, rs, tt, f, ns, op, capped, more, rfl⟩ := takeReply_touches s g tag car t h
  exact .of_batch rfl rfl rfl rfl id (batchRight_of_same rfl fun _ _ _ => rfl)

theorem takeGroupState_books (g : Group) (a : Byte) : KeepsBooks s (s.takeGroupState g a) :=
  .ite ((mapGroup_books s g _).trans (regroup_same _ g _ _ _).books) (raiseFault_books _ _ _)

theorem takeCarState_books (g : Group) (car landing motion door inService : Byte) :
    KeepsBooks s (s.takeCarState g car landing motion door inService) := by
  have ended (c : Car) (code : AnswerCode) : KeepsBooks s (s.endEnables g c code) := (endEnables_same s g c code).books
  unfold State.takeCarState
  split
  · split
    · exact raiseFault_books _ _ _
    · exact (KeepsBooks.ite (ended _ _) (.ite (ended _ _) (.refl s))).trans (mapGroup_books _ g _)
  · exact raiseFault_books _ _ _

/-! ### The second event -/

theorem advance_books : KeepsBooks s s.advance := by
  have ticked : KeepsBooks s s.ticked := .of_parts rfl rfl rfl rfl
  cases set : s.cal.state with
  | unset => rw [advance_of_unset set]; exact ticked
  | set =>
    by_cases short : s.cal.second < 59
    · rw [advance_of_second set short]
      exact .of_parts rfl rfl rfl rfl
    · rw [advance_of_minute set short]
      refine ticked.trans ?_
      by_cases met : s.ticked.atMinute.armMet = true
      · rw [minuteBoundary_of_met met]
        exact (saveQueued_books s.ticked).trans (.of_parts rfl rfl rfl rfl)
      · rw [minuteBoundary_of_unmet met]
        exact .of_parts rfl rfl rfl rfl

theorem checkBatch_books : KeepsBooks s s.checkBatch :=
  .ite ((closeBatch_books s).trans (raiseNotice_books _ _)) (.refl s)

theorem checkSilence_batch (c : Chan) : (s.checkSilence c).batch = s.batch := by
  unfold State.checkSilence
  split
  · obtain ⟨rs, q, f, ns, touched⟩ := goOffline_touches s c
    rw [touched]
  · rfl

theorem checkDisplay_batch (c : Chan) : (s.checkDisplay c).batch = s.batch := by
  obtain ⟨f, touched⟩ := checkDisplay_touches s c
  rw [touched]
  rfl

theorem checkDisplay_books (c : Chan) : KeepsBooks s (s.checkDisplay c) := by
  obtain ⟨f, touched⟩ := checkDisplay_touches s c
  rw [touched]
  exact mapReader_books s _ _

theorem SameButGroups.batch {t : State} (h : SameButGroups s t) : t.batch = s.batch := by
  obtain ⟨gs, rs, ns, rfl⟩ := h
  rfl

theorem checkLink_batch (g : Group) : (s.checkLink g).batch = s.batch := by
  unfold State.checkLink
  dsimp only
  split
  · obtain ⟨gs, rs, f, ns, touched⟩ := linkGoesSilent_touches s g
    rw [touched]
  · rfl

theorem checkReply_batch (g : Group) (tag : Byte) : (s.checkReply g tag).batch = s.batch := by
  unfold State.checkReply
  split
  · split
    · exact SameButGroups.batch _ (cancelOrder_same s g _ _)
    · rfl
  · rfl

theorem checkCancel_batch (g : Group) (tag : Byte) : (s.checkCancel g tag).batch = s.batch := by
  unfold State.checkCancel
  split
  · split
    · exact mapGroup_batch s g _
    · rfl
  · rfl

theorem checkHold_batch (g : Group) (car : Car) : (s.checkHold g car).batch = s.batch := by
  unfold State.checkHold
  split
  · exact SameButGroups.batch _ (withdraw_same s g car)
  · rfl

theorem foldl_batch {α : Type} (f : State → α → State) (h : ∀ s a, (f s a).batch = s.batch) (as : List α) :
    (as.foldl f s).batch = s.batch := by
  induction as generalizing s with
  | nil => rfl
  | cons a as ih => exact (ih _).trans (h s a)

theorem checkChannel_batch (c : Chan) : (s.checkChannel c).batch = s.batch :=
  (checkDisplay_batch _ c).trans (checkSilence_batch s c)

theorem checkGroup_batch (g : Group) : (s.checkGroup g).batch = s.batch :=
  (foldl_batch _ _ (fun s car => checkHold_batch s g car) _).trans
    ((foldl_batch _ _ (fun s tag => checkCancel_batch s g tag) _).trans
      ((foldl_batch _ _ (fun s tag => checkReply_batch s g tag) _).trans (checkLink_batch s g)))

/-- R84: of the deadlines the batch's own alone closes it. -/
theorem checkAll_batch : s.checkAll.batch = s.checkBatch.batch :=
  (foldl_batch _ _ checkGroup_batch _).trans (foldl_batch _ _ checkChannel_batch _)

theorem checkAll_books : KeepsBooks s s.checkAll := by
  have rest : SameButDeadlines s.checkBatch s.checkAll :=
    (SameButDeadlines.foldl _ checkChannel_sameDeadlines _ _).trans (.foldl _ checkGroup_sameDeadlines _ _)
  exact (checkBatch_books s).trans (rest.books (checkAll_batch s))

theorem secondEvent_books (first : State → State) (h : ∀ u, KeepsBooks u (first u)) :
    KeepsBooks s (s.secondEvent first) := ((advance_books s).trans (h _)).trans (checkAll_books _)

theorem deadlineEvent_books (due : State → Bool) (deliver : State → State) (h : ∀ u, KeepsBooks u (deliver u)) :
    KeepsBooks s (s.deadlineEvent due deliver) := .ite (secondEvent_books s deliver h) (.refl s)

end

end Sys2Proof.Machine
end

section
/-! PROOF. What the requests keep of the Edit Buffer, the counts and the save (R79 to R85). -/

namespace Sys2Proof.Machine

/-! ### The Edit Buffer (R79) -/

section
variable {b : Batch} {e : Edit}

theorem find_isSome_iff (b : Batch) (badge : Badge) :
    (b.find badge).isSome = true ↔ ∃ x ∈ b.edits, x.badge = badge := by
  simp [Batch.find, List.find?_isSome]

/-- R79: the edit takes the place of the one its badge has. -/
theorem stage_badges_of_held (held : ∃ x ∈ b.edits, x.badge = e.badge) :
    (b.stage e).edits.map Edit.badge = b.edits.map Edit.badge := by
  rw [Batch.stage, if_pos ((find_isSome_iff b e.badge).mpr held), List.map_map]
  refine List.map_congr_left fun x _ => ?_
  show (if x.badge = e.badge then e else x).badge = x.badge
  split
  · rename_i same
    exact same.symm
  · rfl

/-- R79: the first edit of a badge goes to the end. -/
theorem stage_edits_of_fresh (fresh : ¬ ∃ x ∈ b.edits, x.badge = e.badge) : (b.stage e).edits = b.edits ++ [e] := by
  rw [Batch.stage, if_neg fun held => fresh ((find_isSome_iff b e.badge).mp held)]

theorem stage_nodup (nodup : (b.edits.map Edit.badge).Nodup) : ((b.stage e).edits.map Edit.badge).Nodup := by
  by_cases held : ∃ x ∈ b.edits, x.badge = e.badge
  · rwa [stage_badges_of_held held]
  · rw [stage_edits_of_fresh held, List.map_append]
    refine List.nodup_append'.mpr ⟨nodup, List.nodup_singleton _, fun a old new_ => held ?_⟩
    obtain ⟨x, mem, rfl⟩ := List.mem_map.mp old
    exact ⟨x, mem, List.mem_singleton.mp new_⟩

/-- R79: an edit with a place in the buffer keeps it to 64. -/
theorem stage_length (few : b.edits.length ≤ 64)
    (place : b.edits.length < 64 ∨ ∃ x ∈ b.edits, x.badge = e.badge) : (b.stage e).edits.length ≤ 64 := by
  by_cases held : ∃ x ∈ b.edits, x.badge = e.badge
  · have same := congrArg List.length (stage_badges_of_held held)
    rw [List.length_map, List.length_map] at same
    rwa [same]
  · rw [stage_edits_of_fresh held, List.length_append]
    exact place.resolve_right held

end

/-! ### Staging (R81, R83) -/

section
variable (s : State)

/-- R79, R81: an edit with its place is staged in an OPEN batch. -/
theorem stageEdit_books (f : SiteFrame) (e : Edit) (opened : s.batch.state = .open_)
    (place : BatchRight s → s.batch.edits.length < 64 ∨ ∃ x ∈ s.batch.edits, x.badge = e.badge) :
    KeepsBooks s (s.stageEdit f e) := by
  unfold State.stageEdit State.replyOk
  rw [reply_eq]
  refine .of_batch rfl rfl rfl rfl id fun right => ?_
  have room := place right
  obtain ⟨few, nodup, -, -⟩ := right
  exact ⟨stage_length few room, stage_nodup nodup,
    fun closed => absurd (opened.symm.trans closed) nofun, fun _ _ waits => absurd waits nofun⟩

theorem portLookup_books (f : SiteFrame) (w : PortWait) (b : Badge) (other : ∀ e, w ≠ .stage e) :
    KeepsBooks s (s.portLookup f w b) :=
  .ite (reply_books _ _ _ _) ((setInHand_books s f w other).trans (placePrio_books _ _))

/-- R79, R83: the protection of an edit with its place is looked up. -/
theorem stageLookup_books (f : SiteFrame) (e : Edit) (b : Badge)
    (place : s.batch.edits.length < 64 ∨ ∃ x ∈ s.batch.edits, x.badge = e.badge) :
    KeepsBooks s (s.portLookup f (.stage e) b) := by
  have waits : KeepsBooks s (s.setInHand f (.stage e)) := .of_batch rfl rfl rfl rfl id fun right => by
    obtain ⟨few, nodup, closed, -⟩ := right
    refine ⟨few, nodup, closed, fun g x hand => ?_⟩
    obtain rfl := PortWait.stage.inj (congrArg InHand.wait (Option.some.inj hand))
    exact place
  exact .ite (reply_books _ _ _ _) (waits.trans (placePrio_books _ _))

/-- R81: an edit that finds the buffer full has no place in it. -/
theorem tryStage_books (f : SiteFrame) (e : Edit) (opened : s.batch.state = .open_) :
    KeepsBooks s (s.tryStage f e) := by
  unfold State.tryStage
  dsimp only
  split
  · exact reply_books _ _ _ _
  · rename_i room
    have place : s.batch.edits.length < 64 ∨ ∃ x ∈ s.batch.edits, x.badge = e.badge := by
      rw [← find_isSome_iff]
      by_contra none_
      obtain ⟨full, fresh⟩ := not_or.mp none_
      exact room ⟨Nat.le_of_not_lt full, by simpa using fresh⟩
    exact .ite (stageEdit_books s f e opened fun _ => place)
      (.ite (reply_books _ _ _ _) (stageLookup_books s f e _ place))

/-- R83: the protection that has been looked up is that of the edit in hand, which has its place. -/
theorem stageResult_books (f : SiteFrame) (e : Edit) (res : LookupResult)
    (waits : s.site.inHand = some { frame := f, wait := .stage e }) : KeepsBooks s (s.stageResult f e res) := by
  have staged (opened : s.batch.state = .open_) : KeepsBooks s (s.stageEdit f e) :=
    stageEdit_books s f e opened fun right => right.2.2.2 f e waits
  unfold State.stageResult
  split
  · exact reply_books _ _ _ _
  · rename_i opened
    have opened := Decidable.not_not.mp opened
    split
    · exact reply_books _ _ _ _
    · exact staged opened
    · exact .ite (reply_books _ _ _ _) (staged opened)

theorem portResult_books (res : LookupResult) : KeepsBooks s (s.portResult res) := by
  unfold State.portResult
  split
  · unfold State.recordResult
    split <;> exact reply_books _ _ _ _
  · rename_i waits
    exact stageResult_books s _ _ res waits
  · exact .refl s

/-! ### What the requests set -/

theorem scanPage_books (f : SiteFrame) (start next : Badge) (gathered : List Record) (e : IndexEntry)
    (rs : List Record) : KeepsBooks s (s.scanPage f start next gathered e rs) :=
  .ite (setInHand_books s f _ (by simp)) (.ite (setInHand_books s f _ (by simp))
    ((setInHand_books s f _ (by simp)).trans (placePrio_books _ _)))

theorem beginScan_books (f : SiteFrame) (start : Badge) : KeepsBooks s (s.beginScan f start) :=
  (setInHand_books s f _ (by simp)).trans (placePrio_books _ _)

theorem serveScan_books : KeepsBooks s s.serveScan := by
  unfold State.serveScan
  split
  · split
    · exact reply_books _ _ _ _
    · rename_i e _
      have read := readFor_books s e
      split
      · rename_i eq
        rw [eq] at read
        exact read.reply _ _ _
      · rename_i eq
        rw [eq] at read
        exact read.trans (scanPage_books _ _ _ _ _ _ _)
  · exact .refl s

theorem engineRead_books (b : Badge) (now : Bool) : KeepsBooks s (s.engineRead b now) := by
  unfold State.engineRead
  refine (lookup_books s b).trans (.ite (engineResult_sameEngine _ _).books ?_)
  split
  · exact .of_parts rfl rfl rfl rfl
  · exact .refl _

theorem reconfigure_books (c : Chan) (cfg : ChanConfig) : KeepsBooks s (s.reconfigure c cfg) := by
  have marked (u : State) (f : Channel → Channel) : KeepsBooks u ((u.mapReader c f).settleMark c) := by
    obtain ⟨g, q, touched⟩ := settleMark_touches (u.mapReader c f) c
    rw [touched]
    exact .of_parts rfl rfl rfl rfl
  have ended (shown : Bool) (f : Channel → Channel) :
      KeepsBooks s (((if shown then s.sendRecord c .blank else s).mapReader c f).settleMark c) :=
    (KeepsBooks.ite (sendRecord_sameEngine s c _).books (.refl s)).trans (marked _ f)
  have set (shown : Bool) (f g : Channel → Channel) := (ended shown f).trans (mapReader_books _ c g)
  exact .ite (set _ _ _) (.ite (set _ _ _) (.ite (set _ _ _)
    (((set _ _ _).trans (raiseFault_books _ _ _)).trans (raiseNotice_books _ _))))

theorem setChannel_books (c : Chan) (cfg : ChanConfig) : KeepsBooks s (s.setChannel c cfg) :=
  .saved (.ite (mapReader_books _ _ _) (reconfigure_books _ _ _))

theorem setGroup_books (g : Group) (cfg : GroupConfig) : KeepsBooks s (s.setGroup g cfg) :=
  .saved ((mapRecall_books s g _).trans (.ite (setRecall_books _ _ _) (.refl _)))

theorem mapReplaced_books (before : ZoneMap) : KeepsBooks s (s.mapReplaced before) :=
  .foldl _ (fun s _ => .ite (raiseFault_books s _ _) (.refl s)) _ _

theorem replaceMap_books (z : ZoneMap) : KeepsBooks s (s.replaceMap z) :=
  .saved (KeepsBooks.trans (by exact .of_parts rfl rfl rfl rfl) (mapReplaced_books _ _))

theorem clearFaults_books (named : BitVec 12) : KeepsBooks s (s.clearFaults named) := by
  refine ((mapFaults_books s _).trans (.foldl _ (fun s k => ?_) _ _)).trans (reworkLine_books _)
  split
  · exact raiseFault_books _ _ _
  · exact .refl s

end

/-! ### The requests and the events -/

section
variable {s t u : State} {r : Req}

theorem whileRunning_books {f : State → State} (h : whileRunning f s = .next t) (keeps : KeepsBooks s (f s)) :
    KeepsBooks s t := by
  rcases whileRunning_cases h with rfl | ⟨-, rfl⟩
  · exact .refl t
  · exact keeps.trans (settle_books _)

theorem Taken.books (h : Taken s u) : KeepsBooks s u := .of_hand h.dir h.store h.batch (.inr h.hand)

/-- R163: a request whose owner keeps what it finds. -/
theorem siteRequest_books {type : Byte} {early fits : Bool} {owner : SiteFrame → State → State}
    (h : siteRequest type r early fits owner s = .next t)
    (carried : ∀ f u, Taken s u → KeepsBooks u (owner f u)) : KeepsBooks s t := by
  unfold siteRequest at h
  refine whileRunning_books h ?_
  dsimp only
  split
  · exact receiveFrame_books s _
  · rename_i took
    have taken := takeFrame_taken took
    exact .ite (taken.books.reply _ _ _) (.ite (taken.books.reply _ _ _) (taken.books.trans (carried _ _ taken)))

end

end Sys2Proof.Machine
end

section
/-! PROOF. What the running work and the array keep of the counts, the commit counter and the save. -/

namespace Sys2Proof.Machine

section
variable (s : State)

/-- The running work goes on or ends, and the save and its area stand. -/
theorem mapStore_books (f : Store → Store) (counter : (f s.store).counter = s.store.counter)
    (work : ∀ w, (f s.store).work = some w → ∃ v, s.store.work = some v ∧ w.number = v.number)
    (area : (f s.store).area = s.store.area) (save : (f s.store).save = s.store.save) :
    KeepsBooks s (s.mapStore f) where
  count := id
  counter := Nat.le_of_eq counter.symm
  number h w runs := by
    obtain ⟨v, before, same⟩ := work w runs
    rw [same, mapStore_store, counter]
    exact h v before
  save h runs := by
    rw [mapStore_store, area]
    rw [mapStore_store, save] at runs
    exact h runs
  batch := id

/-- The running work stands with all that the counts and the save are. -/
theorem mapStore_books_of_same (f : Store → Store) (counter : (f s.store).counter = s.store.counter)
    (work : (f s.store).work = s.store.work) (area : (f s.store).area = s.store.area)
    (save : (f s.store).save = s.store.save) : KeepsBooks s (s.mapStore f) :=
  mapStore_books s f counter (fun w runs => ⟨w, work.symm.trans runs, rfl⟩) area save

theorem mapWork_books (f : Work → Work) (number : ∀ w, (f w).number = w.number := by intro _; rfl) :
    KeepsBooks s (s.mapWork f) :=
  mapStore_books s _ rfl (fun w runs => by
    obtain ⟨v, before, rfl⟩ := Option.map_eq_some_iff.mp runs
    exact ⟨v, before, number v⟩) rfl rfl

theorem endOp_books : KeepsBooks s s.endOp := mapStore_books_of_same s _ rfl rfl rfl rfl

theorem dropWork_books : KeepsBooks s s.dropWork := mapStore_books_of_same s _ rfl rfl rfl rfl

/-- R65: a work takes the number that the counter shows, and the counter goes past it. -/
theorem takeNumber_books (w : Work) : KeepsBooks s (s.takeNumber w) where
  count := id
  counter := Nat.le_succ _
  number _ v runs := by
    obtain rfl := Option.some.inj runs
    exact Nat.lt_succ_self _
  save := id
  batch := id

/-! ### The running work -/

theorem failWork_books (cause : FailCause) : KeepsBooks s (s.failWork cause) := by
  cases running : s.store.work with
  | none =>
    rw [failWork_of_none running]
    exact .refl s
  | some w =>
    obtain ⟨dir, site, batch, v, store, -⟩ := failWork_failed s running cause
    generalize s.failWork cause = t at dir site batch store
    have keeps : KeepsBooks s (s.mapStore fun _ => t.store) :=
      mapStore_books s _ (by rw [store]) (fun w runs => by rw [store] at runs; cases runs) (by rw [store])
        (by rw [store])
    refine { keeps with count := fun h => by rwa [CountRight, dir], batch := fun right => ?_ }
    rcases batch with same | closed
    · exact batchRight_of_same same (fun _ _ _ => by rw [site]) right
    · exact batchRight_of_empty (by rw [closed]; rfl)

theorem checkLack_books : KeepsBooks s s.checkLack := by
  unfold State.checkLack
  split
  · exact .ite (failWork_books _ _) (.refl s)
  · exact .refl s

theorem checkWait_books : KeepsBooks s s.checkWait := by
  unfold State.checkWait
  split
  · exact .ite ((mapStore_books_of_same s _ rfl rfl rfl rfl).trans (mapWork_books _ _)) (.refl s)
  · exact .refl s

theorem queueLogMark_books : KeepsBooks s s.queueLogMark := by
  unfold State.queueLogMark
  split
  · exact .ite (mapStore_books_of_same s _ rfl rfl rfl rfl) (.refl s)
  · exact .refl s

theorem checkProgrammed_books : KeepsBooks s s.checkProgrammed := by
  unfold State.checkProgrammed
  split
  · exact .ite ((mapWork_books s _).trans (queueLogMark_books _)) (.refl s)
  · exact .refl s

theorem startCopies_books : KeepsBooks s s.startCopies :=
  (((mapWork_books s _).trans (checkLack_books _)).trans (checkWait_books _)).trans
    (checkProgrammed_books _)

theorem beginErase_books : KeepsBooks s (s.mapStore Store.beginErase) := by
  refine mapStore_books_of_same s _ ?_ ?_ ?_ ?_
  all_goals
    unfold Store.beginErase
    split <;> rfl

theorem beginProgram_books (i : Nat) (p : Page) : KeepsBooks s (s.beginProgram i p) := by
  unfold State.beginProgram
  split
  · exact .refl s
  · split
    · exact .refl s
    · exact mapStore_books_of_same s _ rfl rfl rfl rfl

theorem arbitrate_books : KeepsBooks s s.arbitrate := by
  have begins (k : OpKind) : KeepsBooks s (s.mapStore fun st => { st with op := some (ArrayOp.begin_ k) }) :=
    mapStore_books_of_same s _ rfl rfl rfl rfl
  unfold State.arbitrate
  refine .ite (.refl s) ?_
  split
  · exact .ite (mapStore_books_of_same s _ rfl rfl rfl rfl) (.refl s)
  · refine .ite (.refl s) ?_
    split
    · exact beginErase_books s
    · split
      · exact beginProgram_books s _ _
      · exact beginErase_books s
    · exact begins _
    · exact begins _
    · exact .refl s
    · exact begins _

variable {s} in
theorem KeepsBooks.arbitrate {t : State} (h : KeepsBooks s t) : KeepsBooks s t.arbitrate := h.trans (arbitrate_books t)

/-! ### Marks and reads -/

theorem markPages_books (b : Badge) (ps : List Page) :
    KeepsBooks s (s.mapStore fun st => ps.foldl (fun st p => st.markPage b p) st) := by
  induction ps generalizing s with
  | nil => exact .refl s
  | cons p ps ih => exact (mapStore_books_of_same s (fun st => st.markPage b p) rfl rfl rfl rfl).trans (ih _)

theorem markTargets_books (b : Badge) : KeepsBooks s (s.markTargets b).1 := by
  rcases markTargets_cases s b with eq | ⟨e, eq⟩ <;> rw [eq]
  · exact .refl s
  · exact readFor_books s e

theorem serveMark_books (b : Badge) : KeepsBooks s (s.serveMark b) := by
  have targets := markTargets_books s b
  unfold State.serveMark
  split
  · rename_i s1 eq
    rw [eq] at targets
    exact targets.trans (mapDir_books _ _ rfl rfl)
  · rename_i s1 ps eq
    rw [eq] at targets
    exact (targets.trans (markPages_books _ b ps)).trans (mapDir_books _ _ rfl rfl)

theorem compactNext_books : KeepsBooks s s.compactNext := by
  unfold State.compactNext
  split
  · split
    · exact (mapWork_books s _).trans (startCopies_books _)
    · exact placePrio_books _ _
  · exact .refl s

theorem serveCompact_books : KeepsBooks s s.serveCompact := by
  unfold State.serveCompact
  split
  · split
    · exact .refl s
    · rename_i e rest _
      have read := readFor_books s e
      split
      rename_i s1 rs eq
      rw [eq] at read
      refine read.trans ?_
      unfold State.compactPage
      split
      · exact .ite (failWork_books _ _) ((mapWork_books _ _).trans (compactNext_books _))
      · exact (mapWork_books _ _).trans (compactNext_books _)
  · exact .refl s

/-! ### BATCH COMMIT -/

theorem refuseCommit_books (f : SiteFrame) (x : Result) (d : List Byte) : KeepsBooks s (s.refuseCommit f x d) :=
  (restartIdle_books s).reply _ _ _

/-- R79: the batch goes on with its edits. -/
theorem mapBatch_books (f : Batch → Batch) (edits : (f s.batch).edits = s.batch.edits)
    (stands : (f s.batch).state ≠ .closed) : KeepsBooks s (s.mapBatch f) :=
  .of_batch rfl rfl rfl rfl id fun right => by
    obtain ⟨few, nodup, -, staged⟩ := right
    rw [BatchRight, mapBatch_batch, edits]
    exact ⟨few, nodup, fun closed => absurd closed stands, staged⟩

theorem acceptCommit_books (f : SiteFrame) (p : Plan) : KeepsBooks s (s.acceptCommit f p) := by
  have begun : KeepsBooks s (s.accepted f p) := by
    have taken := takeNumber_books s (p.work s.store.counter)
    exact (taken.trans (mapBatch_books _ _ rfl (by simp))).reply _ _ _
  exact (begun.trans (startCopies_books _)).arbitrate

theorem planNext_books (f : SiteFrame) (todo : List IndexEntry) (done : List (IndexEntry × List Record)) :
    KeepsBooks s (s.planNext f todo done) := by
  unfold State.planNext
  split
  · exact .ite (refuseCommit_books _ _ _ _) (.ite (refuseCommit_books _ _ _ _) (acceptCommit_books _ _ _))
  · exact (setInHand_books s f _ (by simp)).trans (placePrio_books _ _)

theorem servePlan_books : KeepsBooks s s.servePlan := by
  unfold State.servePlan
  split
  · rename_i f e rest done _
    have read := readFor_books s e
    split
    · rename_i eq
      rw [eq] at read
      exact read.trans (refuseCommit_books _ _ _ _)
    · rename_i eq
      rw [eq] at read
      exact read.trans (planNext_books _ _ _ _)
  · exact .refl s

/-! ### Ends of operations -/

theorem pageLost_books (p : Page) (k : FaultKind) (n : Nat) :
    KeepsBooks s ((((s.mapStore fun st => st.retire p).endOp).raiseFault k p.val).checkSpare n) :=
  (((mapStore_books_of_same s _ rfl rfl rfl rfl).trans (endOp_books _)).trans (raiseFault_books _ _ _)).trans
    (checkSpare_books _ _)

theorem programDone_books (i : Nat) (p : Page) : KeepsBooks s (s.programDone i p) :=
  ((((mapStore_books_of_same s _ rfl rfl rfl rfl).trans (endOp_books _)).trans (dropWork_books _)).trans
    (mapWork_books _ _)).trans (checkProgrammed_books _)

theorem programFailed_books (i : Nat) (p : Page) : KeepsBooks s (s.programFailed i p) := by
  have counted := (pageLost_books s p .storeProgramFail s.store.spareSum).trans
    (mapWork_books _ (fun w => { w with copies := w.copies.modify i Copy.failed }) fun _ => rfl)
  unfold State.programFailed
  dsimp only
  split
  · exact .ite (counted.trans (failWork_books _ _)) (counted.trans (checkLack_books _))
  · exact counted

theorem eraseDone_books (p : Page) : KeepsBooks s (s.eraseDone p) :=
  (((mapStore_books_of_same s _ rfl rfl rfl rfl).trans (endOp_books _)).trans (checkWait_books _)).trans
    (queueLogMark_books _)

theorem eraseFailed_books (p : Page) : KeepsBooks s (s.eraseFailed p) :=
  ((pageLost_books s p .storeEraseFail s.store.spareSum).trans (checkLack_books _)).trans (queueLogMark_books _)

theorem logEraseDone_books (p : Fin 8) : KeepsBooks s (s.logEraseDone p) :=
  ((mapStore_books_of_same s _ rfl rfl rfl rfl).trans (endOp_books _)).trans (dropWork_books _)

theorem logLost_books (p : Fin 8) : KeepsBooks s (s.logLost p) := by
  have cut := ((mapStore_books_of_same s (fun st =>
    { st with log := st.log.set p.val (cutLogPage s.free st.log[p]) p.isLt }) rfl rfl rfl rfl).trans
      (endOp_books _)).trans (dropWork_books _)
  exact (cut.trans (raiseFault_books _ .storeEraseFail (1024 + p.val))).trans (by exact .of_parts rfl rfl rfl rfl)

theorem logEraseFailed_books (p : Fin 8) : KeepsBooks s (s.logEraseFailed p) := by
  have lost := logLost_books s p
  rcases logEraseFailed_cases s p with eq | ⟨top, eq⟩ <;> rw [eq]
  · exact lost.trans (mapStore_books_of_same _ _ rfl rfl rfl rfl)
  · exact (lost.trans (mapStore_books_of_same _ _ rfl rfl rfl rfl)).trans (failWork_books _ _)

/-! ### Settings saves (R68, R69) -/

theorem beginSave_books : KeepsBooks s s.beginSave where
  count := id
  counter := Nat.le_refl _
  number := id
  save _ _ := rfl
  batch := id

theorem saveEntryDone_books (k : Nat) : KeepsBooks s (s.saveEntryDone k) :=
  (mapStore_books_of_same s _ rfl rfl rfl rfl).trans (endOp_books _)

/-- R68: a save that has ended runs no more, whatever its area holds. -/
theorem mapStore_books_of_rests (f : Store → Store) (counter : (f s.store).counter = s.store.counter)
    (work : (f s.store).work = s.store.work) (rests : (f s.store).save.state ≠ .running) :
    KeepsBooks s (s.mapStore f) where
  count := id
  counter := Nat.le_of_eq counter.symm
  number h := by rwa [NumberSpent, mapStore_store, counter, work]
  save _ runs := absurd runs rests
  batch := id

theorem saveDone_books : KeepsBooks s s.saveDone := by
  have ended := ((mapStore_books_of_rests s (fun st =>
      { st with area := { complete := true, checkMatches := true, image := st.save.image.getD st.area.image }
                save := { st.save with state := .idle, last := .ok, retry := false, image := none } })
    rfl rfl nofun).trans (endOp_books _)).trans (dropWork_books _)
  exact .ite (.saved (ended.trans (mapStore_books_of_rests _ _ rfl rfl nofun))) ended

theorem saveFailed_books (erase : Bool) (p : Nat) : KeepsBooks s (s.saveFailed erase p) :=
  have raised := ((endOp_books s).trans (dropWork_books _)).trans
    (raiseFault_books _ (if erase then .storeEraseFail else .storeProgramFail) (2048 + p))
  .ite (raised.trans (mapStore_books_of_rests _ _ rfl rfl nofun))
    (raised.trans (mapStore_books_of_rests _ _ rfl rfl nofun))

/-! ### The commit-complete event (R45, R66) -/

/-- R39, R45: the record count is taken anew from the index that is switched in. -/
theorem switchPages_books (w : Work) : KeepsBooks s (s.switchPages w) := by
  obtain ⟨v, data⟩ := foldl_setState_eq s.store w.heldPages .data
  obtain ⟨v', eq, -⟩ := toStale_spec { s.store with pageState := v } w.released .superseded
  unfold State.switchPages
  simp only [State.mapStore, data, eq]
  exact ⟨fun _ => rfl, Nat.le_refl _, fun _ _ runs => absurd runs nofun, id, id⟩

theorem restartScan_books : KeepsBooks s s.restartScan := by
  unfold State.restartScan
  split
  · exact setInHand_books s _ _ (by simp)
  · exact .refl s

theorem commitDone_books (w : Work) : KeepsBooks s (s.commitDone w) := by
  have switched := (((mapStore_books_of_same s (fun st => st.logNumber w.number) rfl rfl rfl rfl).trans
    (endOp_books _)).trans (dropWork_books _)).trans (switchPages_books _ w)
  unfold State.commitDone
  dsimp only
  generalize (((s.mapStore fun st => st.logNumber w.number).endOp).dropWork).switchPages w = u at switched
  refine (KeepsBooks.trans ?_ (checkSpare_books _ _)).trans (restartScan_books _)
  cases w.kind with
  | commit =>
    have closed : KeepsBooks u { u with transfer := u.transfer.purge u.batch.purge, batch := Batch.startUp } :=
      .of_batch rfl rfl rfl rfl id fun _ => batchRight_of_empty rfl
    exact (switched.trans closed).trans (raiseNotice_books _ _)
  | compact => exact (switched.trans (mapDir_books _ _ rfl rfl)).trans (raiseNotice_books _ _)

end

/-! ### Start-up, the scan and the opening -/

section
variable {s t : State}

/-- R65, R92: a start-up keeps the counter and leaves neither a work nor a save. -/
theorem FromPages.books {pages : Vector DirPage 544} (h : FromPages pages t)
    (counter : t.store.counter = s.store.counter) (save : t.store.save = Save.startUp) : KeepsBooks s t where
  count _ := by
    rw [CountRight, h.dir]
    rfl
  counter := Nat.le_of_eq counter.symm
  number _ w runs := absurd (h.work.symm.trans runs) nofun
  save _ runs := by
    rw [save] at runs
    cases runs
  batch _ := batchRight_of_empty (by rw [h.batch]; rfl)

theorem startUp_books (s : State) : KeepsBooks s s.startUp := by
  refine (startUp_fromPages s).books ?_ ?_
  all_goals
    rw [State.startUp, raiseFault_store]
    rfl

theorem cut_volatileReset_books (s : State) : KeepsBooks s s.cut.volatileReset :=
  (volatileReset_fromPages s.cut).books (cut_counter s) rfl

theorem cut_startUp_books (s : State) : KeepsBooks s s.cut.startUp := by
  refine (startUp_fromPages s.cut).books ?_ ?_
  all_goals rw [State.startUp, raiseFault_store]
  · exact cut_counter s
  · rfl

/-- R39, R65, R72: the scan takes the count from its index, and sets the counter never back. -/
theorem scanEnds_books (s : State) : KeepsBooks s s.scanEnds := by
  have scanned := scanEnds_scanned s
  have formed := scanned_dirScanned s.dir s.store
  have counter := scanned_counter s.store (keptOf s.store.candidates)
  have store := scanEnds_store s
  rw [← scanEnds_dir] at formed
  obtain ⟨v, page, slot, number, queue, parts⟩ := scanned_parts s.store (keptOf s.store.candidates)
  rw [parts] at store counter
  have forward : s.store.counter ≤ s.scanEnds.store.counter := by
    rw [store]
    exact (Nat.le_max_left _ _).trans (Nat.le_of_eq counter.symm)
  exact {
    count := fun _ => by rw [CountRight, formed.recordCount, formed.index]
    counter := forward
    number := fun h w runs => lt_of_lt_of_le (h w (scanned.work ▸ runs)) forward
    save := fun h => by
      rw [RunningSaveHasNoImage, store]
      exact h
    batch := batchRight_of_same scanned.batch fun _ _ _ => scanned.hand }

theorem opens_books (s : State) : KeepsBooks s s.opens := by
  have applied (u : State) (x : Settings) : KeepsBooks u (u.applySettings x) := .of_parts rfl rfl rfl rfl
  have opened (u : State) : KeepsBooks u u.opened := .of_hand rfl rfl rfl (.inl rfl)
  have taken (x : Settings) (u : State) (h : KeepsBooks s u) : KeepsBooks s ((finList 6).foldl State.fixRecall
      (((((u.mapReplaced s.zone).mapFaults fun f => { f with masks := x.masks, majors := x.majors }).mapNotices
        fun n => n.setEnables x.enables).mapSite fun p => { p with phase := .open_ }).reworkLine)) := by
    have set := ((h.trans (mapReplaced_books u s.zone)).trans (mapFaults_books _ fun f =>
      { f with masks := x.masks, majors := x.majors })).trans (mapNotices_books _ fun n => n.setEnables x.enables)
    exact ((set.trans (opened _)).trans (reworkLine_books _)).trans (.foldl _ fixRecall_books _ _)
  unfold State.opens
  split
  · exact taken _ _ (applied s _)
  · exact taken _ _ ((raiseFault_books s _ _).trans (applied _ _))

end

end Sys2Proof.Machine
end

section
/-! PROOF. What every step keeps of the trip marks on the pages and of the pages under PROGRAM or ERASE (R46, R57). -/

namespace Sys2Proof.Machine

/-! ### The two parts of the budgets (R46) -/

/-- R46: no record on a page is marked above its budget. -/
def PagesInBudget (st : Store) : Prop :=
  ∀ p x r n, (st.page p).contents = .programmed x → r ∈ x.records → r.budget = some n → r.marks ≤ n

/-- R46: a record that an edit brings has every slot unmarked. -/
def PlanRecord.Unmarked (pr : PlanRecord) : Prop := ∀ r, pr.fresh = some r → r.slots = 0

/-- R46: the copies of a work bring unmarked records alone. -/
def Work.Unmarked (w : Work) : Prop := ∀ c ∈ w.copies, ∀ pr ∈ c.records, pr.Unmarked

theorem marksWithinBudget_iff {s : State} :
    MarksWithinBudget s ↔ PagesInBudget s.store ∧ ∀ w, s.store.work = some w → w.Unmarked :=
  ⟨fun ⟨pages, fresh⟩ => ⟨pages, fun w runs c copy pr mem r => fresh w c pr r runs copy mem⟩,
    fun ⟨pages, fresh⟩ => ⟨pages, fun w c pr r runs copy mem => fresh w runs c copy pr mem r⟩⟩

theorem marks_of_unmarked {r : Record} (h : r.slots = 0) : r.marks = 0 := by
  simp [Record.marks, h]

/-- A page set with records within their budgets. -/
theorem PagesInBudget.setPage {st : Store} (h : PagesInBudget st) (p : Page) (d : DirPage)
    (new_ : ∀ x, d.contents = .programmed x → ∀ r ∈ x.records, ∀ n, r.budget = some n → r.marks ≤ n) :
    PagesInBudget (st.setPage p d) := fun q x r n img mem budget => by
  by_cases eq : q = p
  · subst eq
    rw [page_setPage] at img
    exact new_ x img r mem n budget
  · rw [page_setPage_of_ne _ _ _ _ eq] at img
    exact h q x r n img mem budget

theorem PagesInBudget.contents {st : Store} (h : PagesInBudget st) {p : Page} {x : PageImage}
    (img : (st.page p).contents = .programmed x) :
    ∀ r ∈ x.records, ∀ n, r.budget = some n → r.marks ≤ n := fun r mem n => h p x r n img mem

/-- R46, R48: a mark stays within the budget. -/
theorem PagesInBudget.markPage {st : Store} (h : PagesInBudget st) (b : Badge) (p : Page) :
    PagesInBudget (st.markPage b p) := fun q x r n img mem budget => by
  rw [page_markPage] at img
  split at img
  · obtain ⟨y, before, rfl⟩ := mark_programmed_iff.mp img
    obtain ⟨old, held, rfl⟩ := List.mem_map.mp mem
    by_cases own : (old.badge == b) = true
    · rw [if_pos own] at budget ⊢
      have same : old.mark.budget = old.budget := by
        obtain ⟨x, eq⟩ := mark_touches old
        rw [eq]
      rw [same] at budget
      exact mark_within_budget old n budget (h q y old n before held budget)
    · rw [if_neg own] at budget ⊢
      exact h q y old n before held budget
  · exact h q x r n img mem budget

theorem PagesInBudget.markPages {st : Store} (h : PagesInBudget st) (b : Badge) (ps : List Page) :
    PagesInBudget (ps.foldl (fun st p => st.markPage b p) st) := by
  induction ps generalizing st with
  | nil => exact h
  | cons p ps ih => exact ih (h.markPage b p)

/-! ### The records of a plan and of a layout -/

theorem applyEdits_unmarked {edits : List Edit} {rs : List PlanRecord} (h : ∀ pr ∈ rs, pr.Unmarked) :
    ∀ pr ∈ edits.foldl applyEdit rs, pr.Unmarked := by
  induction edits generalizing rs with
  | nil => exact h
  | cons e es ih =>
    refine ih fun pr mem => ?_
    rcases mem_applyEdit_iff.mp mem with ⟨r, -, rfl⟩ | ⟨old, -⟩
    · rintro x fresh
      obtain rfl := Option.some.inj fresh
      rfl
    · exact h pr old

theorem carried_unmarked (rs : List Record) : ∀ pr ∈ rs.map PlanRecord.carried, pr.Unmarked := by
  intro pr mem r fresh
  obtain ⟨x, -, rfl⟩ := List.mem_map.mp mem
  cases fresh

theorem rowOf_unmarked (st : Store) (edits : List Edit) (done : List (IndexEntry × List Record)) (e : IndexEntry) :
    ∀ pr ∈ (st.rowOf edits done e).records, pr.Unmarked := by
  have row (es : List Edit) (rs : List Record) : ∀ pr ∈ (planRow es e rs).records, pr.Unmarked :=
    applyEdits_unmarked (carried_unmarked rs)
  unfold Store.rowOf
  split
  · exact row _ _
  · split <;> exact row _ _

/-- R87: what the copies of a plan hold stands in its rows. -/
theorem planOf_copies_from_rows {rows : List PlanRow} {x : Copy} (copy : x ∈ (planOf rows).copies) {pr : PlanRecord}
    (mem : pr ∈ x.records) : ∃ r ∈ rows, pr ∈ r.records := by
  by_cases none_ : rows = []
  · subst none_
    cases copy
  · by_cases all : ∀ r ∈ rows, r.emptied = true
    · rw [planOf_copies_of_emptied none_ all, List.mem_singleton] at copy
      rw [copy] at mem
      cases mem
    · rw [planOf_copies_of_standing all] at copy
      obtain ⟨c, cover, copy⟩ := List.mem_flatMap.mp copy
      obtain ⟨below, r, gap, above, stands, rfl⟩ := mem_planCovers_iff.mp cover
      have rewritten := rewritten_of_mem_copies copy
      refine ⟨r, by rw [stands.rows]; simp, ?_⟩
      rw [← standingCover_records (below := below) (gap := gap), ← coverCopies_flatMap rewritten]
      exact List.mem_flatMap.mpr ⟨x, copy, mem⟩

/-- R46, R87: the copies of a commit's plan. -/
theorem plan_unmarked (s : State) (done : List (IndexEntry × List Record)) (n : Nat) :
    ((planOf (s.planRows done)).work n).Unmarked := fun x copy pr mem => by
  obtain ⟨r, row, held⟩ := planOf_copies_from_rows copy mem
  obtain ⟨e, -, rfl⟩ := List.mem_map.mp row
  exact rowOf_unmarked _ _ _ e pr held

/-- R75: the copies of a COMPACT carry their records. -/
theorem layout_unmarked (rs : List Record) : ∀ c ∈ compactLayout rs, ∀ pr ∈ c.records, pr.Unmarked := by
  intro c copy pr mem
  obtain ⟨-, run, -, records⟩ := compactCopies_records copy
  exact carried_unmarked run pr (records ▸ mem)

/-! ### The pages under an operation (R57) -/

/-- R57: a page that the array's operation is on. -/
def PageState.Busy (x : PageState) : Prop := x.isErasing = true ∨ x = .writing

/-- R57: no page is under an operation. -/
def NoPageBusy (s : State) : Prop := ∀ p, ¬ (s.store.stateOf p).Busy

section
variable {s t u : State}

theorem NoPageBusy.onePage (h : NoPageBusy s) : OnePageAtATime s :=
  ⟨fun p erasing => absurd (.inl erasing) (h p), fun p writing => absurd (.inr writing) (h p)⟩

/-- R57: a page under an operation is the one that the operation names. -/
theorem onePage_kind (h : OnePageAtATime s) {p : Page} (busy : (s.store.stateOf p).Busy) :
    (∃ i, s.store.op.map ArrayOp.kind = some (.program i p)) ∨ s.store.op.map ArrayOp.kind = some (.eraseDir p) := by
  rcases busy with erasing | writing
  · exact .inr (h.1 p erasing)
  · exact .inl (h.2 p writing)

/-- R57: an array that does nothing has no page under an operation. -/
theorem noPageBusy_of_idle (h : OnePageAtATime s) (idle : s.store.op = none) : NoPageBusy s := fun p busy => by
  rcases onePage_kind h busy with ⟨i, kind⟩ | kind <;> simp [idle] at kind

/-- R57: the operation that ends leaves its page in another state, and no other page was under one. -/
theorem noPageBusy_of_ended (h : OnePageAtATime s) {k : OpKind} (running : s.store.op.map ArrayOp.kind = some k)
    (left : ∀ q, (t.store.stateOf q).Busy →
      t.store.stateOf q = s.store.stateOf q ∧ (∀ i, k ≠ .program i q) ∧ k ≠ .eraseDir q) : NoPageBusy t :=
  fun q busy => by
    obtain ⟨same, program, erase⟩ := left q busy
    rw [same] at busy
    rcases onePage_kind h busy with ⟨i, kind⟩ | kind
    · exact program i (Option.some.inj (running.symm.trans kind))
    · exact erase (Option.some.inj (running.symm.trans kind))

/-- What a step keeps of the pages, each part from itself alone. -/
structure KeepsPages (s t : State) : Prop where
  marks : MarksWithinBudget s → MarksWithinBudget t
  onePage : OnePageAtATime s → OnePageAtATime t

/-- Nothing begins: the operation goes on, and no page comes under it. -/
structure Steady (s t : State) : Prop where
  marks : MarksWithinBudget s → MarksWithinBudget t
  calm : ∀ p, (t.store.stateOf p).Busy → t.store.stateOf p = s.store.stateOf p
  op : t.store.op.map ArrayOp.kind = s.store.op.map ArrayOp.kind

theorem KeepsPages.refl (s : State) : KeepsPages s s := ⟨id, id⟩

theorem KeepsPages.trans (h : KeepsPages s t) (k : KeepsPages t u) : KeepsPages s u :=
  ⟨k.marks ∘ h.marks, k.onePage ∘ h.onePage⟩

theorem KeepsPages.ite {c : Prop} [Decidable c] (h : KeepsPages s t) (k : KeepsPages s u) :
    KeepsPages s (if c then t else u) := by
  split
  · exact h
  · exact k

theorem Steady.refl (s : State) : Steady s s := ⟨id, fun _ _ => rfl, rfl⟩

theorem Steady.trans (h : Steady s t) (k : Steady t u) : Steady s u where
  marks := k.marks ∘ h.marks
  calm p busy := by
    have same := k.calm p busy
    exact same.trans (h.calm p (same ▸ busy))
  op := k.op.trans h.op

theorem Steady.ite {c : Prop} [Decidable c] (h : Steady s t) (k : Steady s u) : Steady s (if c then t else u) := by
  split
  · exact h
  · exact k

theorem Steady.keeps (h : Steady s t) : KeepsPages s t where
  marks := h.marks
  onePage right := ⟨fun p erasing => by
      rw [h.op]
      exact right.1 p (h.calm p (.inl erasing) ▸ erasing),
    fun p writing => by
      rw [h.op]
      exact right.2 p ((h.calm p (.inr writing)).symm.trans writing)⟩

theorem marks_of_same (page : ∀ p, t.store.page p = s.store.page p) (work : t.store.work = s.store.work)
    (h : MarksWithinBudget s) : MarksWithinBudget t := by
  rw [marksWithinBudget_iff] at h ⊢
  refine ⟨fun p x r n img => h.1 p x r n (page p ▸ img), ?_⟩
  rw [work]
  exact h.2

theorem SameWork.steady (h : SameWork s t) : Steady s t :=
  ⟨marks_of_same h.page h.work, fun p _ => h.stateOf p, h.op⟩

/-- The pages stand, and what is left of the running work brings unmarked records. -/
theorem marks_of_work (page : ∀ p, t.store.page p = s.store.page p)
    (work : ∀ w, t.store.work = some w → w.Unmarked ∨ ∃ v, s.store.work = some v ∧ (v.Unmarked → w.Unmarked))
    (h : MarksWithinBudget s) : MarksWithinBudget t := by
  rw [marksWithinBudget_iff] at h ⊢
  refine ⟨fun p x r n img => h.1 p x r n (page p ▸ img), fun w runs => ?_⟩
  rcases work w runs with own | ⟨v, before, goes⟩
  · exact own
  · exact goes (h.2 v before)

end

/-! ### The running work -/

section
variable (s : State)

theorem mapStore_steady (f : Store → Store) (pages : (f s.store).pages = s.store.pages := by rfl)
    (states : (f s.store).pageState = s.store.pageState := by rfl) (work : (f s.store).work = s.store.work := by rfl)
    (op : (f s.store).op = s.store.op := by rfl) : Steady s (s.mapStore f) :=
  ⟨marks_of_same (fun p => by rw [mapStore_store, Store.page, pages]; rfl) work,
    fun p _ => by rw [mapStore_store, Store.stateOf, states]; rfl, by rw [mapStore_store, op]⟩

theorem mapWork_steady (f : Work → Work) (unmarked : ∀ w, w.Unmarked → (f w).Unmarked := by exact fun _ h => h) :
    Steady s (s.mapWork f) :=
  ⟨marks_of_work (fun _ => rfl) fun w runs => by
    obtain ⟨v, before, rfl⟩ := Option.map_eq_some_iff.mp runs
    exact .inr ⟨v, before, unmarked v⟩, fun _ _ => rfl, rfl⟩

theorem failWork_steady (cause : FailCause) : Steady s (s.failWork cause) := by
  cases running : s.store.work with
  | none =>
    rw [failWork_of_none running]
    exact .refl s
  | some w =>
    obtain ⟨-, -, -, v, store, states⟩ := failWork_failed s running cause
    generalize s.failWork cause = t at store
    refine ⟨marks_of_work (fun p => by rw [store]; rfl) (fun w runs => by rw [store] at runs; cases runs),
      fun p busy => ?_, by rw [store]⟩
    have state : t.store.stateOf p = if p ∈ w.heldPages then .stale .abandoned else s.store.stateOf p := by
      rw [store]
      exact states p
    by_cases held : p ∈ w.heldPages
    · rw [state, if_pos held] at busy
      rcases busy with erasing | writing
      · cases erasing
      · cases writing
    · rw [state, if_neg held]

theorem checkLack_steady : Steady s s.checkLack := by
  unfold State.checkLack
  split
  · exact .ite (failWork_steady _ _) (.refl s)
  · exact .refl s

theorem checkWait_steady : Steady s s.checkWait := by
  unfold State.checkWait
  split
  · exact .ite ((mapStore_steady s _).trans (mapWork_steady _ _)) (.refl s)
  · exact .refl s

theorem queueLogMark_steady : Steady s s.queueLogMark := by
  unfold State.queueLogMark
  split
  · exact .ite (mapStore_steady s _) (.refl s)
  · exact .refl s

theorem checkProgrammed_steady : Steady s s.checkProgrammed := by
  unfold State.checkProgrammed
  split
  · exact .ite ((mapWork_steady s _).trans (queueLogMark_steady _)) (.refl s)
  · exact .refl s

theorem startCopies_steady : Steady s s.startCopies :=
  (((mapWork_steady s _).trans (checkLack_steady _)).trans (checkWait_steady _)).trans (checkProgrammed_steady _)

/-! ### The reads -/

theorem compactNext_steady : Steady s s.compactNext := by
  unfold State.compactNext
  split
  · split
    · have laid := mapWork_steady s (Work.laidOut s.dir.index) fun w _ => layout_unmarked w.gathered
      exact laid.trans (startCopies_steady _)
    · exact (placePrio_sameWork _ _).steady
  · exact .refl s

theorem serveCompact_steady : Steady s s.serveCompact := by
  unfold State.serveCompact
  split
  · split
    · exact .refl s
    · rename_i e rest _
      have read := (readFor_sameWork s e).steady
      split
      rename_i s1 rs eq
      rw [eq] at read
      refine read.trans ?_
      unfold State.compactPage
      split
      · exact .ite (failWork_steady _ _) ((mapWork_steady _ _).trans (compactNext_steady _))
      · exact (mapWork_steady _ _).trans (compactNext_steady _)
  · exact .refl s

theorem refuseCommit_steady (f : SiteFrame) (x : Result) (d : List Byte) : Steady s (s.refuseCommit f x d) :=
  ((restartIdle_sameWork s).trans (reply_sameWork _ _ _ _)).steady

theorem setInHand_steady (f : SiteFrame) (w : PortWait) : Steady s (s.setInHand f w) := ⟨id, fun _ _ => rfl, rfl⟩

theorem accepted_steady (f : SiteFrame) (done : List (IndexEntry × List Record)) :
    Steady s (s.accepted f (planOf (s.planRows done))) := by
  obtain ⟨-, -, -, -, store⟩ := accepted_parts s f (planOf (s.planRows done))
  refine ⟨marks_of_work (fun p => by rw [store]; rfl) fun w runs => ?_, fun p _ => by rw [store]; rfl, by rw [store]⟩
  rw [store] at runs
  obtain rfl := Option.some.inj runs
  exact .inl (plan_unmarked s done _)

theorem serveMark_steady (b : Badge) : Steady s (s.serveMark b) := by
  have targets : Steady s (s.markTargets b).1 := by
    rcases markTargets_cases s b with eq | ⟨e, eq⟩ <;> rw [eq]
    · exact .refl s
    · exact (readFor_sameWork s e).steady
  have states (ps : List Page) (st : Store) : (ps.foldl (fun st p => st.markPage b p) st).pageState = st.pageState
      ∧ (ps.foldl (fun st p => st.markPage b p) st).op = st.op
      ∧ (ps.foldl (fun st p => st.markPage b p) st).work = st.work := by
    induction ps generalizing st with
    | nil => exact ⟨rfl, rfl, rfl⟩
    | cons p ps ih => exact ih (st.markPage b p)
  unfold State.serveMark
  split
  · rename_i s1 eq
    rw [eq] at targets
    exact targets.trans (mapDir_sameWork _ _ rfl rfl).steady
  · rename_i s1 ps eq
    rw [eq] at targets
    obtain ⟨same, op, work⟩ := states ps s1.store
    refine targets.trans ⟨fun right => ?_, fun p _ => ?_, congrArg _ op⟩
    · rw [marksWithinBudget_iff] at right ⊢
      rw [mapDir_store, mapStore_store, work]
      exact ⟨right.1.markPages b ps, right.2⟩
    · rw [mapDir_store, mapStore_store, Store.stateOf, same]
      rfl

end

end Sys2Proof.Machine
end

section
/-! PROOF. The operations of the array as they begin and end, the scan and the start-ups keep the trip marks within
their budgets and the array to one page (R46, R57). -/

namespace Sys2Proof.Machine

section
variable {s t u : State}

/-! ### Operations that begin -/

/-- An operation on no directory page begins. -/
theorem begins_keepsPages (s : State) (op : s.store.op = none) (f : Store → Store)
    (pages : (f s.store).pages = s.store.pages := by rfl)
    (states : (f s.store).pageState = s.store.pageState := by rfl)
    (work : (f s.store).work = s.store.work := by rfl) : KeepsPages s (s.mapStore f) where
  marks := marks_of_same (fun p => by rw [mapStore_store, Store.page, pages]; rfl) work
  onePage right := NoPageBusy.onePage fun p busy => by
    rw [mapStore_store, Store.stateOf, states] at busy
    exact noPageBusy_of_idle right op p busy

/-- R57: an operation begins on page `p`, which alone is under it. -/
theorem onePage_of_begun {st : Store} {p : Page} {k : OpKind} (x : PageState) (right : OnePageAtATime s)
    (idle : s.store.op = none) (states : ∀ q, t.store.stateOf q = (st.setState p x).stateOf q)
    (others : ∀ q, st.stateOf q = s.store.stateOf q) (op : t.store.op = some (ArrayOp.begin_ k))
    (erase : x.isErasing = true → k = .eraseDir p) (program : x = .writing → ∃ i, k = .program i p) :
    OnePageAtATime t := by
  have quiet := noPageBusy_of_idle right idle
  have own {q : Page} (busy : (t.store.stateOf q).Busy) : q = p ∧ t.store.stateOf q = x := by
    by_cases eq : q = p
    · subst eq
      exact ⟨rfl, (states q).trans (stateOf_setState _ _ _)⟩
    · rw [states, stateOf_setState_of_ne _ _ _ _ eq, others] at busy
      exact absurd busy (quiet q)
  refine ⟨fun q erasing => ?_, fun q writing => ?_⟩
  · obtain ⟨rfl, state⟩ := own (.inl erasing)
    rw [op, ← erase (state ▸ erasing)]
    rfl
  · obtain ⟨rfl, state⟩ := own (.inr writing)
    obtain ⟨i, rfl⟩ := program (state.symm.trans writing)
    exact ⟨i, by rw [op]; rfl⟩

/-- R63: an ERASE leaves the records of its page until it has ended. -/
theorem beginErase_keepsPages (s : State) (op : s.store.op = none) : KeepsPages s (s.mapStore Store.beginErase) := by
  cases queue : s.store.eraseQ with
  | nil =>
    have none_ : s.store.beginErase = s.store := by simp [Store.beginErase, queue]
    rw [State.mapStore, none_]
    exact .refl s
  | cons p rest =>
    obtain ⟨k, d, records, begun⟩ : ∃ k d, (∀ x, d.contents = .programmed x →
        ∃ y, (s.store.page p).contents = .programmed y ∧ x.records = y.records) ∧ s.store.beginErase =
        { ((s.store.setPage p d).setState p (.erasing k)) with
          eraseQ := rest, op := some (ArrayOp.begin_ (.eraseDir p)) } := by
      unfold Store.beginErase
      rw [queue]
      refine ⟨_, _, fun x img => ?_, rfl⟩
      dsimp only at img
      split at img
      · rename_i y held
        obtain rfl := PageContents.programmed.inj img
        exact ⟨y, held, rfl⟩
      · cases img
    have store : (s.mapStore Store.beginErase).store = _ := begun
    generalize s.mapStore Store.beginErase = t at store
    constructor
    · intro right
      rw [marksWithinBudget_iff] at right ⊢
      rw [store]
      refine ⟨right.1.setPage p d fun x img r mem => ?_, right.2⟩
      obtain ⟨y, held, same⟩ := records x img
      exact right.1.contents held r (same ▸ mem)
    · exact fun right => onePage_of_begun (st := s.store.setPage p d) (.erasing k) right op
        (fun q => by rw [store]; rfl) (fun _ => rfl) (by rw [store]) (fun _ => rfl) nofun

/-- R46, R89: the records of a copy come from its edits, unmarked, and from the pages of the index. -/
theorem copyRecords_in_budget (right : MarksWithinBudget s) {w : Work} (running : s.store.work = some w) {i : Nat}
    {c : Copy} (copy : w.copies[i]? = some c) :
    ∀ r ∈ s.copyRecords c, ∀ n, r.budget = some n → r.marks ≤ n := by
  rw [marksWithinBudget_iff] at right
  intro r mem n budget
  obtain ⟨pr, planned, from_⟩ := List.mem_filterMap.mp mem
  split at from_
  · rename_i x fresh
    obtain rfl := Option.some.inj from_
    rw [marks_of_unmarked (right.2 w running c (List.mem_of_getElem? copy) pr planned x fresh)]
    exact Nat.zero_le n
  · obtain ⟨e, -, found⟩ := Option.bind_eq_some_iff.mp from_
    split at found
    · rename_i x img
      exact right.1.contents img r (List.mem_of_find?_eq_some found) n budget
    · cases found

/-- R58, R89: the PROGRAM of a copy begins. -/
theorem beginProgram_keepsPages (s : State) (op : s.store.op = none) (i : Nat) (p : Page) :
    KeepsPages s (s.beginProgram i p) := by
  unfold State.beginProgram
  split
  · exact .refl s
  · rename_i w running
    split
    · exact .refl s
    · rename_i c copy
      constructor
      · intro right
        have within := copyRecords_in_budget right running copy
        rw [marksWithinBudget_iff] at right ⊢
        refine ⟨right.1.setPage p _ fun x img => ?_, right.2⟩
        obtain rfl := PageContents.programmed.inj img
        exact within
      · exact fun right => onePage_of_begun (st := s.store.setPage p _) .writing right op (fun _ => rfl)
          (fun _ => rfl) rfl nofun fun _ => ⟨i, rfl⟩

/-- R60, R61: what the array takes up of its own accord. -/
theorem arbitrate_keepsPages (s : State) : KeepsPages s s.arbitrate := by
  unfold State.arbitrate
  refine .ite (.refl s) ?_
  split
  · rename_i op running
    refine .ite (Steady.keeps ⟨id, fun _ _ => rfl, ?_⟩) (.refl s)
    rw [mapStore_store, running]
    rfl
  · rename_i op
    refine .ite (.refl s) ?_
    split
    · exact beginErase_keepsPages s op
    · split
      · exact beginProgram_keepsPages s op _ _
      · exact beginErase_keepsPages s op
    · exact begins_keepsPages s op _
    · exact begins_keepsPages s op _
    · exact .refl s
    · exact begins_keepsPages s op _

theorem KeepsPages.arbitrate (h : KeepsPages s t) : KeepsPages s t.arbitrate := h.trans (arbitrate_keepsPages t)

/-! ### Operations that end -/

/-- The operation ends on page `p` itself, whose records are of before or gone. -/
theorem ended_keepsPages (s : State) {p : Page} {k : OpKind} (running : s.store.op.map ArrayOp.kind = some k)
    (own : (∃ i, k = .program i p) ∨ k = .eraseDir p) {d : DirPage} {x : PageState} (rests : ¬ x.Busy)
    (records : ∀ y, d.contents = .programmed y →
      ∃ z, (s.store.page p).contents = .programmed z ∧ y.records = z.records)
    (pages : t.store.pages = (s.store.setPage p d).pages)
    (states : t.store.pageState = (s.store.setState p x).pageState) (work : t.store.work = s.store.work) :
    KeepsPages s t := by
  have page (q : Page) : t.store.page q = (s.store.setPage p d).page q := by rw [Store.page, pages]; rfl
  have state (q : Page) : t.store.stateOf q = (s.store.setState p x).stateOf q := by rw [Store.stateOf, states]; rfl
  constructor
  · intro right
    rw [marksWithinBudget_iff] at right ⊢
    rw [work]
    refine ⟨fun q y r n img => ?_, right.2⟩
    have set := right.1.setPage p d fun y img r mem => by
      obtain ⟨z, held, same⟩ := records y img
      exact right.1.contents held r (same ▸ mem)
    exact set q y r n (page q ▸ img)
  · refine fun right => (noPageBusy_of_ended right running fun q busy => ?_).onePage
    rw [state] at busy ⊢
    by_cases eq : q = p
    · subst eq
      rw [stateOf_setState] at busy
      exact absurd busy rests
    · refine ⟨stateOf_setState_of_ne _ _ _ _ eq, fun j same => ?_, fun same => ?_⟩
      · rcases own with ⟨i, rfl⟩ | rfl
        · exact eq (OpKind.program.inj same).2.symm
        · cases same
      · rcases own with ⟨i, rfl⟩ | rfl
        · cases same
        · exact eq (OpKind.eraseDir.inj same).symm

/-- An operation on no directory page ends, and the pages stand. -/
theorem endedApart_keepsPages (s : State) {k : OpKind} (running : s.store.op.map ArrayOp.kind = some k)
    (program : ∀ i p, k ≠ .program i p) (erase : ∀ p, k ≠ .eraseDir p) (pages : t.store.pages = s.store.pages)
    (states : t.store.pageState = s.store.pageState) (work : t.store.work = s.store.work) : KeepsPages s t where
  marks := marks_of_same (fun p => by rw [Store.page, pages]; rfl) work
  onePage right := (noPageBusy_of_ended right running fun q _ =>
    ⟨by rw [Store.stateOf, states]; rfl, fun i => program i q, erase q⟩).onePage

/-- The records of a copy that is changed in its page or its failures alone. -/
theorem modify_unmarked {f : Copy → Copy} (same : ∀ c, (f c).records = c.records) {w : Work} (h : w.Unmarked)
    (i : Nat) : Work.Unmarked { w with copies := w.copies.modify i f } := fun c mem => by
  rcases mem_modify mem with old | ⟨a, at_, rfl⟩
  · exact h c old
  · rw [same]
    exact h a (List.mem_of_getElem? at_)

/-- R58: a PROGRAM has completed. -/
theorem programDone_keepsPages (s : State) {i : Nat} {p : Page} (running : s.store.running = some (.program i p)) :
    KeepsPages s (s.programDone i p) := by
  have ended (d : DirPage) (records : ∀ y, d.contents = .programmed y →
      ∃ z, (s.store.page p).contents = .programmed z ∧ y.records = z.records) : KeepsPages s
      (((s.mapStore fun st => (st.setPage p d).setState p (.stale .held)).endOp).dropWork) :=
    ended_keepsPages s (running_kind running) (.inl ⟨i, rfl⟩) (d := d) (x := .stale .held) nofun records rfl rfl rfl
  have copied (u : State) : Steady u
      (u.mapWork fun w => { w with copies := w.copies.modify i (Copy.on p) }).checkProgrammed :=
    (mapWork_steady u _ fun w h => modify_unmarked (f := Copy.on p) (fun _ => rfl) h i).trans
      (checkProgrammed_steady _)
  refine (ended _ fun y img => ?_).trans (copied _).keeps
  split at img
  · rename_i x held
    obtain rfl := PageContents.programmed.inj img
    exact ⟨x, held, rfl⟩
  · cases img

/-- R58: the page of an operation that has failed is retired. -/
theorem pageLost_keepsPages (s : State) {p : Page} {k : OpKind} (running : s.store.op.map ArrayOp.kind = some k)
    (own : (∃ i, k = .program i p) ∨ k = .eraseDir p) (fault : FaultKind) (n : Nat) :
    KeepsPages s ((((s.mapStore fun st => st.retire p).endOp).raiseFault fault p.val).checkSpare n) := by
  have retired : KeepsPages s ((s.mapStore fun st => st.retire p).endOp) :=
    ended_keepsPages s running own (d := { s.store.page p with retired := true }) (x := .retired) nofun
      (fun y img => ⟨y, img, rfl⟩) rfl rfl rfl
  exact (retired.trans (raiseFault_sameWork _ _ _).steady.keeps).trans (checkSpare_sameWork _ _).steady.keeps

/-- R62: a PROGRAM has failed. -/
theorem programFailed_keepsPages (s : State) {i : Nat} {p : Page} (running : s.store.running = some (.program i p)) :
    KeepsPages s (s.programFailed i p) := by
  have counted := (pageLost_keepsPages s (running_kind running) (.inl ⟨i, rfl⟩) .storeProgramFail
    s.store.spareSum).trans (mapWork_steady _ (fun w => { w with copies := w.copies.modify i Copy.failed })
      fun w h => modify_unmarked (f := Copy.failed) (fun _ => rfl) h i).keeps
  unfold State.programFailed
  dsimp only
  split
  · exact .ite (counted.trans (failWork_steady _ _).keeps) (counted.trans (checkLack_steady _).keeps)
  · exact counted

/-- R63: a directory page has been erased. -/
theorem eraseDone_keepsPages (s : State) {p : Page} (running : s.store.running = some (.eraseDir p)) :
    KeepsPages s (s.eraseDone p) := by
  have erased : KeepsPages s ((s.mapStore fun st =>
      (st.setPage p { contents := .erased, retired := false }).setState p .free).endOp) :=
    ended_keepsPages s (running_kind running) (.inr rfl) (d := { contents := .erased, retired := false }) (x := .free)
      nofun nofun rfl rfl rfl
  exact erased.trans ((checkWait_steady _).trans (queueLogMark_steady _)).keeps

/-- R63: the ERASE of a directory page has failed. -/
theorem eraseFailed_keepsPages (s : State) {p : Page} (running : s.store.running = some (.eraseDir p)) :
    KeepsPages s (s.eraseFailed p) :=
  (pageLost_keepsPages s (running_kind running) (.inr rfl) .storeEraseFail s.store.spareSum).trans
    ((checkLack_steady _).trans (queueLogMark_steady _)).keeps

theorem logEraseDone_keepsPages (s : State) {p : Fin 8} (running : s.store.running = some (.eraseLog p)) :
    KeepsPages s (s.logEraseDone p) :=
  endedApart_keepsPages s (running_kind running) nofun nofun rfl rfl rfl

theorem logEraseFailed_keepsPages (s : State) {p : Fin 8} (running : s.store.running = some (.eraseLog p)) :
    KeepsPages s (s.logEraseFailed p) := by
  have store : (s.logLost p).store = { s.store with
      log := s.store.log.set p.val (cutLogPage s.free s.store.log[p]) p.isLt, op := none
      workQ := s.store.workQ.tail } := raiseFault_store _ _ _
  have lost : KeepsPages s (s.logLost p) :=
    endedApart_keepsPages s (running_kind running) nofun nofun (by rw [store]) (by rw [store]) (by rw [store])
  rcases logEraseFailed_cases s p with eq | ⟨top, eq⟩ <;> rw [eq]
  · exact lost.trans (mapStore_steady _ _).keeps
  · exact lost.trans ((mapStore_steady _ _).trans (failWork_steady _ _)).keeps

/-! ### Settings saves -/

theorem saveEntryDone_keepsPages (s : State) {k : OpKind} (running : s.store.running = some k)
    (own : (∃ n, k = .saveErase n) ∨ ∃ n, k = .saveProgram n) (n : Nat) : KeepsPages s (s.saveEntryDone n) := by
  refine endedApart_keepsPages s (running_kind running) (fun i p => ?_) (fun p => ?_) rfl rfl rfl
  all_goals rcases own with ⟨m, rfl⟩ | ⟨m, rfl⟩ <;> nofun

theorem saveFailed_keepsPages (s : State) {k : OpKind} (running : s.store.running = some k)
    (own : (∃ n, k = .saveErase n) ∨ ∃ n, k = .saveProgram n) (erase : Bool) (n : Nat) :
    KeepsPages s (s.saveFailed erase n) := by
  rw [saveFailed_eq]
  have same : s.store.saveFailed.pages = s.store.pages ∧ s.store.saveFailed.pageState = s.store.pageState
      ∧ s.store.saveFailed.work = s.store.work := by
    unfold Store.saveFailed
    split <;> exact ⟨rfl, rfl, rfl⟩
  obtain ⟨pages, states, work⟩ := same
  refine endedApart_keepsPages s (running_kind running) (fun i p => ?_) (fun p => ?_) pages states work
  all_goals rcases own with ⟨m, rfl⟩ | ⟨m, rfl⟩ <;> nofun

theorem saveDone_keepsPages (s : State) (running : s.store.running = some .saveMark) : KeepsPages s s.saveDone := by
  have ended : KeepsPages s (((s.mapStore fun st =>
      { st with area := { complete := true, checkMatches := true, image := st.save.image.getD st.area.image }
                save := { st.save with state := .idle, last := .ok, retry := false, image := none } }).endOp).dropWork)
    :=
    endedApart_keepsPages s (running_kind running) nofun nofun rfl rfl rfl
  exact .ite (ended.trans ((mapStore_steady _ _).trans (queueSave_sameWork _).steady).keeps) ended

/-! ### The commit-complete event (R45, R66) -/

theorem commitDone_keepsPages (s : State) (w : Work) (running : s.store.running = some .logMark) :
    KeepsPages s (s.commitDone w) := by
  have switched := commitDone_switched s w
  constructor
  · refine marks_of_work (fun p => ?_) fun v runs => absurd (switched.work.symm.trans runs) nofun
    rw [Store.page, switched.pages]
    rfl
  · refine fun right => (noPageBusy_of_ended right (running_kind running) fun q busy => ⟨?_, nofun, nofun⟩).onePage
    have state := switched.states q
    split at state
    · rw [state] at busy
      rcases busy with erasing | writing
      · cases erasing
      · cases writing
    · split at state
      · rw [state] at busy
        rcases busy with erasing | writing
        · cases erasing
        · cases writing
      · exact state

/-! ### The scan and the start-ups -/

theorem scannedState_rests (l : Nat) (kept : List IndexEntry) (p : Page) (d : DirPage) :
    ¬ (scannedState l kept p d).Busy := by
  unfold scannedState
  split
  · exact nofun
  · exact nofun
  · exact nofun
  · exact nofun
  · split <;> exact nofun

theorem scanEnds_keepsPages (s : State) : KeepsPages s s.scanEnds := by
  have scanned := scanEnds_scanned s
  refine ⟨marks_of_same (fun p => by rw [Store.page, scanned.pages]; rfl) scanned.work, fun _ => NoPageBusy.onePage ?_⟩
  intro p
  rw [scanned.states]
  exact scannedState_rests _ _ p _

/-- R28, R71: a start-up finds the pages as the cut has left them, and has scanned none. -/
theorem startUp_keepsPages (pages : PagesInBudget s.store → PagesInBudget t.store) (work : t.store.work = none)
    (states : t.store.pageState = Vector.replicate 544 .free) : KeepsPages s t where
  marks right := by
    rw [marksWithinBudget_iff] at right ⊢
    exact ⟨pages right.1, fun w runs => absurd (work.symm.trans runs) nofun⟩
  onePage _ := NoPageBusy.onePage fun p => by
    have free : t.store.stateOf p = .free := by simp [Store.stateOf, states]
    rw [free]
    exact nofun

theorem cutMark_inBudget (h : PagesInBudget s.store) : PagesInBudget s.cutMark.store := by
  unfold State.cutMark
  split
  · split
    · split
      · exact h.markPages _ _
      · exact h
    · exact h
  · exact h

theorem cutOp_inBudget (h : PagesInBudget s.store) : PagesInBudget s.cutOp.store := by
  unfold State.cutOp
  split
  · exact h
  · split
    · split
      · exact h.setPage _ _ nofun
      · exact h
    · exact h
    · split
      · split
        · exact h
        · exact h
      · exact h
    · exact h
    · exact h
    · exact h
    · exact h

/-- R48, R71, R169: the operations cut short keep the marks within their budgets. -/
theorem cut_inBudget (h : PagesInBudget s.store) : PagesInBudget s.cut.store := cutOp_inBudget (cutMark_inBudget h)

theorem startUp_keepsPages_of (pages : PagesInBudget s.store → PagesInBudget u.store) : KeepsPages s u.startUp := by
  have store : u.startUp.store = u.store.afterCut := raiseFault_store _ _ _
  refine startUp_keepsPages (fun right => ?_) ?_ ?_
  all_goals rw [store]
  · exact pages right
  · rfl
  · rfl

theorem volatileReset_keepsPages (pages : PagesInBudget s.store → PagesInBudget u.store) :
    KeepsPages s u.volatileReset := startUp_keepsPages (fun right => pages right) rfl rfl

end

end Sys2Proof.Machine
end

section
/-! PROOF. Every step keeps the batch, the trip marks, the pages under an operation and the numbers of the store
(R39, R46, R57, R65, R68, R79). -/

namespace Sys2Proof.Machine

section
variable {s t : State} {r : Req}

/-! ### The requests -/

/-- A request that is only answered. -/
theorem answer_books {type : Byte} {early fits : Bool} {x : SiteFrame → State → Result}
    {d : SiteFrame → State → List Byte}
    (h : siteRequest type r early fits (fun f u => u.reply f (x f u) (d f u)) s = .next t) : KeepsBooks s t :=
  siteRequest_books h fun _ _ _ => reply_books _ _ _ _

theorem execClockSet_books (h : execClockSet r s = .next t) : KeepsBooks s t :=
  siteRequest_books h fun _ _ _ => .ite (reply_books _ _ _ _)
    (.reply (.trans (by exact .of_parts rfl rfl rfl rfl) (raiseNotice_books _ _)) _ _ _)

theorem execBatchOpen_books (h : execBatchOpen r s = .next t) : KeepsBooks s t :=
  siteRequest_books h fun f u _ => by
    have opens : KeepsBooks u (u.mapBatch fun _ => { Batch.startUp with state := .open_ }) :=
      .of_batch rfl rfl rfl rfl id fun _ => batchRight_of_empty rfl
    exact .ite (reply_books _ _ _ _) (.ite (reply_books _ _ _ _) ((opens.trans (restartIdle_books _)).reply _ _ _))

theorem execBatchAbandon_books (h : execBatchAbandon r s = .next t) : KeepsBooks s t :=
  siteRequest_books h fun f u _ => by
    split
    · exact reply_books _ _ _ _
    · exact reply_books _ _ _ _
    · exact (closeBatch_books u).reply _ _ _

theorem execStagePut_books (h : execStagePut r s = .next t) : KeepsBooks s t :=
  siteRequest_books h fun f u _ => by
    split
    · exact reply_books _ _ _ _
    · rename_i opened
      split
      · exact reply_books _ _ _ _
      · exact tryStage_books _ _ _ (Decidable.not_not.mp opened)

theorem execStageDrop_books (h : execStageDrop r s = .next t) : KeepsBooks s t :=
  siteRequest_books h fun f u _ => by
    split
    · exact reply_books _ _ _ _
    · rename_i opened
      exact .ite (reply_books _ _ _ _) (tryStage_books _ _ _ (Decidable.not_not.mp opened))

theorem execBatchCommit_books (h : execBatchCommit r s = .next t) : KeepsBooks s t :=
  siteRequest_books h fun f u _ => by
    split
    · exact reply_books _ _ _ _
    · exact reply_books _ _ _ _
    · exact .ite ((closeBatch_books u).reply _ _ _) (.ite (refuseCommit_books _ _ _ _) (planNext_books _ _ _ _))

theorem execCompact_books (h : execCompact r s = .next t) : KeepsBooks s t :=
  siteRequest_books h fun _ u _ => .ite (reply_books _ _ _ _) (.ite (reply_books _ _ _ _) (.ite (reply_books _ _ _ _)
    ((((takeNumber_books u _).reply _ _ _).trans (compactNext_books _)).arbitrate)))

theorem execRecordRead_books (h : execRecordRead r s = .next t) : KeepsBooks s t :=
  siteRequest_books h fun _ _ _ => .ite (reply_books _ _ _ _) (portLookup_books _ _ _ _ (by simp))

theorem execDirectoryScan_books (h : execDirectoryScan r s = .next t) : KeepsBooks s t :=
  siteRequest_books h fun _ _ _ => .ite (reply_books _ _ _ _) (.ite (by
    split
    · exact beginScan_books _ _ _
    · exact reply_books _ _ _ _) (beginScan_books _ _ _))

theorem execProfileWrite_books (h : execProfileWrite r s = .next t) : KeepsBooks s t :=
  siteRequest_books h fun _ _ _ => .ite (reply_books _ _ _ _) (by
    split
    · exact reply_books _ _ _ _
    · exact .reply (by exact .of_parts rfl rfl rfl rfl) _ _ _)

theorem execHolidayWrite_books (h : execHolidayWrite r s = .next t) : KeepsBooks s t :=
  siteRequest_books h fun _ _ _ => .ite (reply_books _ _ _ _) (by
    split
    · exact reply_books _ _ _ _
    · exact .reply (.saved (by exact .of_parts rfl rfl rfl rfl)) _ _ _)

theorem execProfileRead_books (h : execProfileRead r s = .next t) : KeepsBooks s t :=
  siteRequest_books h fun _ _ _ => .ite (reply_books _ _ _ _) (reply_books _ _ _ _)

theorem execSwitchArm_books (h : execSwitchArm r s = .next t) : KeepsBooks s t :=
  siteRequest_books h fun _ _ _ => .ite (reply_books _ _ _ _) (.reply (by exact .of_parts rfl rfl rfl rfl) _ _ _)

theorem execSwitchDisarm_books (h : execSwitchDisarm r s = .next t) : KeepsBooks s t :=
  siteRequest_books h fun _ _ _ => .ite (reply_books _ _ _ _) (.reply (by exact .of_parts rfl rfl rfl rfl) _ _ _)

theorem execZoneWrite_books (h : execZoneWrite r s = .next t) : KeepsBooks s t :=
  siteRequest_books h fun _ _ _ => .ite (reply_books _ _ _ _) (by
    split
    · exact reply_books _ _ _ _
    · exact (replaceMap_books _ _).reply _ _ _)

theorem execChannelSet_books (h : execChannelSet r s = .next t) : KeepsBooks s t :=
  siteRequest_books h fun _ _ _ => by
    split
    · exact reply_books _ _ _ _
    · exact (setChannel_books _ _ _).reply _ _ _

theorem execChannelRead_books (h : execChannelRead r s = .next t) : KeepsBooks s t :=
  siteRequest_books h fun _ _ _ => by
    split <;> exact reply_books _ _ _ _

theorem execGroupSet_books (h : execGroupSet r s = .next t) : KeepsBooks s t :=
  siteRequest_books h fun _ _ _ => .ite (reply_books _ _ _ _) (by
    split
    · exact reply_books _ _ _ _
    · exact (setGroup_books _ _ _).reply _ _ _)

theorem execGroupRead_books (h : execGroupRead r s = .next t) : KeepsBooks s t :=
  siteRequest_books h fun _ _ _ => by
    split <;> exact reply_books _ _ _ _

theorem execGroupResume_books (h : execGroupResume r s = .next t) : KeepsBooks s t :=
  siteRequest_books h fun _ _ _ => by
    split
    · split
      · exact (setRecall_books _ _ _).reply _ _ _
      · exact reply_books _ _ _ _
      · exact reply_books _ _ _ _
    · exact reply_books _ _ _ _

theorem execTransferPurge_books (h : execTransferPurge r s = .next t) : KeepsBooks s t :=
  siteRequest_books h fun _ _ _ => .ite (reply_books _ _ _ _)
    (.ite (.reply (by exact .of_parts rfl rfl rfl rfl) _ _ _) (reply_books _ _ _ _))

theorem execNoticeSet_books (h : execNoticeSet r s = .next t) : KeepsBooks s t :=
  siteRequest_books h fun _ u _ => (mapNotices_books u _).saved.reply _ _ _

theorem execFaultClear_books (h : execFaultClear r s = .next t) : KeepsBooks s t :=
  siteRequest_books h fun _ _ _ => .ite (reply_books _ _ _ _) ((clearFaults_books _ _).reply _ _ _)

theorem execFaultSet_books (h : execFaultSet r s = .next t) : KeepsBooks s t :=
  siteRequest_books h fun _ u _ => .ite (reply_books _ _ _ _) (.ite (reply_books _ _ _ _)
    (((mapFaults_books u _).trans (reworkLine_books _)).saved.reply _ _ _))

theorem execTimingSet_books (h : execTimingSet r s = .next t) : KeepsBooks s t :=
  siteRequest_books h fun _ _ _ => .ite (reply_books _ _ _ _)
    (.reply (.saved (by exact .of_parts rfl rfl rfl rfl)) _ _ _)

theorem execRestartArm_books (h : execRestartArm r s = .next t) : KeepsBooks s t :=
  siteRequest_books h fun _ _ _ => .reply (by exact .of_hand rfl rfl rfl (.inl rfl)) _ _ _

theorem execRestart_books (h : execRestart r s = .next t) : KeepsBooks s t :=
  siteRequest_books h fun _ _ _ => .ite (handOver_books _ _) (reply_books _ _ _ _)

theorem execUnknownType_books {type : Byte} (h : execUnknownType type r s = .next t) : KeepsBooks s t := by
  unfold execUnknownType at h
  split at h
  · exact whileRunning_books h (receiveFrame_books _ _)
  · exact answer_books h

/-! ### The readers, the group controllers and the inputs -/

theorem execUnknownReaderFrame_books {c : Chan} {type : Byte} {p : List Byte}
    (h : execUnknownReaderFrame c type p s = .next t) : KeepsBooks s t :=
  whileRunning_books h ((lineFrame_sameEngine s c).books.trans (.ite (.ite (takeBadge_sameEngine _ _ _).books
    (.ite (takeKey_sameEngine _ _ _).books (.refl _))) (.refl _)))

theorem execFirstStableLevel_books {i : Input} (h : execFirstStableLevel i s = .next t) : KeepsBooks s t :=
  whileRunning_books h (by
    split
    · exact .refl s
    · rename_i done
      refine (countDone_books s done).trans ?_
      split
      · exact fixRecall_books _ _
      · exact .refl _)

theorem execServiceKeyChange_books (h : execServiceKeyChange s = .next t) : KeepsBooks s t :=
  whileRunning_books h (by
    cases done : s.countDone .key false with
    | none => exact .refl s
    | some u => exact countDone_books s done)

theorem execByteGapTimeout_books {l : Link} {late : Option Byte} (h : execByteGapTimeout l late s = .next t) :
    KeepsBooks s t :=
  whileRunning_books h (by
    split
    · exact .refl s
    · split
      · rename_i reached
        exact ((reach_books s reached).trans (setRx_books _ _ _)).trans (raiseDiscard_books _ _ _)
      · exact .refl s)

theorem execFrameDiscard_books {l : Link} {bs : List Byte} (h : execFrameDiscard l bs s = .next t) : KeepsBooks s t :=
  whileRunning_books h (by
    split
    · exact (setRx_books _ _ _).trans (raiseDiscard_books _ _ _)
    · exact .refl s)

theorem execUnknownGroupFrame_books {g : Group} {type : Byte} {p : List Byte}
    (h : execUnknownGroupFrame g type p s = .next t) : KeepsBooks s t :=
  whileRunning_books h (.ite (.refl s) ((setRx_books _ _ _).trans (raiseFault_books _ _ _)))

theorem entryTimeout_books (s : State) (c : Chan) (x : EntryTimer) : KeepsBooks s (s.entryTimeout c x) := by
  unfold State.entryTimeout
  split
  · refine .ite ?_ (.refl s)
    split
    · rename_i reached
      exact (reach_books s reached).trans (endEntry_sameEngine _ _ _).books
    · exact .refl s
  · exact .refl s

/-! ### Requests that are only answered -/

theorem execIdentify_books (h : execIdentify r s = .next t) : KeepsBooks s t := answer_books h

theorem execStatus_books (h : execStatus r s = .next t) : KeepsBooks s t := answer_books h

theorem execClockRead_books (h : execClockRead r s = .next t) : KeepsBooks s t := answer_books h

theorem execStoreStatus_books (h : execStoreStatus r s = .next t) : KeepsBooks s t := answer_books h

theorem execHolidayRead_books (h : execHolidayRead r s = .next t) : KeepsBooks s t := answer_books h

theorem execZoneRead_books (h : execZoneRead r s = .next t) : KeepsBooks s t := answer_books h

theorem execTransferRead_books (h : execTransferRead r s = .next t) : KeepsBooks s t := answer_books h

theorem execFaultRead_books (h : execFaultRead r s = .next t) : KeepsBooks s t := answer_books h

theorem execTimingRead_books (h : execTimingRead r s = .next t) : KeepsBooks s t := answer_books h

/-! ### The deadlines -/

section
variable {c : Chan} {g : Group} {tag carByte : Byte} {car : Car}

theorem execSecondEvent_books (h : execSecondEvent s = .next t) : KeepsBooks s t :=
  whileRunning_books h (secondEvent_books s _ .refl)

theorem execMinuteBoundary_books (h : execMinuteBoundary s = .next t) : KeepsBooks s t :=
  whileRunning_books h (.ite (secondEvent_books s _ .refl) (.refl s))

theorem execBatchExpired_books (h : execBatchExpired s = .next t) : KeepsBooks s t :=
  whileRunning_books h (deadlineEvent_books s _ _ checkBatch_books)

theorem execReaderOffline_books (h : execReaderOffline c s = .next t) : KeepsBooks s t :=
  whileRunning_books h (deadlineEvent_books s _ _ fun u =>
    (checkSilence_sameDeadlines u c).books (checkSilence_batch u c))

theorem execDisplayDeadline_books (h : execDisplayDeadline c s = .next t) : KeepsBooks s t :=
  whileRunning_books h (deadlineEvent_books s _ _ fun u => checkDisplay_books u c)

theorem execStartingDisplayEnd_books (h : execStartingDisplayEnd c s = .next t) : KeepsBooks s t :=
  whileRunning_books h (deadlineEvent_books s _ _ fun u => checkDisplay_books u c)

theorem execInterKeyTimeout_books (h : execInterKeyTimeout c s = .next t) : KeepsBooks s t :=
  whileRunning_books h (entryTimeout_books s c _)

theorem execBadgeWaitTimeout_books (h : execBadgeWaitTimeout c s = .next t) : KeepsBooks s t :=
  whileRunning_books h (entryTimeout_books s c _)

theorem execReplyDeadline_books (h : execReplyDeadline g tag s = .next t) : KeepsBooks s t :=
  whileRunning_books h (deadlineEvent_books s _ _ fun u =>
    (checkReply_sameDeadlines u g tag).books (checkReply_batch u g tag))

theorem execCancelDeadline_books (h : execCancelDeadline g tag s = .next t) : KeepsBooks s t :=
  whileRunning_books h (deadlineEvent_books s _ _ fun u =>
    (checkCancel_sameDeadlines u g tag).books (checkCancel_batch u g tag))

theorem execHoldExpiry_books (h : execHoldExpiry g car s = .next t) : KeepsBooks s t :=
  whileRunning_books h (deadlineEvent_books s _ _ fun u =>
    (checkHold_sameDeadlines u g car).books (checkHold_batch u g car))

theorem execLinkSilent_books (h : execLinkSilent g s = .next t) : KeepsBooks s t :=
  whileRunning_books h (deadlineEvent_books s _ _ fun u => (checkLink_sameDeadlines u g).books (checkLink_batch u g))

/-! ### The lines -/

theorem execBadge_books {badge : BitVec 40} (h : execBadge c badge s = .next t) : KeepsBooks s t :=
  whileRunning_books h ((lineFrame_sameEngine s c).trans (takeBadge_sameEngine _ c _)).books

theorem execKey_books {key : Byte} (h : execKey c key s = .next t) : KeepsBooks s t :=
  whileRunning_books h ((lineFrame_sameEngine s c).trans (takeKey_sameEngine _ c key)).books

theorem execAlive_books (h : execAlive c s = .next t) : KeepsBooks s t :=
  whileRunning_books h (lineFrame_sameEngine s c).books

theorem execGroupState_books {accepting : Byte} (h : execGroupState g accepting s = .next t) : KeepsBooks s t :=
  whileRunning_books h ((setRx_books s _ _).trans (takeGroupState_books _ g _))

theorem execCarState_books {landing motion door inService : Byte}
    (h : execCarState g carByte landing motion door inService s = .next t) : KeepsBooks s t :=
  whileRunning_books h ((setRx_books s _ _).trans (takeCarState_books _ g _ _ _ _ _))

theorem execAssign_books (h : execAssign g tag carByte s = .next t) : KeepsBooks s t :=
  whileRunning_books h ((setRx_books s (.group g) .hunting).trans
    (takeReply_books _ (g := g) (tag := tag) (car := carByte) (by simp)))

theorem execEnabled_books (h : execEnabled g tag s = .next t) : KeepsBooks s t :=
  whileRunning_books h ((setRx_books s (.group g) .hunting).trans
    (takeReply_books _ (g := g) (tag := tag) (car := 0) (by simp)))

theorem execRefuse_books (h : execRefuse g tag s = .next t) : KeepsBooks s t :=
  whileRunning_books h ((setRx_books s (.group g) .hunting).trans
    (takeReply_books _ (g := g) (tag := tag) (car := 0) (by simp)))

theorem execCancelled_books (h : execCancelled g tag s = .next t) : KeepsBooks s t :=
  whileRunning_books h ((setRx_books s (.group g) .hunting).trans
    (takeReply_books _ (g := g) (tag := tag) (car := 0) (by simp)))

theorem execLineBecomesActive_books (h : execLineBecomesActive g s = .next t) : KeepsBooks s t :=
  whileRunning_books h (lineChange_books s g true)

theorem execLineBecomesInactive_books (h : execLineBecomesInactive g s = .next t) : KeepsBooks s t :=
  whileRunning_books h (lineChange_books s g false)

end

theorem execRawLevelChange_books {i : Input} {level : Level} (h : execRawLevelChange i level s = .next t) :
    KeepsBooks s t := by
  obtain rfl := Host.Outcome.next.inj h
  exact mapInput_books s i _

theorem execSiteFrameReceive_books {type : Byte} (h : execSiteFrameReceive type r s = .next t) : KeepsBooks s t :=
  whileRunning_books h (receiveFrame_books s _)

theorem execInFrame_books {l : Link} {byte : Byte} (h : execInFrame l s byte = .next t) : KeepsBooks s t :=
  whileRunning_books h (setRx_books s _ _)

/-! ### What every command keeps -/

/-- What BatchAndStoreStayRight says of a step. -/
structure StaysRight (s t : State) : Prop where
  books : KeepsBooks s t
  pages : KeepsPages s t

theorem StaysRight.refl (s : State) : StaysRight s s := ⟨.refl s, .refl s⟩

theorem SameWork.stays (h : SameWork s t) (books : KeepsBooks s t) : StaysRight s t := ⟨books, h.steady.keeps⟩

theorem StaysRight.arbitrate (h : StaysRight s t) : StaysRight s t.arbitrate := ⟨h.books.arbitrate, h.pages.arbitrate⟩

theorem whileRunning_stays {f : State → State} (h : whileRunning f s = .next t) (keeps : StaysRight s (f s)) :
    StaysRight s t := by
  rcases whileRunning_cases h with rfl | ⟨-, rfl⟩
  · exact .refl t
  · exact ⟨keeps.books.trans (settle_books _), keeps.pages.trans (settle_sameWork _).steady.keeps⟩

/-! ### The events of the store -/

theorem dropPrio_stays (s : State) : StaysRight s s.dropPrio := (dropPrio_sameWork s).stays (dropPrio_books s)

theorem execLookup_stays {now : Bool} (h : execLookup now s = .next t) : StaysRight s t :=
  whileRunning_stays h (by
    split
    · exact (engineResult_sameWork _ _).stays (engineResult_sameEngine _ _).books
    · unfold State.serveLookup
      split
      · exact (((dropPrio_sameWork s).trans (engineRead_sameWork _ _ _)).stays
          ((dropPrio_books s).trans (engineRead_books _ _ _))).arbitrate
      · exact (((dropPrio_sameWork s).trans (portRead_sameWork _ _)).stays
          ((dropPrio_books s).trans ((lookup_books _ _).trans (portResult_books _ _)))).arbitrate
      · exact .refl s)

theorem scanPage_steady (s : State) (f : SiteFrame) (start next : Badge) (gathered : List Record) (e : IndexEntry)
    (rs : List Record) : Steady s (s.scanPage f start next gathered e rs) :=
  .ite (setInHand_steady s f _) (.ite (setInHand_steady s f _)
    ((setInHand_steady s f _).trans (placePrio_sameWork _ _).steady))

theorem serveScan_steady (s : State) : Steady s s.serveScan := by
  unfold State.serveScan
  split
  · split
    · exact (reply_sameWork _ _ _ _).steady
    · rename_i e _
      have read := (readFor_sameWork s e).steady
      split
      · rename_i eq
        rw [eq] at read
        exact read.trans (reply_sameWork _ _ _ _).steady
      · rename_i eq
        rw [eq] at read
        exact read.trans (scanPage_steady _ _ _ _ _ _ _)
  · exact .refl s

theorem execScanPageRead_stays {reply : Bool} (h : execScanPageRead s reply = .next t) : StaysRight s t :=
  whileRunning_stays h (by
    have served : StaysRight s s.dropPrio.serveScan := ⟨(dropPrio_books s).trans (serveScan_books _),
      (dropPrio_stays s).pages.trans (serveScan_steady _).keeps⟩
    split
    · exact (answerScan_sameWork s).stays (answerScan_books s)
    · split
      · exact StaysRight.arbitrate ⟨served.books.trans (.ite (answerScan_books _) (.refl _)),
          served.pages.trans (.ite (answerScan_sameWork _).steady.keeps (.refl _))⟩
      · exact .refl s)

theorem planNext_keepsPages (s : State) (f : SiteFrame) (todo : List IndexEntry)
    (done : List (IndexEntry × List Record)) : KeepsPages s (s.planNext f todo done) := by
  unfold State.planNext
  split
  · exact .ite (refuseCommit_steady _ _ _ _).keeps (.ite (refuseCommit_steady _ _ _ _).keeps
      ((accepted_steady s f done).trans (startCopies_steady _)).keeps.arbitrate)
  · exact ((setInHand_steady s f _).trans (placePrio_sameWork _ _).steady).keeps

theorem servePlan_keepsPages (s : State) : KeepsPages s s.servePlan := by
  unfold State.servePlan
  split
  · rename_i f e rest done _
    have read := (readFor_sameWork s e).steady
    split
    · rename_i eq
      rw [eq] at read
      exact (read.trans (refuseCommit_steady _ _ _ _)).keeps
    · rename_i eq
      rw [eq] at read
      exact read.keeps.trans (planNext_keepsPages _ _ _ _)
  · exact .refl s

theorem execPlanningRead_stays (h : execPlanningRead s = .next t) : StaysRight s t :=
  whileRunning_stays h (by
    split
    · exact StaysRight.arbitrate ⟨(dropPrio_books s).trans (servePlan_books _),
        (dropPrio_stays s).pages.trans (servePlan_keepsPages _)⟩
    · exact .refl s)

theorem execCompactRead_stays (h : execCompactRead s = .next t) : StaysRight s t :=
  whileRunning_stays h (by
    split
    · exact StaysRight.arbitrate ⟨(dropPrio_books s).trans (serveCompact_books _),
        (dropPrio_stays s).pages.trans (serveCompact_steady _).keeps⟩
    · exact .refl s)

theorem execTripMark_stays (h : execTripMark s = .next t) : StaysRight s t :=
  whileRunning_stays h (by
    split
    · exact StaysRight.arbitrate ⟨(dropPrio_books s).trans (serveMark_books _ _),
        (dropPrio_stays s).pages.trans (serveMark_steady _ _).keeps⟩
    · exact .refl s)

theorem execProgramComplete_stays (h : execProgramComplete s = .next t) : StaysRight s t :=
  whileRunning_stays h (by
    split
    · rename_i running
      exact StaysRight.arbitrate ⟨programDone_books _ _ _, programDone_keepsPages s running⟩
    · exact .refl s)

theorem execProgramFailure_stays (h : execProgramFailure s = .next t) : StaysRight s t :=
  whileRunning_stays h (by
    split
    · rename_i running
      exact StaysRight.arbitrate ⟨programFailed_books _ _ _, programFailed_keepsPages s running⟩
    · exact .refl s)

theorem execEraseComplete_stays (h : execEraseComplete s = .next t) : StaysRight s t :=
  whileRunning_stays h (by
    split
    · rename_i running
      exact StaysRight.arbitrate ⟨eraseDone_books _ _, eraseDone_keepsPages s running⟩
    · rename_i running
      exact StaysRight.arbitrate ⟨logEraseDone_books _ _, logEraseDone_keepsPages s running⟩
    · exact .refl s)

theorem execEraseFailure_stays (h : execEraseFailure s = .next t) : StaysRight s t :=
  whileRunning_stays h (by
    split
    · rename_i running
      exact StaysRight.arbitrate ⟨eraseFailed_books _ _, eraseFailed_keepsPages s running⟩
    · exact .refl s)

theorem execLogEraseFailure_stays (h : execLogEraseFailure s = .next t) : StaysRight s t :=
  whileRunning_stays h (by
    split
    · rename_i running
      exact StaysRight.arbitrate ⟨logEraseFailed_books _ _, logEraseFailed_keepsPages s running⟩
    · exact .refl s)

theorem execCommitComplete_stays (h : execCommitComplete s = .next t) : StaysRight s t :=
  whileRunning_stays h (by
    split
    · rename_i running _
      exact StaysRight.arbitrate ⟨commitDone_books _ _, commitDone_keepsPages s _ running⟩
    · exact .refl s)

theorem execSettingsSaveStart_stays (h : execSettingsSaveStart s = .next t) : StaysRight s t :=
  whileRunning_stays h (by
    split
    · rename_i free
      exact ⟨beginSave_books s, begins_keepsPages s free.1 _⟩
    · exact .refl s)

theorem execSettingsSaveEntryComplete_stays (h : execSettingsSaveEntryComplete s = .next t) : StaysRight s t :=
  whileRunning_stays h (by
    split
    · rename_i running
      exact StaysRight.arbitrate ⟨saveEntryDone_books _ _, saveEntryDone_keepsPages s running (.inl ⟨_, rfl⟩) _⟩
    · rename_i running
      exact StaysRight.arbitrate ⟨saveEntryDone_books _ _, saveEntryDone_keepsPages s running (.inr ⟨_, rfl⟩) _⟩
    · exact .refl s)

theorem execSettingsSaveComplete_stays (h : execSettingsSaveComplete s = .next t) : StaysRight s t :=
  whileRunning_stays h (by
    split
    · rename_i running
      exact StaysRight.arbitrate ⟨saveDone_books _, saveDone_keepsPages s running⟩
    · exact .refl s)

theorem execSettingsSaveFailure_stays (h : execSettingsSaveFailure s = .next t) : StaysRight s t :=
  whileRunning_stays h (by
    split
    · rename_i running
      exact StaysRight.arbitrate ⟨saveFailed_books _ _ _, saveFailed_keepsPages s running (.inl ⟨_, rfl⟩) _ _⟩
    · rename_i running
      exact StaysRight.arbitrate ⟨saveFailed_books _ _ _, saveFailed_keepsPages s running (.inr ⟨_, rfl⟩) _ _⟩
    · exact .refl s)

/-! ### The requests that begin a work -/

/-- R163: a request whose owner keeps the pages of the card it is taken on. -/
theorem siteRequest_keepsPages {type : Byte} {early fits : Bool} {owner : SiteFrame → State → State}
    (h : siteRequest type r early fits owner s = .next t) (carried : ∀ f u, KeepsPages u (owner f u)) :
    KeepsPages s t := by
  rcases siteRequest_cases h with same | ⟨f, u, taken, -, rfl⟩
  · exact same.steady.keeps
  · exact (taken.sameWork.steady.keeps.trans (carried f u)).trans (settle_sameWork _).steady.keeps

theorem execBatchOpen_stays (h : execBatchOpen r s = .next t) : StaysRight s t :=
  ⟨execBatchOpen_books h, siteRequest_keepsPages h fun f u => by
    have opens : Steady u (u.mapBatch fun _ => { Batch.startUp with state := .open_ }) := ⟨id, fun _ _ => rfl, rfl⟩
    exact .ite (reply_sameWork _ _ _ _).steady.keeps (.ite (reply_sameWork _ _ _ _).steady.keeps
      ((opens.trans (restartIdle_sameWork _).steady).trans (reply_sameWork _ _ _ _).steady).keeps)⟩

theorem execBatchCommit_stays (h : execBatchCommit r s = .next t) : StaysRight s t :=
  ⟨execBatchCommit_books h, siteRequest_keepsPages h fun f u => by
    have closes : Steady u (u.mapBatch fun _ => Batch.startUp) := ⟨id, fun _ _ => rfl, rfl⟩
    split
    · exact (reply_sameWork _ _ _ _).steady.keeps
    · exact (reply_sameWork _ _ _ _).steady.keeps
    · exact .ite (closes.trans (reply_sameWork _ _ _ _).steady).keeps
        (.ite (refuseCommit_steady _ _ _ _).keeps (planNext_keepsPages _ _ _ _))⟩

/-- R75: a COMPACT begins without copies. -/
theorem takeCompact_steady (s : State) : Steady s (s.takeNumber s.compactWork) :=
  ⟨marks_of_work (fun _ => rfl) fun w runs => by
    obtain rfl := Option.some.inj runs
    exact .inl nofun, fun _ _ => rfl, rfl⟩

theorem execCompact_stays (h : execCompact r s = .next t) : StaysRight s t :=
  ⟨execCompact_books h, siteRequest_keepsPages h fun _ u =>
    .ite (reply_sameWork _ _ _ _).steady.keeps (.ite (reply_sameWork _ _ _ _).steady.keeps
      (.ite (reply_sameWork _ _ _ _).steady.keeps (KeepsPages.arbitrate
        (((takeCompact_steady u).trans (reply_sameWork _ _ _ _).steady).trans (compactNext_steady _)).keeps)))⟩

/-! ### Start-up, the scan and the opening -/

theorem execPowerOn_stays (h : execPowerOn s = .next t) : StaysRight s t := by
  obtain rfl := Host.Outcome.next.inj h
  split
  · exact ⟨(startUp_books s).trans (settle_books _),
      (startUp_keepsPages_of id).trans (settle_sameWork _).steady.keeps⟩
  · exact .refl s

theorem execLossOfPower_stays (h : execLossOfPower s = .next t) : StaysRight s t := by
  obtain rfl := Host.Outcome.next.inj h
  split
  · exact .refl s
  · exact ⟨(cut_volatileReset_books s).trans (.of_parts rfl rfl rfl rfl),
      (volatileReset_keepsPages (u := s.cut) cut_inBudget).trans (Steady.keeps ⟨id, fun _ _ => rfl, rfl⟩)⟩

theorem countDone_inBudget {i : Input} {first : Bool} {u : State} (done : s.countDone i first = some u)
    (h : PagesInBudget s.store) : PagesInBudget u.store := fun p x r n img =>
  h p x r n ((countDone_sameWork s done).page p ▸ img)

theorem execResetAsserted_stays (h : execResetAsserted s = .next t) : StaysRight s t := by
  obtain rfl := Host.Outcome.next.inj h
  split
  · split
    · rename_i u done
      exact ⟨((countDone_books s done).trans (cut_volatileReset_books u)).trans (.of_parts rfl rfl rfl rfl),
        (volatileReset_keepsPages (u := u.cut) fun right => cut_inBudget (countDone_inBudget done right)).trans
          (Steady.keeps ⟨id, fun _ _ => rfl, rfl⟩)⟩
    · exact .refl s
  · exact .refl s

theorem execResetReleased_stays (h : execResetReleased s = .next t) : StaysRight s t := by
  obtain rfl := Host.Outcome.next.inj h
  split
  · split
    · rename_i u done
      exact ⟨((countDone_books s done).trans (startUp_books u)).trans (settle_books _),
        (startUp_keepsPages_of (countDone_inBudget done)).trans (settle_sameWork _).steady.keeps⟩
    · exact .refl s
  · exact .refl s

theorem execScanEnd_stays (h : execScanEnd s = .next t) : StaysRight s t :=
  whileRunning_stays h (by
    split
    · exact ⟨scanEnds_books s, scanEnds_keepsPages s⟩
    · exact .refl s)

theorem execAdmissionOpens_stays (h : execAdmissionOpens s = .next t) : StaysRight s t :=
  whileRunning_stays h (by
    split
    · have opened : Steady s s.opened := ⟨id, fun _ _ => rfl, rfl⟩
      exact ⟨opens_books s, (opened.trans (opens_sameWork s).steady).keeps⟩
    · exact .refl s)

theorem execTransmitComplete_stays (h : execTransmitComplete s = .next t) : StaysRight s t :=
  whileRunning_stays h (by
    split
    · split
      · exact ⟨cut_startUp_books s, startUp_keepsPages_of cut_inBudget⟩
      · have sent : KeepsBooks s (s.mapSite fun p => { p with sending := none }) := .of_hand rfl rfl rfl (.inl rfl)
        have same : Steady s (s.mapSite fun p => { p with sending := none }) := ⟨id, fun _ _ => rfl, rfl⟩
        exact ⟨sent.trans (transmitNext_books _), (same.trans (transmitNext_sameWork _).steady).keeps⟩
    · exact (transmitNext_sameWork s).stays (transmitNext_books s))

/-! ### Every command -/

/-- R39, R46, R57, R65, R68, R79: what each command keeps. Most leave the store and the batch as they stand. -/
theorem exec_stays {i : Instr} (h : exec i s = .next t) : StaysRight s t := by
  cases i with
  | powerOn => exact execPowerOn_stays h
  | resetAsserted => exact execResetAsserted_stays h
  | resetReleased => exact execResetReleased_stays h
  | scanEnd => exact execScanEnd_stays h
  | admissionOpens => exact execAdmissionOpens_stays h
  | lossOfPower => exact execLossOfPower_stays h
  | transmitComplete => exact execTransmitComplete_stays h
  | commitComplete => exact execCommitComplete_stays h
  | batchOpen r => exact execBatchOpen_stays h
  | batchCommit r => exact execBatchCommit_stays h
  | compact r => exact execCompact_stays h
  | planningRead => exact execPlanningRead_stays h
  | compactRead => exact execCompactRead_stays h
  | scanPageRead reply => exact execScanPageRead_stays h
  | lookup now => exact execLookup_stays h
  | tripMark => exact execTripMark_stays h
  | programComplete => exact execProgramComplete_stays h
  | programFailure => exact execProgramFailure_stays h
  | eraseComplete => exact execEraseComplete_stays h
  | eraseFailure => exact execEraseFailure_stays h
  | logEraseFailure => exact execLogEraseFailure_stays h
  | settingsSaveStart => exact execSettingsSaveStart_stays h
  | settingsSaveEntryComplete => exact execSettingsSaveEntryComplete_stays h
  | settingsSaveComplete => exact execSettingsSaveComplete_stays h
  | settingsSaveFailure => exact execSettingsSaveFailure_stays h
  | secondEvent => exact (execSecondEvent_sameWork h).stays (execSecondEvent_books h)
  | minuteBoundary => exact (execMinuteBoundary_sameWork h).stays (execMinuteBoundary_books h)
  | batchExpired => exact (execBatchExpired_sameWork h).stays (execBatchExpired_books h)
  | readerOffline c => exact (execReaderOffline_sameWork h).stays (execReaderOffline_books h)
  | displayDeadline c => exact (execDisplayDeadline_sameWork h).stays (execDisplayDeadline_books h)
  | startingDisplayEnd c => exact (execStartingDisplayEnd_sameWork h).stays (execStartingDisplayEnd_books h)
  | interKeyTimeout c => exact (execInterKeyTimeout_sameWork h).stays (execInterKeyTimeout_books h)
  | badgeWaitTimeout c => exact (execBadgeWaitTimeout_sameWork h).stays (execBadgeWaitTimeout_books h)
  | replyDeadline g tag => exact (execReplyDeadline_sameWork h).stays (execReplyDeadline_books h)
  | cancelDeadline g tag => exact (execCancelDeadline_sameWork h).stays (execCancelDeadline_books h)
  | holdExpiry g car => exact (execHoldExpiry_sameWork h).stays (execHoldExpiry_books h)
  | linkSilent g => exact (execLinkSilent_sameWork h).stays (execLinkSilent_books h)
  | rawLevelChange i level => exact (execRawLevelChange_sameWork h).stays (execRawLevelChange_books h)
  | firstStableLevel i => exact (execFirstStableLevel_sameWork h).stays (execFirstStableLevel_books h)
  | lineBecomesActive g => exact (execLineBecomesActive_sameWork h).stays (execLineBecomesActive_books h)
  | lineBecomesInactive g => exact (execLineBecomesInactive_sameWork h).stays (execLineBecomesInactive_books h)
  | serviceKeyChange => exact (execServiceKeyChange_sameWork h).stays (execServiceKeyChange_books h)
  | byteGapTimeout link late => exact (execByteGapTimeout_sameWork h).stays (execByteGapTimeout_books h)
  | frameDiscard link bytes => exact (execFrameDiscard_sameWork h).stays (execFrameDiscard_books h)
  | siteFrameReceive type r => exact (execSiteFrameReceive_sameWork h).stays (execSiteFrameReceive_books h)
  | unknownType type r => exact (execUnknownType_sameWork h).stays (execUnknownType_books h)
  | identify r => exact (execIdentify_sameWork h).stays (execIdentify_books h)
  | status r => exact (execStatus_sameWork h).stays (execStatus_books h)
  | clockSet r => exact (execClockSet_sameWork h).stays (execClockSet_books h)
  | clockRead r => exact (execClockRead_sameWork h).stays (execClockRead_books h)
  | stagePut r => exact (execStagePut_sameWork h).stays (execStagePut_books h)
  | stageDrop r => exact (execStageDrop_sameWork h).stays (execStageDrop_books h)
  | batchAbandon r => exact (execBatchAbandon_sameWork h).stays (execBatchAbandon_books h)
  | storeStatus r => exact (execStoreStatus_sameWork h).stays (execStoreStatus_books h)
  | recordRead r => exact (execRecordRead_sameWork h).stays (execRecordRead_books h)
  | directoryScan r => exact (execDirectoryScan_sameWork h).stays (execDirectoryScan_books h)
  | profileWrite r => exact (execProfileWrite_sameWork h).stays (execProfileWrite_books h)
  | profileRead r => exact (execProfileRead_sameWork h).stays (execProfileRead_books h)
  | switchArm r => exact (execSwitchArm_sameWork h).stays (execSwitchArm_books h)
  | switchDisarm r => exact (execSwitchDisarm_sameWork h).stays (execSwitchDisarm_books h)
  | holidayWrite r => exact (execHolidayWrite_sameWork h).stays (execHolidayWrite_books h)
  | holidayRead r => exact (execHolidayRead_sameWork h).stays (execHolidayRead_books h)
  | zoneWrite r => exact (execZoneWrite_sameWork h).stays (execZoneWrite_books h)
  | zoneRead r => exact (execZoneRead_sameWork h).stays (execZoneRead_books h)
  | channelSet r => exact (execChannelSet_sameWork h).stays (execChannelSet_books h)
  | channelRead r => exact (execChannelRead_sameWork h).stays (execChannelRead_books h)
  | groupSet r => exact (execGroupSet_sameWork h).stays (execGroupSet_books h)
  | groupRead r => exact (execGroupRead_sameWork h).stays (execGroupRead_books h)
  | groupResume r => exact (execGroupResume_sameWork h).stays (execGroupResume_books h)
  | transferRead r => exact (execTransferRead_sameWork h).stays (execTransferRead_books h)
  | transferPurge r => exact (execTransferPurge_sameWork h).stays (execTransferPurge_books h)
  | noticeSet r => exact (execNoticeSet_sameWork h).stays (execNoticeSet_books h)
  | faultRead r => exact (execFaultRead_sameWork h).stays (execFaultRead_books h)
  | faultClear r => exact (execFaultClear_sameWork h).stays (execFaultClear_books h)
  | faultSet r => exact (execFaultSet_sameWork h).stays (execFaultSet_books h)
  | restartArm r => exact (execRestartArm_sameWork h).stays (execRestartArm_books h)
  | restart r => exact (execRestart_sameWork h).stays (execRestart_books h)
  | timingSet r => exact (execTimingSet_sameWork h).stays (execTimingSet_books h)
  | timingRead r => exact (execTimingRead_sameWork h).stays (execTimingRead_books h)
  | badge c b => exact (execBadge_sameWork h).stays (execBadge_books h)
  | key c k => exact (execKey_sameWork h).stays (execKey_books h)
  | alive c => exact (execAlive_sameWork h).stays (execAlive_books h)
  | unknownReaderFrame c type payload =>
    exact (execUnknownReaderFrame_sameWork h).stays (execUnknownReaderFrame_books h)
  | groupState g a => exact (execGroupState_sameWork h).stays (execGroupState_books h)
  | carState g car landing motion door inService => exact (execCarState_sameWork h).stays (execCarState_books h)
  | assign g tag car => exact (execAssign_sameWork h).stays (execAssign_books h)
  | enabled g tag => exact (execEnabled_sameWork h).stays (execEnabled_books h)
  | refuse g tag => exact (execRefuse_sameWork h).stays (execRefuse_books h)
  | cancelled g tag => exact (execCancelled_sameWork h).stays (execCancelled_books h)
  | unknownGroupFrame g type payload => exact (execUnknownGroupFrame_sameWork h).stays (execUnknownGroupFrame_books h)
  | inFrame link byte => exact (execInFrame_sameWork h).stays (execInFrame_books h)

/-- The tick moves the lines, hands results over and lets the array begin. -/
theorem tick_stays (s : State) : StaysRight s s.tick := by
  unfold State.tick
  split
  · have moved : StaysRight s { s.drainLines with time := { s.time with ms := min (s.time.ms + 1) 1000 } } :=
      SameWork.stays (.of_parts rfl rfl rfl rfl) (.of_parts rfl rfl rfl rfl)
    generalize ({ s.drainLines with time := { s.time with ms := min (s.time.ms + 1) 1000 } } : State) = u at moved
    have handed : StaysRight u u.transmitNext.handResult.answerScan :=
      (((transmitNext_sameWork u).trans (handResult_sameWork _)).trans (answerScan_sameWork _)).stays
        (((transmitNext_books u).trans (handResult_books _)).trans (answerScan_books _))
    have ends : StaysRight s u.transmitNext.handResult.answerScan.arbitrate :=
      StaysRight.arbitrate ⟨moved.books.trans handed.books, moved.pages.trans handed.pages⟩
    exact ⟨ends.books.trans (settle_books _), ends.pages.trans (settle_sameWork _).steady.keeps⟩
  · exact .refl s

/-- A command is taken off the queue before it is carried out. -/
theorem step_stays (h : step s = .next t) : StaysRight s t := by
  unfold step at h
  split at h
  · obtain rfl := Host.Outcome.next.inj h
    exact tick_stays s
  · rename_i c rest _
    have taken : StaysRight s { s with pending := rest } :=
      SameWork.stays (.of_parts rfl rfl rfl rfl) (.of_parts rfl rfl rfl rfl)
    have done := exec_stays h
    exact ⟨taken.books.trans done.books, taken.pages.trans done.pages⟩

end

end Sys2Proof.Machine

namespace Sys2Proof
open Machine

/-- Settles O27: each part is kept from itself alone by every command and the tick. -/
theorem batchAndStoreStayRight : Obligations.BatchAndStoreStayRight := by
  unfold Obligations.BatchAndStoreStayRight
  intro s t h
  obtain ⟨⟨count, counter, number, save, batch⟩, marks, onePage⟩ := step_stays h
  exact ⟨batch, marks, onePage, count, counter, number, save⟩

end Sys2Proof
end

section
/-! PROOF. BATCH OPEN and BATCH ABANDON (R80, R85), BATCH COMMIT as it begins (R86), COMPACT as it begins (R74). -/

namespace Sys2Proof.Machine

theorem hasLength_nil {r : Req} (h : r.payload = []) : hasLength r 0 = true := hasLength_of_eq (by rw [h]; rfl)

/-- R86, R87: the first planning read is placed for a batch with edits on pages of the index. -/
theorem batchCommit_waits {s : State} {r : Req} (ready : PortOpen s { type := 0x0B, req := r }) (none_ : r.payload = [])
    (opened : s.batch.state = .open_) (some_ : s.batch.edits ≠ []) (left : s.store.counter ≤ 4294967295)
    (touched : s.editedPages ≠ []) :
    WaitsForRead s (.batchCommit r) { type := 0x0B, req := r } .planRead (.planning s.editedPages []) := by
  have meaning := exec_batchCommit r s
  unfold execBatchCommit at meaning
  refine waitsForRead_of_owner meaning ready (hasLength_nil none_) ?_
  have unspent : (taken s).store.counterSpent = false := by simpa [Store.counterSpent] using left
  have edits : (taken s).batch.edits.isEmpty = false := by simpa using some_
  have pages : (taken s).editedPages = s.editedPages := rfl
  obtain ⟨e, rest, eq⟩ := List.exists_cons_of_ne_nil touched
  simp [opened, edits, unspent, pages, eq, State.planNext]

/-- R74: the refusals of COMPACT come before its work. -/
theorem compact_begins {s : State} {r : Req} (ready : PortOpen s { type := 0x0F, req := r }) (none_ : r.payload = [])
    (closed : s.batch.state = .closed) (idle : s.store.work = none) (left : s.store.counter ≤ 4294967295)
    (room : compactNeeds s.dir.recordCount ≤ s.store.available) (some_ : s.dir.index ≠ []) :
    exec (.compact r) s = .next (((s.takeNumber s.compactWork).placePrio .compactRead).mapSite fun _ =>
      portReplied (portTaken s.site)
        (replyFrame { type := 0x0F, req := r } .accepted (u32 s.store.counter) false)) := by
  have unspent : (taken s).store.counterSpent = false := by simpa [Store.counterSpent] using left
  have free : ¬ ((taken s).batch.state ≠ .closed ∨ (taken s).store.work.isSome = true) := by simp [closed, idle]
  have enough : ¬ (taken s).store.available < compactNeeds (taken s).dir.recordCount := Nat.not_lt.mpr room
  have begun : ((((taken s).takeNumber s.compactWork).reply { type := 0x0F, req := r } .accepted
      (u32 s.store.counter)).compactNext).arbitrate
      = ((s.takeNumber s.compactWork).placePrio .compactRead).mapSite fun _ => portReplied (portTaken s.site)
        (replyFrame { type := 0x0F, req := r } .accepted (u32 s.store.counter) false) := by
    obtain ⟨e, rest, eq⟩ := List.exists_cons_of_ne_nil some_
    have reads : ((((taken s).takeNumber s.compactWork).reply { type := 0x0F, req := r } .accepted
        (u32 s.store.counter)).compactNext) = (((s.takeNumber s.compactWork).placePrio .compactRead).mapSite fun _ =>
          portReplied (portTaken s.site)
            (replyFrame { type := 0x0F, req := r } .accepted (u32 s.store.counter) false)) := by
      rw [reply_eq]
      simp only [State.compactNext, State.takeNumber, State.mapStore, State.compactWork, eq]
      rfl
    rw [reads]
    exact arbitrate_of_prio _ (by simp)
  rw [exec_compact, execCompact, hasLength_nil none_, siteRequest_owner _ _ _ _ _ ready]
  dsimp only
  rw [if_neg free, unspent, if_neg Bool.false_ne_true, if_neg enough]
  have quiet : s.notices.raised = [] := none_raised_of_portOpen ready
  exact (congrArg (fun u : State => Host.Outcome.next u.settle) begun).trans
    (congrArg Host.Outcome.next (settle_of_none_raised _ quiet))

end Sys2Proof.Machine

namespace Sys2Proof
open Machine

/-- Settles O34: each answer is the branch of the owner that the batch, the work and the directory select. -/
theorem batchOpensAndIsAbandoned : Obligations.BatchOpensAndIsAbandoned := by
  unfold Obligations.BatchOpensAndIsAbandoned
  intro s r fo fa
  have opening := exec_batchOpen r s
  have leaving := exec_batchAbandon r s
  unfold execBatchOpen at opening
  unfold execBatchAbandon at leaving
  refine ⟨fun ready phase => ?_, fun ready some_ => ?_, fun ready none_ busy => ?_, fun ready none_ closed idle => ?_,
    fun ready phase => ?_, fun ready some_ => ?_, fun ready none_ closed => ?_, fun ready none_ committing => ?_,
    fun ready none_ opened => ?_⟩
  · exact refuses_starting opening ready phase
  · exact refuses_length opening ready fun h => some_ (List.length_eq_zero_iff.mp h)
  · refine refuses_of_owner opening ready (hasLength_nil none_) (if_pos ?_)
    exact busy.imp_right fun ⟨w, works, _⟩ => Option.isSome_iff_exists.mpr ⟨w, works⟩
  · have free : ¬ (s.batch.state ≠ .closed ∨ s.store.work.isSome = true) := by simp [closed, idle]
    refine ⟨fun unusable => ?_, fun usable => ?_⟩
    · exact refuses_of_owner opening ready (hasLength_nil none_) ((if_neg free).trans (if_pos unusable))
    · have readable : s.dir.condition ≠ .unusable := by rw [usable]; decide
      exact answersWith_of_owner opening ready (hasLength_nil none_) ((if_neg free).trans (if_neg readable)) rfl
  · exact refuses_starting leaving ready phase
  · exact refuses_length leaving ready fun h => some_ (List.length_eq_zero_iff.mp h)
  · exact refuses_of_owner leaving ready (hasLength_nil none_) (by simp [closed, State.refuse])
  · exact refuses_of_owner leaving ready (hasLength_nil none_) (by simp [committing, State.refuse])
  · refine answersWith_of_owner leaving ready (hasLength_nil none_) ?_ rfl
    simp only [opened]
    rfl

/-- Settles O36: the refusals and the first reads, each from what the owner makes of the request taken. -/
theorem commitsAndCompactsBegin : Obligations.CommitsAndCompactsBegin := by
  unfold Obligations.CommitsAndCompactsBegin
  intro s r fb fk pages needed
  have committing := exec_batchCommit r s
  have compacting := exec_compact r s
  unfold execBatchCommit at committing
  unfold execCompact at compacting
  refine ⟨fun ready none_ => ?_, fun ready none_ => ?_⟩
  all_goals have fit := hasLength_nil none_
  · refine ⟨fun closed => ?_, fun busy => ?_, fun opened empty => ?_, fun opened some_ spent => ?_,
      fun opened some_ left touched => ?_⟩
    · exact refuses_of_owner committing ready fit (by simp [closed, State.refuse])
    · exact refuses_of_owner committing ready fit (by simp [busy, State.refuse])
    · refine answersWith_of_owner committing ready fit ?_ rfl
      simp only [opened, empty, List.isEmpty_nil, if_true]
      rfl
    · refine answersWith_of_owner committing ready fit ?_ rfl
      show _ = (taken s).refuseCommit { type := 0x0B, req := r } .full []
      simp [opened, some_, Store.counterSpent, spent]
    · obtain ⟨t, done, rfl, tower, store, prio⟩ := batchCommit_waits ready none_ opened some_ left touched
      exact ⟨_, done, tower, store, rfl, rfl, prio, rfl⟩
  · refine ⟨fun busy => ?_, fun closed idle spent => ?_, fun closed idle left lack => ?_,
      fun closed idle left room some_ => ?_⟩
    · refine refuses_of_owner compacting ready fit (if_pos (busy.imp_right fun works => ?_))
      exact Option.isSome_iff_ne_none.mpr works
    all_goals have free : ¬ (s.batch.state ≠ .closed ∨ s.store.work.isSome = true) := by simp [closed, idle]
    · exact refuses_of_owner compacting ready fit
        ((if_neg free).trans (if_pos (by simpa [Store.counterSpent] using spent)))
    · exact refuses_of_owner compacting ready fit ((if_neg free).trans
        ((if_neg (by simpa [Store.counterSpent] using left)).trans (if_pos lack)))
    · obtain ⟨op, capped, placed⟩ := placePrio_touches (s.takeNumber s.compactWork) .compactRead
      have done := compact_begins ready none_ closed idle left room some_
      rw [placed] at done
      exact ⟨_, s.compactWork, done, ⟨rfl, rfl, rfl, rfl, rfl, rfl, rfl, rfl, rfl, rfl, rfl⟩,
        rfl, rfl, rfl, rfl, rfl, rfl, rfl, rfl, rfl, rfl, rfl, rfl⟩

end Sys2Proof
end

section
/-! PROOF. The fields of a STAGE PUT (R81, 10.4), and the staging of an edit with its protection (R81 to R83). -/

namespace Sys2Proof.Machine

/-! ### The fields of a STAGE PUT -/

section
variable (p : List Byte)

/-- R81: the presence bits or the home landing are out of their ranges. -/
abbrev HomeFails : Prop := 8 ≤ byteAt p 7 ∨ ((p.getD 7 0).getLsbD 0 = true ∧ 127 < byteAt p 8)

/-- R81: the trip budget, where there is one, is not 1 to 32. -/
abbrev BudgetFails : Prop := (p.getD 7 0).getLsbD 2 = true ∧ ¬ (1 ≤ byteAt p 12 ∧ byteAt p 12 ≤ 32)

theorem recordFailure_eq : recordFailure p =
    if field p 0 5 = 0 then some 1 else if 2 < byteAt p 5 then some 2 else if HomeFails p then some 3
    else if 3 < byteAt p 9 then some 4 else if BudgetFails p then some 5 else none := by
  have presence : (p.getD 7 0 >>> 3 != 0) = decide (8 ≤ byteAt p 7) := by
    rw [Bool.eq_iff_iff, bne_iff_ne, shiftRight_ne_zero_iff, decide_eq_true_iff]
    rfl
  have budget : (byteAt p 12 < 1 ∨ 32 < byteAt p 12) ↔ ¬ (1 ≤ byteAt p 12 ∧ byteAt p 12 ≤ 32) := by omega
  unfold recordFailure
  simp only [presence, Bool.or_eq_true, Bool.and_eq_true, decide_eq_true_eq, budget]

/-- Of five checks in their order, the number of the first that fails. -/
theorem firstFailing_iff (a b c d e : Prop) [Decidable a] [Decidable b] [Decidable c] [Decidable d] [Decidable e] :
    let first : Option Nat :=
      if a then some 1 else if b then some 2 else if c then some 3 else if d then some 4 else if e then some 5 else none
    (first = some 1 ↔ a) ∧ (first = some 2 ↔ ¬ a ∧ b) ∧ (first = some 3 ↔ ¬ a ∧ ¬ b ∧ c)
    ∧ (first = some 4 ↔ ¬ a ∧ ¬ b ∧ ¬ c ∧ d) ∧ (first = some 5 ↔ ¬ a ∧ ¬ b ∧ ¬ c ∧ ¬ d ∧ e)
    ∧ (first = none ↔ ¬ a ∧ ¬ b ∧ ¬ c ∧ ¬ d ∧ ¬ e) := by
  by_cases ha : a
  · simp [ha]
  by_cases hb : b
  · simp [ha, hb]
  by_cases hc : c
  · simp [ha, hb, hc]
  by_cases hd : d
  · simp [ha, hb, hc, hd]
  · simp [ha, hb, hc, hd]

theorem byteAt_lt (i : Nat) : byteAt p i < 256 := (p.getD i 0).isLt

/-- 10.4: a status byte in its range is the code of the status read from it. -/
theorem recordIn_status (small : byteAt p 5 ≤ 2) : (recordIn p).status.code = byteAt p 5 := by
  have statuses : ∀ n ≤ 2, (match n with
      | 0 => CredStatus.active
      | 1 => .suspended
      | _ => .lost).code = n := by decide
  exact statuses _ small

theorem recordIn_home (within : (p.getD 7 0).getLsbD 0 = true → byteAt p 8 ≤ 127) :
    (recordIn p).home.map Fin.val = (if (p.getD 7 0).getLsbD 0 = true then some (byteAt p 8) else none) := by
  have home : (recordIn p).home
      = if (p.getD 7 0).getLsbD 0 = true then some (Fin.ofNat 128 (byteAt p 8)) else none := rfl
  rw [home]
  split
  · rename_i given
    exact congrArg some (Nat.mod_eq_of_lt (Nat.lt_succ_of_le (within given)))
  · rfl

end

/-! ### The owner of both requests -/

section
variable {s : State} {f : SiteFrame} {e : Edit} {bad : Option Nat}

/-- R81, R82: an edit is asked for, `bad` being the number of its first failing field. -/
def State.stageAsked (s : State) (f : SiteFrame) (e : Edit) (bad : Option Nat) : State :=
  if s.batch.state ≠ .open_ then s.refuse f .notOpen
  else match bad with
    | some n => s.reply f .range (u8 n)
    | none => s.tryStage f e

theorem stageAsked_of_passed (opened : s.batch.state = .open_) : s.stageAsked f e none = s.tryStage f e :=
  if_neg (not_not_intro opened)

theorem execStagePut_eq (r : Req) (s : State) : exec (.stagePut r) s
    = siteRequest 0x09 r false (hasLength r 13) (fun f u => u.stageAsked f
        { badge := field r.payload 0 5, kind := .put (recordIn r.payload) } (recordFailure r.payload)) s := rfl

theorem execStageDrop_eq (r : Req) (s : State) : exec (.stageDrop r) s
    = siteRequest 0x0A r false (hasLength r 5) (fun f u => u.stageAsked f
        { badge := beNat r.payload, kind := .drop } (if beNat r.payload = 0 then some 1 else none)) s := by
  have owner (f : SiteFrame) (u : State) : u.stageAsked f { badge := beNat r.payload, kind := .drop }
      (if beNat r.payload = 0 then some 1 else none) = if u.batch.state ≠ .open_ then u.refuse f .notOpen
        else if beNat r.payload = 0 then u.reply f .range (u8 1)
        else u.tryStage f { badge := beNat r.payload, kind := .drop } := by
    unfold State.stageAsked
    by_cases zero : beNat r.payload = 0 <;> simp [zero]
  simp only [owner]
  rfl

/-! ### The checks of an edit (R81, R83) -/

theorem namesService_iff {x : Edit} : x.namesService = true ↔ ∃ q, x.kind = .put q ∧ 240 ≤ q.profile.val := by
  cases kind : x.kind <;> simp [Edit.namesService, kind]

/-- R79: the edit has its place in the buffer. -/
def Batch.hasPlace (b : Batch) (e : Edit) : Prop := b.edits.length < 64 ∨ ∃ x ∈ b.edits, x.badge = e.badge

theorem full_iff {b : Batch} : (64 ≤ b.edits.length ∧ (b.find e.badge).isNone = true) ↔ ¬ b.hasPlace e := by
  rw [Batch.hasPlace, not_or, Nat.not_lt, ← find_isSome_iff, Option.isNone_iff_eq_none,
    ← Option.not_isSome_iff_eq_none]

theorem tryStage_of_full (full : ¬ s.batch.hasPlace e) : s.tryStage f e = s.reply f .full [] :=
  if_pos (full_iff.mpr full)

theorem tryStage_of_key (place : s.batch.hasPlace e) (key : s.keyOn = true) : s.tryStage f e = s.stageEdit f e :=
  (if_neg fun full => full_iff.mp full place).trans (if_pos key)

/-- R83: whether the edit or the one it replaces names a service profile. -/
def Batch.guards (b : Batch) (e : Edit) : Prop :=
  e.namesService = true ∨ ∃ x, b.find e.badge = some x ∧ x.namesService = true

theorem guards_iff {b : Batch} :
    (e.namesService || ((b.find e.badge).map Edit.namesService).getD false) = true ↔ b.guards e := by
  rw [Bool.or_eq_true, Batch.guards]
  cases b.find e.badge <;> simp

theorem tryStage_of_guarded (place : s.batch.hasPlace e) (key : s.keyOn = false) (guarded : s.batch.guards e) :
    s.tryStage f e = s.reply f .guarded [] :=
  ((if_neg fun full => full_iff.mp full place).trans (if_neg (by simp [key]))).trans (if_pos (guards_iff.mpr guarded))

theorem tryStage_of_unguarded (place : s.batch.hasPlace e) (key : s.keyOn = false) (free : ¬ s.batch.guards e) :
    s.tryStage f e = s.portLookup f (.stage e) e.badge :=
  ((if_neg fun full => full_iff.mp full place).trans (if_neg (by simp [key]))).trans
    (if_neg fun guarded => free (guards_iff.mp guarded))

/-- R81: the first edit of a badge is appended, and the reply says how many there are. -/
theorem stageEdit_of_fresh (fresh : ¬ ∃ x ∈ s.batch.edits, x.badge = e.badge) : s.stageEdit f e
    = ({ s with batch := { s.batch with
          edits := s.batch.edits ++ [e], deadline := some (s.cal.uptime + s.timing.batchIdle) } } : State).reply
        f .ok (u8 (s.batch.edits.length + 1) ++ [0]) := by
  have none_ : (s.batch.find e.badge).isSome = false := by
    rw [← Bool.not_eq_true, find_isSome_iff]
    exact fresh
  simp only [State.stageEdit, State.restartIdle, State.mapBatch, Batch.stage, none_, Bool.false_eq_true, if_false,
    List.length_append, List.length_singleton]
  rfl

/-- R81: another edit of a badge takes the place of the one it has. -/
theorem stageEdit_of_held (held : ∃ x ∈ s.batch.edits, x.badge = e.badge) : s.stageEdit f e
    = ({ s with batch := { s.batch with
          edits := s.batch.edits.map fun x => if x.badge = e.badge then e else x
          deadline := some (s.cal.uptime + s.timing.batchIdle) } } : State).reply
        f .ok (u8 s.batch.edits.length ++ [1]) := by
  have some_ : (s.batch.find e.badge).isSome = true := (find_isSome_iff _ _).mpr held
  simp only [State.stageEdit, State.restartIdle, State.mapBatch, Batch.stage, some_, if_true, List.length_map]
  rfl

end

end Sys2Proof.Machine

namespace Sys2Proof
open Machine

/-- Settles O35: the fields by the order of the checks, the edit by the branch that the buffer, the key and the
profiles select. -/
theorem stagingTakesOneEditABadge : Obligations.StagingTakesOneEditABadge := by
  unfold Obligations.StagingTakesOneEditABadge
  refine ⟨fun p _ => ?_, fun s r c f e bad asked ready => ?_⟩
  · intro badge status home attributes budget
    have first := firstFailing_iff badge status home attributes budget
    rw [← recordFailure_eq p] at first
    obtain ⟨one, two, three, four, five, none_⟩ := first
    refine ⟨one, two, three, four, five, none_, fun passes => ?_⟩
    obtain ⟨-, inRange, present, -⟩ := none_.mp passes
    exact ⟨rfl, Nat.mod_eq_of_lt (byteAt_lt p 6), recordIn_status p (Nat.le_of_not_lt inRange), rfl,
      recordIn_home p fun given => Nat.le_of_not_lt fun far => present (.inr ⟨given, far⟩), rfl, rfl, rfl, rfl⟩
  · obtain ⟨type, fits, rfl, fit, meaning⟩ : ∃ type fits, f = { type := type, req := r } ∧ fits = true
        ∧ exec c s = siteRequest type r false fits (fun f u => u.stageAsked f e bad) s := by
      rcases asked with ⟨rfl, rfl, length, rfl, rfl⟩ | ⟨rfl, rfl, length, rfl, rfl⟩
      · exact ⟨_, _, rfl, hasLength_of_eq length, execStagePut_eq r s⟩
      · exact ⟨_, _, rfl, hasLength_of_eq length, execStageDrop_eq r s⟩
    intro held hasPlace service
    refine ⟨fun closed => refuses_of_owner meaning ready fit (if_pos closed), fun n opened fails => ?_,
      fun opened passes => ?_⟩
    · subst fails
      exact refuses_of_owner meaning ready fit (if_neg (not_not_intro opened))
    · subst passes
      have tries := stageAsked_of_passed (s := taken s) (f := { type := type, req := r }) (e := e) opened
      refine ⟨fun full => ?_, fun key few fresh => ?_, fun key old => ?_, fun key place own => ?_,
        fun x key found guards => ?_, fun key own place others => ⟨fun unusable => ?_, fun usable => ?_⟩⟩
      · exact refuses_of_owner meaning ready fit (tries.trans (tryStage_of_full full))
      · have adds := tries.trans (tryStage_of_key (.inl few) key)
        exact answersWith_of_owner meaning ready fit (adds.trans (stageEdit_of_fresh (s := taken s) fresh)) rfl
      · have replaces := tries.trans (tryStage_of_key (.inr old) key)
        exact answersWith_of_owner meaning ready fit (replaces.trans (stageEdit_of_held (s := taken s) old)) rfl
      · exact refuses_of_owner meaning ready fit
          (tries.trans (tryStage_of_guarded place key (.inl (namesService_iff.mpr own))))
      · have old : ∃ x ∈ s.batch.edits, x.badge = e.badge :=
          (find_isSome_iff _ _).mp (Option.isSome_of_eq_some found)
        exact refuses_of_owner meaning ready fit
          (tries.trans (tryStage_of_guarded (.inr old) key (.inr ⟨x, found, namesService_iff.mpr guards⟩)))
      all_goals
        have free : ¬ s.batch.guards e := by
          rintro (names | ⟨x, found, names⟩)
          · exact own (namesService_iff.mp names)
          · exact others x found (namesService_iff.mp names)
        have looks := tries.trans (tryStage_of_unguarded place key free)
      · exact refuses_of_owner meaning ready fit (looks.trans (if_pos unusable))
      · have readable : (taken s).dir.condition ≠ .unusable := by rw [usable]; decide
        obtain ⟨t, done, rfl, tower, store, prio⟩ :=
          waitsForRead_of_owner meaning ready fit (looks.trans (if_neg readable))
        exact ⟨_, done, rfl, tower, store, rfl, rfl, prio⟩

end Sys2Proof
end

section
/-! PROOF. The commit-complete event (R45, R54, R59, R64, R66, R76, R90): what it writes in the log, what it switches,
how the work ends, and the spare sum that it leaves. -/

namespace Sys2Proof.Machine

section
variable {s u v : State} {w : Work}

theorem execCommitComplete_of_works (h : Works s .logMark) (runs : s.store.work = some w) :
    ThenArray .commitComplete s (s.commitDone w) := by
  rw [ThenArray, exec_commitComplete, execCommitComplete, whileRunning_of_running _ _ h.powered]
  simp only [h.running, runs]

/-! ### The steps of the event -/

/-- R66: the MARK has written the number of the work `w`, and its pages are switched. -/
def State.workSwitched (s : State) (w : Work) : State :=
  (((s.mapStore fun st => st.logNumber w.number).endOp).dropWork).switchPages w

/-- R76, R90: the end of the work `w` by its kind. -/
def State.endWork (s : State) (w : Work) : State :=
  match w.kind with
  | .commit => s.endCommit w
  | .compact => s.endCompact w

theorem commitDone_eq (s : State) (w : Work) : s.commitDone w
    = (((s.workSwitched w).endWork w).checkSpare s.store.spareSum).restartScan := rfl

theorem workSwitched_touches (s : State) (w : Work) : ∃ states erases ix,
    s.workSwitched w = { s with
      store := { s.store.logNumber w.number with
        pageState := states, eraseQ := erases, op := none, work := none, workQ := s.store.workQ.tail }
      dir := { s.dir with index := ix, recordCount := (ix.map IndexEntry.count).sum, cursor := none } } := by
  unfold State.workSwitched State.switchPages
  obtain ⟨v, data⟩ := foldl_setState_eq (((s.mapStore fun st => st.logNumber w.number).endOp).dropWork).store
    w.heldPages .data
  obtain ⟨v', eq, -⟩ := toStale_spec { (((s.mapStore fun st => st.logNumber w.number).endOp).dropWork).store with
    pageState := v } w.released .superseded
  simp only [State.mapStore, State.endOp, State.dropWork] at data eq ⊢
  simp only [data, eq]
  exact ⟨_, _, _, rfl⟩

theorem endWork_touches (s : State) (w : Work) : ∃ c b tt ns,
    s.endWork w = { s with dir := { s.dir with condition := c }, batch := b, transfer := tt, notices := ns } := by
  unfold State.endWork
  split
  · exact ⟨s.dir.condition, _, _, _, rfl⟩
  · exact ⟨_, s.batch, s.transfer, _, rfl⟩

theorem checkSpare_touches (s : State) (n : Nat) :
    ∃ f ns, s.checkSpare n = { s with faults := f, notices := ns } := by
  unfold State.checkSpare
  split
  · obtain ⟨f, ns, touched⟩ := raiseFault_touches s .spareLow s.store.spareSum
    exact ⟨f, _, touched⟩
  · exact ⟨s.faults, s.notices, rfl⟩

theorem restartScan_touches (s : State) : ∃ site, s.restartScan = { s with site := site } := by
  unfold State.restartScan
  split
  · exact ⟨_, rfl⟩
  · exact ⟨s.site, rfl⟩

/-- R54: a scan that still reads goes back to its start. -/
theorem restartScan_of_scan {f : SiteFrame} {start next : Badge} {gathered : List Record}
    (reads : s.site.inHand = some { frame := f, wait := .scan start next gathered }) :
    s.restartScan = s.setInHand f (.scan start start []) := by
  simp only [State.restartScan, reads]

/-- R54: a scan that has read its last page keeps its reply, and any other request what it waits for. -/
theorem restartScan_of_other
    (other : ∀ f start next gathered, s.site.inHand ≠ some { frame := f, wait := .scan start next gathered }) :
    s.restartScan = s := by
  unfold State.restartScan
  split
  · rename_i f start next gathered reads
    exact absurd reads (other f start next gathered)
  · rfl

theorem restartScan_after (s : State) : After s s.restartScan := by
  obtain ⟨site, touched⟩ := restartScan_touches s
  rw [touched]
  exact .of_parts rfl rfl rfl

/-! ### The store, the directory and the Site Port -/

/-- What the commit-complete event of `s` leaves in `u` of the log, the priority queue, the counts and the cursor. -/
structure MarkCompleted (s u : State) (w : Work) : Prop where
  log : u.store.log = (s.store.logNumber w.number).log
  logPage : u.store.logPage = (s.store.logNumber w.number).logPage
  logSlot : u.store.logSlot = (s.store.logNumber w.number).logSlot
  prio : u.store.prio = s.store.prio
  counted : u.dir.recordCount = (u.dir.index.map IndexEntry.count).sum
  cursor : u.dir.cursor = none

theorem commitDone_completed (s : State) (w : Work) : MarkCompleted s (s.commitDone w) w := by
  obtain ⟨states, erases, ix, switched⟩ := workSwitched_touches s w
  obtain ⟨c, b, tt, ns, ended⟩ := endWork_touches (s.workSwitched w) w
  obtain ⟨f, ns', checked⟩ := checkSpare_touches ((s.workSwitched w).endWork w) s.store.spareSum
  obtain ⟨site, restarted⟩ := restartScan_touches (((s.workSwitched w).endWork w).checkSpare s.store.spareSum)
  rw [commitDone_eq, restarted, checked, ended, switched]
  exact ⟨rfl, rfl, rfl, rfl, rfl, rfl⟩

/-- R54: what the Site Port has in hand after the event. -/
theorem commitDone_site (s : State) (w : Work) :
    (∀ f start next gathered, s.site.inHand = some { frame := f, wait := .scan start next gathered } →
      (s.commitDone w).site = { s.site with inHand := some { frame := f, wait := .scan start start [] } })
    ∧ ((∀ f start next gathered, s.site.inHand ≠ some { frame := f, wait := .scan start next gathered }) →
      (s.commitDone w).site = s.site) := by
  have site : (((s.workSwitched w).endWork w).checkSpare s.store.spareSum).site = s.site := by
    obtain ⟨states, erases, ix, switched⟩ := workSwitched_touches s w
    obtain ⟨c, b, tt, ns, ended⟩ := endWork_touches (s.workSwitched w) w
    obtain ⟨f, ns', checked⟩ := checkSpare_touches ((s.workSwitched w).endWork w) s.store.spareSum
    rw [checked, ended, switched]
  refine ⟨fun f start next gathered reads => ?_, fun other => ?_⟩
  · rw [commitDone_eq, restartScan_of_scan (by rw [site]; exact reads), State.setInHand, State.mapSite, site]
  · rw [commitDone_eq, restartScan_of_other (by rw [site]; exact other), site]

/-- R64: the number stands in the slot of the log position, and every other slot is as it was. -/
theorem logNumber_log (st : Store) (n : Nat) : (st.logNumber n).log[st.logPage][st.logSlot] = some n
    ∧ ∀ (q : Fin 8) (i : Fin 64), q ≠ st.logPage ∨ i ≠ st.logSlot → (st.logNumber n).log[q][i] = st.log[q][i] := by
  have page : (st.logNumber n).log[st.logPage] = st.log[st.logPage].set st.logSlot.val (some n) st.logSlot.isLt :=
    log_set_same st.log st.logPage _
  refine ⟨by rw [page]; exact Vector.getElem_set_self _, fun q i other => ?_⟩
  by_cases same : q = st.logPage
  · subst same
    have apart : st.logSlot.val ≠ i.val := fun eq => other.resolve_left (not_not_intro rfl) (Fin.ext eq.symm)
    rw [page]
    exact Vector.getElem_set_ne _ _ apart
  · exact congrArg (·[i]) (log_set_of_ne st.log _ same)

/-- R64: the log position moves to the next slot, after slot 63 to slot 0 of the next page. -/
theorem logNumber_position (st : Store) (n : Nat) :
    (st.logSlot.val < 63 → (st.logNumber n).logPage = st.logPage ∧ (st.logNumber n).logSlot = st.logSlot + 1)
    ∧ (st.logSlot.val = 63 → (st.logNumber n).logPage = st.logPage + 1 ∧ (st.logNumber n).logSlot = 0) := by
  refine ⟨fun below => ⟨if_neg (Nat.ne_of_lt below), rfl⟩, fun last => ⟨if_pos last, ?_⟩⟩
  have slot : st.logSlot = 63 := Fin.ext last
  exact (congrArg (· + 1) slot).trans (by decide)

theorem entryOf_page {st : Store} {p : Page} {e : IndexEntry} (h : st.entryOf p = some e) : e.page = p := by
  unfold Store.entryOf at h
  split at h
  · exact (Option.some.inj h) ▸ rfl
  · exact absurd h nofun

/-- R45: what the switched index names. -/
theorem Switched.mem_index (h : Switched s u w) (e : IndexEntry) : e ∈ u.dir.index ↔
    (e ∈ s.dir.index ∧ e.page ∉ w.released) ∨ ∃ p ∈ w.heldPages, s.store.entryOf p = some e := by
  rw [h.index_perm.mem_iff, List.mem_append, List.mem_filter, List.mem_filterMap, Bool.not_eq_true',
    ← Bool.not_eq_true, List.contains_iff_mem]

/-! ### The end of the work and the spare sum -/

/-- R59: SPARE_LOW as the check of the spare sum leaves it, in an event that has raised no fault before it. -/
theorem checkSpare_spareChecked (faults : v.faults = s.faults) (cal : v.cal = s.cal)
    (on : After (v.checkSpare s.store.spareSum) u)
    (spare : u.faults.isSet .spareLow = (v.checkSpare s.store.spareSum).faults.isSet .spareLow)
    {st : Store} (sum : v.store.pageState = st.pageState) : SpareChecked s u st := by
  have left : st.spareSum = v.store.spareSum := by rw [spareSum_eq, spareSum_eq, sum]
  have date : u.arbitrate.settle.date = s.date := by
    have kept : u.arbitrate.settle.cal = s.cal :=
      (arbitrate_cal u).trans (on.cal.trans ((checkSpare_after v s.store.spareSum).cal.trans cal))
    rw [State.date, kept]
    rfl
  unfold SpareChecked
  dsimp only
  rw [← spareSum_eq, ← spareSum_eq, left]
  refine ⟨fun enough few => ?_, fun stays => ?_⟩
  · rw [State.checkSpare, if_pos ⟨few, enough⟩] at on
    have stands := ((raiseFault_raised v .spareLow v.store.spareSum).since faults.symm).after on
    obtain ⟨-, told⟩ := stands.arbitrate
    exact ⟨stands.set, date ▸ told⟩
  · rw [spare, State.checkSpare, if_neg fun low => by omega, faults]

theorem commitDone_spareChecked (s : State) (w : Work) :
    SpareChecked s (s.commitDone w) (s.commitDone w).store := by
  obtain ⟨states, erases, ix, switched⟩ := workSwitched_touches s w
  obtain ⟨c, b, tt, ns, ended⟩ := endWork_touches (s.workSwitched w) w
  have same : ((s.workSwitched w).endWork w).faults = s.faults ∧ ((s.workSwitched w).endWork w).cal = s.cal := by
    rw [ended, switched]
    exact ⟨rfl, rfl⟩
  rw [commitDone_eq]
  generalize (s.workSwitched w).endWork w = v at same
  obtain ⟨faults, cal⟩ := same
  obtain ⟨site, restarted⟩ := restartScan_touches (v.checkSpare s.store.spareSum)
  refine checkSpare_spareChecked faults cal (restartScan_after _) ?_ ?_
  · rw [restarted]
  · rw [restarted, checkSpare_store]

/-- The event leaves the directory, the batch and the Transfer Table as the end of the work does, and reports the
notices of that end. -/
structure FromEnd (v u : State) : Prop where
  dir : u.dir = v.dir
  batch : u.batch = v.batch
  transfer : u.transfer = v.transfer
  reported : ∀ b, Noticed v b → Reported u.arbitrate.settle b

theorem commitDone_fromEnd (s : State) (w : Work) : FromEnd ((s.workSwitched w).endWork w) (s.commitDone w) := by
  rw [commitDone_eq]
  generalize (s.workSwitched w).endWork w = v
  have on := (checkSpare_after v s.store.spareSum).trans (restartScan_after _)
  have reported (b : NoticeBody) (told : Noticed v b) := ((told.after on).after (arbitrate_after _)).settle
  obtain ⟨f, ns, checked⟩ := checkSpare_touches v s.store.spareSum
  obtain ⟨site, restarted⟩ := restartScan_touches (v.checkSpare s.store.spareSum)
  refine ⟨?_, ?_, ?_, reported⟩
  all_goals rw [restarted, checked]

/-- R90: the end of a commit: the batch is closed, the Transfer Table purged, and COMMITTED has its figures. -/
theorem commitDone_commit (kind : w.kind = .commit) : (s.commitDone w).batch = Batch.startUp
    ∧ (s.commitDone w).transfer.entries = s.transfer.entries.filter (fun e => !s.batch.purge.contains e.badge)
    ∧ ∃ n, Reported (s.commitDone w).arbitrate.settle (.committed n) ∧ n.number = w.number
      ∧ n.edits = s.batch.edits.length ∧ n.added = w.added ∧ n.removed = w.removed ∧ n.replaced = w.replaced
      ∧ n.recordCount = (s.commitDone w).dir.recordCount ∧ n.written = w.heldPages.length
      ∧ n.released = w.released.length
      ∧ n.purged + (s.commitDone w).transfer.entries.length = s.transfer.entries.length := by
  have ends : (s.workSwitched w).endWork w = (s.workSwitched w).endCommit w := by simp only [State.endWork, kind]
  obtain ⟨dir, batch, transfer, reported⟩ := commitDone_fromEnd s w
  rw [ends] at dir batch transfer reported
  rw [batch, transfer, dir]
  exact ⟨rfl, rfl, _, reported _ (raiseNotice_noticed _ _), rfl, rfl, rfl, rfl, rfl, rfl, rfl, rfl,
    Nat.sub_add_cancel (List.length_filter_le _ _)⟩

/-- R76: the end of a COMPACT: the directory is USABLE, the batch and the Transfer Table stand. -/
theorem commitDone_compact (kind : w.kind = .compact) : (s.commitDone w).dir.condition = .usable
    ∧ (s.commitDone w).batch = s.batch ∧ (s.commitDone w).transfer = s.transfer
    ∧ Reported (s.commitDone w).arbitrate.settle (.compactDone w.number (s.commitDone w).dir.recordCount) := by
  have ends : (s.workSwitched w).endWork w = (s.workSwitched w).endCompact w := by simp only [State.endWork, kind]
  obtain ⟨dir, batch, transfer, reported⟩ := commitDone_fromEnd s w
  rw [ends] at dir batch transfer reported
  have kept : (s.workSwitched w).batch = s.batch ∧ (s.workSwitched w).transfer = s.transfer := by
    obtain ⟨states, erases, ix, switched⟩ := workSwitched_touches s w
    rw [switched]
    exact ⟨rfl, rfl⟩
  rw [batch, transfer, dir]
  exact ⟨rfl, kept.1, kept.2, reported _ (raiseNotice_noticed _ _)⟩

end

end Sys2Proof.Machine

namespace Sys2Proof
open Machine

/-- Settles O49: the log and the counts by the steps of the event, the pages and the index by the switch, the batch and
the notices by the kind of the work. -/
theorem commitCompleteSwitchesTheIndex : Obligations.CommitCompleteSwitchesTheIndex := by
  unfold Obligations.CommitCompleteSwitchesTheIndex
  intro s w works runs
  have switched := commitDone_switched s w
  obtain ⟨log, logPage, logSlot, prio, counted, cursor⟩ := commitDone_completed s w
  obtain ⟨scans, waits⟩ := commitDone_site s w
  refine ⟨s.commitDone w, execCommitComplete_of_works works runs, switched.op, switched.work, ?_, ?_, ?_, ?_,
    switched.pages, switched.queue, prio, commitDone_spareChecked s w, fun p old => ⟨?_, ?_⟩, fun p new stays => ?_,
    fun e mem => ?_, fun e mem stays => (switched.mem_index e).mpr (.inl ⟨mem, stays⟩), fun p new x img => ?_, counted,
    cursor, scans, waits, commitDone_commit, commitDone_compact⟩
  · rw [log]
    exact (logNumber_log s.store w.number).1
  · rw [log]
    exact (logNumber_log s.store w.number).2
  · rw [logPage, logSlot]
    exact (logNumber_position s.store w.number).1
  · rw [logPage, logSlot]
    exact (logNumber_position s.store w.number).2
  · rw [switched.states, if_pos old]
  · rw [switched.erases]
    exact List.mem_append_right _ ((mem_ascending_iff _ _).mpr old)
  · rw [switched.states, if_neg stays, if_pos new]
  · rcases (switched.mem_index e).mp mem with kept | ⟨p, held, entry⟩
    · exact .inl kept
    · exact .inr (entryOf_page entry ▸ held)
  · exact (switched.mem_index _).mpr (.inr ⟨p, new, by simp only [Store.entryOf, img]⟩)

end Sys2Proof
end

section
/-! PROOF. What the deadlines of a second event leave as they stand (R84, R98, R107, R133, R137, R145): the other
groups, the channels of no SENT order, a link that is SILENT and a group that has left service. -/

namespace Sys2Proof.Machine

theorem isSent_iff (o : Order) : o.state.isSent = true ↔ o.state = .sent := by
  cases state : o.state with
  | sent => exact iff_of_true rfl rfl
  | cancelling d => exact iff_of_false nofun nofun

/-! ### Answers to channels (R97, R135) -/

/-- R97: the channel once the answer `a` has been delivered at the uptime `n`. -/
def Channel.answered (x : Channel) (n : Nat) (a : Answer) : Channel :=
  match x.mark with
  | .owned => { x with
      mark := .none, state := .showing, displayDeadline := some (n + x.cfg.hold)
      tx := x.tx ++ [a.record, .tone a.code.tone] }
  | .discard => answerDropped x
  | .none => x

theorem reader_of_readers {s t : State} (readers : t.readers = s.readers) (c : Chan) : t.reader c = s.reader c := by
  rw [State.reader, readers]
  rfl

theorem group_of_groups {s t : State} (groups : t.groups = s.groups) (g : Group) : t.group g = s.group g := by
  rw [State.group, groups]
  rfl

section
variable (s : State) (answer : Order → Answer) {c : Chan}

theorem deliver_reader (c : Chan) (a : Answer) :
    (s.deliver c a).reader c = (s.reader c).answered s.cal.uptime a := by
  cases mark : (s.reader c).mark with
  | none => rw [deliver_of_none _ _ _ mark, Channel.answered, mark]
  | owned => rw [deliver_of_owned _ _ _ mark, reader_mapReader, Channel.answered, mark]
  | discard =>
    rw [deliver_of_discard _ _ _ mark, reader_mapReader, Channel.answered, mark]
    rfl

theorem deliver_reader_of_ne {d : Chan} (a : Answer) (ne : d ≠ c) : (s.deliver c a).reader d = s.reader d := by
  obtain ⟨f, touched⟩ := deliver_touches s c a
  rw [touched, reader_mapReader_of_ne s f ne]

theorem deliver_cal (c : Chan) (a : Answer) : (s.deliver c a).cal = s.cal := by
  obtain ⟨rs, touched⟩ := deliver_readers s c a
  rw [touched]

theorem deliver_groups (c : Chan) (a : Answer) : (s.deliver c a).groups = s.groups := by
  obtain ⟨rs, touched⟩ := deliver_readers s c a
  rw [touched]

theorem deliver_after (c : Chan) (a : Answer) : After s (s.deliver c a) := by
  obtain ⟨rs, touched⟩ := deliver_readers s c a
  rw [touched]
  exact .of_parts rfl rfl rfl

theorem answered_mark (x : Channel) (n : Nat) (a : Answer) : (x.answered n a).mark = .none := by
  cases mark : x.mark with
  | none => rw [Channel.answered, mark]; exact mark
  | owned => rw [Channel.answered, mark]
  | discard => rw [Channel.answered, mark]; rfl

theorem answered_of_none {x : Channel} (none_ : x.mark = .none) (n : Nat) (a : Answer) : x.answered n a = x := by
  rw [Channel.answered, none_]

/-- R135: the SENT orders `os` are answered, each at its channel. -/
def State.deliverAll (os : List Order) : State := os.foldl (fun s o => s.deliver o.channel (answer o)) s

theorem deliverAll_cons (o : Order) (os : List Order) :
    s.deliverAll answer (o :: os) = (s.deliver o.channel (answer o)).deliverAll answer os := rfl

theorem deliverAll_touches (os : List Order) : ∃ rs, s.deliverAll answer os = { s with readers := rs } := by
  induction os generalizing s with
  | nil => exact ⟨s.readers, rfl⟩
  | cons o os ih =>
    obtain ⟨rs, first⟩ := deliver_readers s o.channel (answer o)
    obtain ⟨rs', rest⟩ := ih (s.deliver o.channel (answer o))
    exact ⟨rs', by rw [deliverAll_cons, rest, first]⟩

/-- R135: a channel of none of the orders is told nothing. -/
theorem deliverAll_reader_of_untold {os : List Order} (untold : ∀ o ∈ os, o.channel ≠ c) :
    (s.deliverAll answer os).reader c = s.reader c := by
  induction os generalizing s with
  | nil => rfl
  | cons o os ih =>
    rw [deliverAll_cons, ih _ fun y mem => untold y (List.mem_cons_of_mem o mem),
      deliver_reader_of_ne _ _ (untold o List.mem_cons_self).symm]

/-- R97: a channel with no admission in flight takes no answer. -/
theorem deliverAll_reader_of_none (os : List Order) (none_ : (s.reader c).mark = .none) :
    (s.deliverAll answer os).reader c = s.reader c := by
  induction os generalizing s with
  | nil => rfl
  | cons o os ih =>
    have first : (s.deliver o.channel (answer o)).reader c = s.reader c := by
      by_cases own : o.channel = c
      · subst own
        rw [deliver_reader, answered_of_none none_]
      · exact deliver_reader_of_ne _ _ fun eq => own eq.symm
    rw [deliverAll_cons, ih _ (by rw [first]; exact none_), first]

/-- R135: a channel of one of the orders takes its answer. -/
theorem deliverAll_reader_of_one {os : List Order} {o : Order} (mem : o ∈ os) (own : o.channel = c)
    (one : ∀ y ∈ os, y.channel = c → y = o) :
    (s.deliverAll answer os).reader c = (s.reader c).answered s.cal.uptime (answer o) := by
  induction os generalizing s with
  | nil => exact absurd mem List.not_mem_nil
  | cons y os ih =>
    rw [deliverAll_cons]
    by_cases here : y.channel = c
    · obtain rfl := one y List.mem_cons_self here
      subst here
      rw [deliverAll_reader_of_none _ _ _ (by rw [deliver_reader]; exact answered_mark _ _ _), deliver_reader]
    · have later : o ∈ os := (List.mem_cons.mp mem).resolve_left fun eq => here (eq ▸ own)
      rw [ih _ later fun z held => one z (List.mem_cons_of_mem y held), deliver_cal,
        deliver_reader_of_ne _ _ fun eq => here eq.symm]

end

/-! ### A step at the manager of one group -/

/-- No SENT order of the manager is the channel's. -/
def GroupMgr.Untold (m : GroupMgr) (c : Chan) : Prop := ∀ o ∈ m.orders, o.state = .sent → o.channel ≠ c

/-- The event goes on from `s` to `t` at the manager of the group `h`: the other groups stand, and so do the channels
of none of its SENT orders. -/
structure AtGroup (h : Group) (s t : State) : Prop where
  after : After s t
  others : ∀ g, g ≠ h → t.group g = s.group g
  untold : ∀ c, (s.group h).Untold c → (t.group h).Untold c ∧ t.reader c = s.reader c

section
variable {h : Group} {s t u : State}

theorem AtGroup.refl (h : Group) (s : State) : AtGroup h s s := ⟨.refl s, fun _ _ => rfl, fun _ untold => ⟨untold, rfl⟩⟩

theorem AtGroup.trans (a : AtGroup h s t) (b : AtGroup h t u) : AtGroup h s u where
  after := a.after.trans b.after
  others g ne := (b.others g ne).trans (a.others g ne)
  untold c untold := by
    obtain ⟨still, same⟩ := a.untold c untold
    obtain ⟨last, same'⟩ := b.untold c still
    exact ⟨last, same'.trans same⟩

theorem AtGroup.ite {p : Prop} [Decidable p] (a : AtGroup h s t) (b : AtGroup h s u) :
    AtGroup h s (if p then t else u) := by
  split
  · exact a
  · exact b

theorem AtGroup.foldl {α : Type} {f : State → α → State} (step : ∀ s a, AtGroup h s (f s a)) (as : List α) (s : State) :
    AtGroup h s (as.foldl f s) := by
  induction as generalizing s with
  | nil => exact .refl h s
  | cons a as ih => exact (step s a).trans (ih _)

theorem AtGroup.of_parts (groups : t.groups = s.groups) (readers : t.readers = s.readers) (after : After s t) :
    AtGroup h s t where
  after := after
  others g _ := group_of_groups groups g
  untold c untold := ⟨by rw [group_of_groups groups h]; exact untold, reader_of_readers readers c⟩

theorem raiseNotice_atGroup (s : State) (b : NoticeBody) : AtGroup h s (s.raiseNotice b) :=
  .of_parts rfl rfl (raiseNotice_after s b)

theorem raiseFault_atGroup (s : State) (k : FaultKind) (d : Nat) : AtGroup h s (s.raiseFault k d) := by
  have after := raiseFault_after s k d
  obtain ⟨f, ns, touched⟩ := raiseFault_touches s k d
  rw [touched] at after ⊢
  exact .of_parts rfl rfl after

/-- A change of the manager that makes no order SENT. -/
theorem mapGroup_atGroup (s : State) {f : GroupMgr → GroupMgr}
    (sent : ∀ m, ∀ o ∈ (f m).orders, o.state = .sent → o ∈ m.orders) : AtGroup h s (s.mapGroup h f) where
  after := .of_parts rfl rfl rfl
  others g ne := group_mapGroup_of_ne s f ne
  untold c untold := by
    refine ⟨fun o mem state => ?_, rfl⟩
    rw [group_mapGroup] at mem
    exact untold o (sent _ o mem state) state

theorem sendGroup_atGroup (s : State) (m : GroupMsg) : AtGroup h s (s.sendGroup h m) :=
  mapGroup_atGroup s fun _ _ mem _ => mem

/-- An answer to the channel of an order that was SENT where the step began. -/
theorem AtGroup.deliver (a : AtGroup h s t) {o : Order} (mem : o ∈ (s.group h).orders) (sent : o.state = .sent)
    (x : Answer) : AtGroup h s (t.deliver o.channel x) where
  after := a.after.trans (deliver_after _ _ _)
  others g ne := (group_of_groups (deliver_groups _ _ _) g).trans (a.others g ne)
  untold c untold := by
    obtain ⟨still, same⟩ := a.untold c untold
    rw [group_of_groups (deliver_groups _ _ _) h, deliver_reader_of_ne _ _ (untold o mem sent).symm]
    exact ⟨still, same⟩

theorem AtGroup.deliverAll (a : AtGroup h s t) {os : List Order}
    (held : ∀ o ∈ os, o ∈ (s.group h).orders ∧ o.state = .sent) (answer : Order → Answer) :
    AtGroup h s (t.deliverAll answer os) := by
  induction os generalizing t with
  | nil => exact a
  | cons o os ih =>
    obtain ⟨mem, sent⟩ := held o List.mem_cons_self
    exact ih (a.deliver mem sent _) fun y later => held y (List.mem_cons_of_mem o later)

/-! ### The deadlines at a manager -/

theorem foldl_withdraw_eq (s : State) (g : Group) (cars : List Car) :
    cars.foldl (fun s car => s.sendGroup g (.withdraw car)) s
      = s.mapGroup g fun m => { m with tx := m.tx ++ cars.map GroupMsg.withdraw } := by
  induction cars generalizing s with
  | nil => simp
  | cons car cars ih => rw [List.foldl_cons, ih, sendGroup_eq, mapGroup_mapGroup]; simp

/-- R135, step 1: the orders of the group `g` leave its manager, and those SENT are answered. -/
def State.ordersEnded (s : State) (g : Group) : State :=
  (s.mapGroup g fun m => { m with orders := [] }).deliverAll (fun o => Answer.refusal .outOfService o.dest)
    ((s.group g).orders.filter fun o => o.state.isSent)

/-- R135, steps 2 and 3, at the manager: the cars given are withdrawn, and no car stands opened. -/
def GroupMgr.carsEnded (m : GroupMgr) (cars : List Car) : GroupMgr :=
  { m with tx := m.tx ++ cars.map GroupMsg.withdraw, enables := Vector.replicate 8 CarEnable.empty }

theorem leaveService_eq (s : State) (g : Group) (after : Avail) : s.leaveService g after
    = (s.ordersEnded g).mapGroup g fun m => m.carsEnded ((s.group g).withdrawals after) := by
  unfold State.leaveService
  dsimp only
  rw [foldl_withdraw_eq, mapGroup_mapGroup]
  rfl

theorem ordersEnded_atGroup (s : State) : AtGroup h s (s.ordersEnded h) := by
  have cleared : AtGroup h s (s.mapGroup h fun m => { m with orders := [] }) :=
    mapGroup_atGroup s fun _ _ mem => absurd mem List.not_mem_nil
  refine cleared.deliverAll (fun o mem => ?_) _
  obtain ⟨held, sent⟩ := List.mem_filter.mp mem
  exact ⟨held, (isSent_iff o).mp sent⟩

theorem leaveService_atGroup (s : State) (after : Avail) : AtGroup h s (s.leaveService h after) := by
  rw [leaveService_eq]
  exact (ordersEnded_atGroup s).trans (mapGroup_atGroup _ fun _ _ mem _ => mem)

theorem regroup_atGroup (s : State) (cause : GroupCause) (always : Bool) (change : Option RecallChange) :
    AtGroup h s (s.regroup h cause always change) := by
  unfold State.regroup
  dsimp only
  refine .ite (.refl h s) (.trans (.trans ?_ (mapGroup_atGroup _ ?_)) (raiseNotice_atGroup _ _))
  · exact .ite (leaveService_atGroup s _) (.refl h s)
  · exact fun _ _ mem _ => mem

theorem linkGoesSilent_atGroup (s : State) : AtGroup h s (s.linkGoesSilent h) := by
  have silent := (mapGroup_atGroup (h := h) s (f := fun m =>
    { m with link := .silent, cars := Vector.replicate 8 CarRow.unknown }) fun _ _ mem _ => mem).trans
    (regroup_atGroup _ .linkSilent true none)
  exact .ite (silent.trans (raiseFault_atGroup _ _ _)) silent

theorem checkLink_atGroup (s : State) : AtGroup h s (s.checkLink h) := .ite (linkGoesSilent_atGroup s) (.refl h s)

theorem cancelOrder_atGroup (s : State) {o : Order} (mem : o ∈ (s.group h).orders) (sent : o.state = .sent)
    (code : AnswerCode) : AtGroup h s (s.cancelOrder h o code) := by
  refine AtGroup.deliver (.trans (mapGroup_atGroup s fun m x held state => ?_) (sendGroup_atGroup _ _)) mem sent _
  obtain ⟨y, old, eq⟩ := List.mem_map.mp held
  by_cases same : y.tag = o.tag
  · rw [if_pos same] at eq
    exact absurd (eq ▸ state) nofun
  · rw [if_neg same] at eq
    exact eq ▸ old

theorem checkReply_atGroup (s : State) (tag : Byte) : AtGroup h s (s.checkReply h tag) := by
  unfold State.checkReply
  split
  · rename_i o found
    split
    · rename_i due
      rw [Order.replyDue, Bool.and_eq_true, isSent_iff] at due
      exact cancelOrder_atGroup s (List.mem_of_find?_eq_some found) due.1 _
    · exact .refl h s
  · exact .refl h s

theorem checkCancel_atGroup (s : State) (tag : Byte) : AtGroup h s (s.checkCancel h tag) := by
  unfold State.checkCancel
  split
  · exact .ite (mapGroup_atGroup s fun _ _ mem _ => (List.mem_filter.mp mem).1) (.refl h s)
  · exact .refl h s

theorem checkHold_atGroup (s : State) (car : Car) : AtGroup h s (s.checkHold h car) :=
  .ite (.ite (.refl h s) ((sendGroup_atGroup s _).trans (mapGroup_atGroup _ fun _ _ mem _ => mem))) (.refl h s)

theorem checkGroup_atGroup (s : State) : AtGroup h s (s.checkGroup h) :=
  (((checkLink_atGroup s).trans (.foldl (fun s tag => checkReply_atGroup s tag) _ _)).trans
    (.foldl (fun s tag => checkCancel_atGroup s tag) _ _)).trans (.foldl (fun s car => checkHold_atGroup s car) _ _)

end

/-! ### A step at one channel, and the batch -/

/-- The event goes on from `s` to `t` at the channel `c`: the groups and the other channels stand. -/
structure AtChannel (c : Chan) (s t : State) : Prop where
  after : After s t
  groups : t.groups = s.groups
  others : ∀ d, d ≠ c → t.reader d = s.reader d

section
variable {c : Chan} {s t u : State}

theorem AtChannel.refl (c : Chan) (s : State) : AtChannel c s s := ⟨.refl s, rfl, fun _ _ => rfl⟩

theorem AtChannel.trans (a : AtChannel c s t) (b : AtChannel c t u) : AtChannel c s u where
  after := a.after.trans b.after
  groups := b.groups.trans a.groups
  others d ne := (b.others d ne).trans (a.others d ne)

theorem mapReader_atChannel (s : State) (f : Channel → Channel) : AtChannel c s (s.mapReader c f) :=
  ⟨.of_parts rfl rfl rfl, rfl, fun _ => reader_mapReader_of_ne s f⟩

theorem settleMark_atChannel (s : State) : AtChannel c s (s.settleMark c) := by
  obtain ⟨f, q, touched⟩ := settleMark_touches s c
  rw [touched]
  exact ⟨.of_parts rfl rfl rfl, rfl, fun _ => reader_mapReader_of_ne _ f⟩

theorem raiseOffline_atChannel (s : State) (x : ChanState) : AtChannel c s (s.raiseOffline c x) := by
  have after := (raiseFault_after s .readerOffline c.val).trans (raiseNotice_after _ (.readerOffline c x))
  obtain ⟨f, ns, touched⟩ := raiseFault_touches s .readerOffline c.val
  refine ⟨after, ?_, fun d _ => ?_⟩
  all_goals
    rw [State.raiseOffline, touched]
    rfl

theorem checkSilence_atChannel (s : State) : AtChannel c s (s.checkSilence c) := by
  unfold State.checkSilence
  split
  · exact ((mapReader_atChannel s _).trans (settleMark_atChannel _)).trans (raiseOffline_atChannel _ _)
  · exact .refl c s

theorem checkChannel_atChannel (s : State) : AtChannel c s (s.checkChannel c) := by
  obtain ⟨f, touched⟩ := checkDisplay_touches (s.checkSilence c) c
  rw [State.checkChannel, touched]
  exact (checkSilence_atChannel s).trans (mapReader_atChannel _ f)

/-- Neither deadline of the channel is reached at the uptime `n`. -/
def Channel.Rests (x : Channel) (n : Nat) : Prop :=
  (∀ d, x.silenceDeadline = some d → n < d) ∧ ∀ d, x.displayDeadline = some d → n < d

theorem silent_of_rests {x : Channel} {n : Nat} (rests : x.Rests n) : x.silent n = false := by
  obtain ⟨line, -⟩ := rests
  rw [Channel.silent, Bool.and_eq_false_iff]
  refine .inr ?_
  split
  · rename_i d deadline
    exact decide_eq_false (Nat.not_le.mpr (line d deadline))
  · rfl

theorem checkDisplay_of_rests (rests : (s.reader c).Rests s.cal.uptime) : s.checkDisplay c = s := by
  obtain ⟨-, display⟩ := rests
  unfold State.checkDisplay
  dsimp only
  split
  · rfl
  · rename_i d deadline
    exact if_pos (display d deadline)

/-- R98, R107: no deadline of the channel is reached. -/
theorem checkChannel_of_rests (rests : (s.reader c).Rests s.cal.uptime) : s.checkChannel c = s := by
  have live : s.checkSilence c = s := if_neg (by rw [silent_of_rests rests]; exact Bool.false_ne_true)
  rw [State.checkChannel, live, checkDisplay_of_rests rests]

theorem checkBatch_after (s : State) : After s s.checkBatch :=
  .ite (.trans (v := s.mapBatch fun _ => Batch.startUp) (.of_parts rfl rfl rfl) (raiseNotice_after _ _)) (.refl s)

theorem checkBatch_parts (s : State) : s.checkBatch.groups = s.groups ∧ s.checkBatch.readers = s.readers := by
  unfold State.checkBatch
  split
  · exact ⟨rfl, rfl⟩
  · exact ⟨rfl, rfl⟩

end

/-! ### All the deadlines of a second event -/

section
variable {P : State → Prop}

theorem foldl_keeps {α : Type} {f : State → α → State} (step : ∀ s a, P s → P (f s a)) (as : List α) {s : State}
    (holds : P s) : P (as.foldl f s) := by
  induction as generalizing s with
  | nil => exact holds
  | cons a as ih => exact ih (step s a holds)

/-- What each block keeps at its own deadlines all keep. -/
theorem checkAll_keeps (batch : ∀ s, P s → P s.checkBatch) (channel : ∀ s c, P s → P (s.checkChannel c))
    (group : ∀ s h, P s → P (s.checkGroup h)) {s : State} (holds : P s) : P s.checkAll :=
  foldl_keeps group _ (foldl_keeps channel _ (batch s holds))

end

section
variable {s : State} {c : Chan} {g : Group}

theorem checkAll_after (s : State) : After s s.checkAll :=
  checkAll_keeps (P := After s) (fun u h => h.trans (checkBatch_after u))
    (fun u _ h => h.trans (checkChannel_atChannel u).after) (fun u _ h => h.trans (checkGroup_atGroup u).after)
    (.refl s)

/-- R98, R107, R135: the channel `c` reads `x`, no deadline of it is reached and no group has a SENT order of it. -/
structure AtRest (x : Channel) (c : Chan) (n : Nat) (s : State) : Prop where
  reader : s.reader c = x
  uptime : s.cal.uptime = n
  untold : ∀ h, (s.group h).Untold c

theorem checkAll_reader {x : Channel} {n : Nat} (rests : x.Rests n) (h : AtRest x c n s) : AtRest x c n s.checkAll := by
  refine checkAll_keeps (P := AtRest x c n) (fun u h => ?_) (fun u d h => ?_) (fun u k h => ?_) h
  · obtain ⟨groups, readers⟩ := checkBatch_parts u
    refine ⟨(reader_of_readers readers c).trans h.reader, by rw [(checkBatch_after u).cal]; exact h.uptime, fun j => ?_⟩
    rw [group_of_groups groups j]
    exact h.untold j
  · by_cases own : d = c
    · subst own
      rw [checkChannel_of_rests (by rw [h.reader, h.uptime]; exact rests)]
      exact h
    · obtain ⟨after, groups, others⟩ := checkChannel_atChannel (c := d) u
      refine ⟨(others c fun eq => own eq.symm).trans h.reader, by rw [after.cal]; exact h.uptime, fun j => ?_⟩
      rw [group_of_groups groups j]
      exact h.untold j
  · obtain ⟨after, others, untold⟩ := checkGroup_atGroup (h := k) u
    obtain ⟨still, same⟩ := untold c (h.untold k)
    refine ⟨same.trans h.reader, by rw [after.cal]; exact h.uptime, fun j => ?_⟩
    by_cases here : j = k
    · rw [here]
      exact still
    · rw [others j here]
      exact h.untold j

/-! ### A link that is SILENT -/

/-- The link and what the availability comes from read the same at both managers. -/
structure SameLink (m m' : GroupMgr) : Prop where
  link : m'.link = m.link
  cars : m'.cars = m.cars
  avail : m'.avail = m.avail
  accepting : m'.accepting = m.accepting

theorem SameLink.trans {m m' m'' : GroupMgr} (a : SameLink m m') (b : SameLink m' m'') : SameLink m m'' :=
  ⟨b.link.trans a.link, b.cars.trans a.cars, b.avail.trans a.avail, b.accepting.trans a.accepting⟩

theorem checkReply_sameLink (s : State) (tag : Byte) : SameLink (s.group g) ((s.checkReply g tag).group g) := by
  unfold State.checkReply
  split
  · split
    · rw [State.replyPassed, State.cancelOrder, group_of_groups (deliver_groups _ _ _) g, sendGroup_eq,
        group_mapGroup, group_mapGroup]
      exact ⟨rfl, rfl, rfl, rfl⟩
    · exact ⟨rfl, rfl, rfl, rfl⟩
  · exact ⟨rfl, rfl, rfl, rfl⟩

theorem checkCancel_sameLink (s : State) (tag : Byte) : SameLink (s.group g) ((s.checkCancel g tag).group g) := by
  unfold State.checkCancel
  split
  · split
    · rw [State.removeOrder, group_mapGroup]
      exact ⟨rfl, rfl, rfl, rfl⟩
    · exact ⟨rfl, rfl, rfl, rfl⟩
  · exact ⟨rfl, rfl, rfl, rfl⟩

theorem checkHold_sameLink (s : State) (car : Car) : SameLink (s.group g) ((s.checkHold g car).group g) := by
  unfold State.checkHold State.withdraw
  split
  · split
    · exact ⟨rfl, rfl, rfl, rfl⟩
    · rw [State.clearEnable, sendGroup_eq, group_mapGroup, group_mapGroup]
      exact ⟨rfl, rfl, rfl, rfl⟩
  · exact ⟨rfl, rfl, rfl, rfl⟩

theorem checkLink_of_silent (silent : (s.group g).link = .silent) : s.checkLink g = s :=
  if_neg fun due => due.1 silent

theorem checkGroup_sameLink (silent : (s.group g).link = .silent) :
    SameLink (s.group g) ((s.checkGroup g).group g) := by
  have keeps {α : Type} {f : State → α → State} (step : ∀ s a, SameLink (s.group g) ((f s a).group g)) (as : List α)
      {u : State} (same : SameLink (s.group g) (u.group g)) : SameLink (s.group g) ((as.foldl f u).group g) :=
    foldl_keeps (P := fun u => SameLink (s.group g) (u.group g)) (fun u a h => h.trans (step u a)) as same
  rw [State.checkGroup, checkLink_of_silent silent]
  exact keeps checkHold_sameLink _ (keeps checkCancel_sameLink _ (keeps checkReply_sameLink _ ⟨rfl, rfl, rfl, rfl⟩))

/-- R133: a SILENT link and the availability of its group stand through the deadlines. -/
theorem checkAll_sameLink (silent : (s.group g).link = .silent) :
    SameLink (s.group g) (s.checkAll.group g) := by
  refine checkAll_keeps (P := fun u => SameLink (s.group g) (u.group g)) (fun u h => ?_) (fun u d h => ?_)
    (fun u k h => ?_) ⟨rfl, rfl, rfl, rfl⟩
  · rw [group_of_groups (checkBatch_parts u).1 g]
    exact h
  · rw [group_of_groups (checkChannel_atChannel u).groups g]
    exact h
  · by_cases own : k = g
    · subst own
      exact h.trans (checkGroup_sameLink (h.link.trans silent))
    · rw [(checkGroup_atGroup u).others g fun eq => own eq.symm]
      exact h

/-- R135: a manager that has left service over a SILENT link. -/
structure OutOfService (m : GroupMgr) : Prop where
  silent : m.link = .silent
  orders : m.orders = []
  closed : ∀ car : Car, m.enables[car] = CarEnable.empty

theorem checkGroup_of_outOfService (out : OutOfService (s.group g)) : s.checkGroup g = s := by
  have tags : s.orderTags g = [] := by rw [State.orderTags, out.orders, List.map_nil]
  have holds (car : Car) : s.checkHold g car = s := if_neg (by rw [out.closed car]; exact Bool.false_ne_true)
  have cars (as : List Car) : as.foldl (fun s c => s.checkHold g c) s = s := by
    induction as with
    | nil => rfl
    | cons car as ih => rw [List.foldl_cons, holds car, ih]
  rw [State.checkGroup, checkLink_of_silent out.silent]
  simp only [tags, List.foldl_nil]
  exact cars _

/-- R135: nothing of a group that has left service over a SILENT link is due. -/
theorem checkAll_group_of_outOfService (out : OutOfService (s.group g)) : s.checkAll.group g = s.group g := by
  refine checkAll_keeps (P := fun u => u.group g = s.group g) (fun u h => ?_) (fun u d h => ?_) (fun u k h => ?_) rfl
  · rw [group_of_groups (checkBatch_parts u).1 g]
    exact h
  · rw [group_of_groups (checkChannel_atChannel u).groups g]
    exact h
  · by_cases own : k = g
    · subst own
      rw [checkGroup_of_outOfService (h ▸ out)]
      exact h
    · rw [(checkGroup_atGroup u).others g fun eq => own eq.symm]
      exact h

end

end Sys2Proof.Machine
end

section
/-! PROOF. The second event that takes a batch's idle deadline (R84) and the one that takes a link's silence deadline
(R133 to R135). -/

namespace Sys2Proof.Machine

/-! ### The calendar's part of the second event (R29) -/

section
variable (s : State)

theorem advance_touches : ∃ tm cal b st tt ns, s.advance = { s with
    time := tm, cal := cal, banks := b, store := st, transfer := tt, notices := ns } := by
  cases set : s.cal.state with
  | unset => exact ⟨_, _, s.banks, s.store, s.transfer, s.notices, advance_of_unset set⟩
  | set =>
    by_cases short : s.cal.second < 59
    · exact ⟨_, _, s.banks, s.store, s.transfer, s.notices, advance_of_second set short⟩
    · obtain ⟨b, st, ns, touched, -⟩ := minuteBoundary_touches s.ticked
      exact ⟨_, _, _, _, _, _, (advance_of_minute set short).trans touched⟩

/-- R29: the calendar's part leaves the units whose deadlines follow. -/
theorem advance_units : s.advance.groups = s.groups ∧ s.advance.readers = s.readers
    ∧ s.advance.recallIn = s.recallIn ∧ s.advance.zone = s.zone ∧ s.advance.faults = s.faults
    ∧ s.advance.batch = s.batch ∧ s.advance.site = s.site := by
  obtain ⟨tm, cal, b, st, tt, ns, touched⟩ := advance_touches s
  rw [touched]
  exact ⟨rfl, rfl, rfl, rfl, rfl, rfl, rfl⟩

variable {s}

theorem advance_uptime {d : Nat} (next : NextSecond s d) : s.advance.cal.uptime = s.cal.uptime + 1 := by
  obtain ⟨-, below⟩ := next
  rw [(advance_uptime_time s).1, Nat.min_eq_left below]

theorem deadlineEvent_of_due {due : State → Bool} {deliver : State → State} (at_ : due s.advance = true) :
    s.deadlineEvent due deliver = (deliver s.advance).checkAll := if_pos at_

end

/-- R171: the end of an event leaves the units. -/
theorem settle_units (u : State) : u.settle.groups = u.groups ∧ u.settle.readers = u.readers
    ∧ u.settle.recallIn = u.recallIn ∧ u.settle.batch = u.batch ∧ u.settle.cal = u.cal := ⟨rfl, rfl, rfl, rfl, rfl⟩

/-! ### The batch's idle deadline (R84) -/

section
variable {s : State} {d : Nat}

theorem batchDue_iff (s : State) : s.batchDue = true
    ↔ s.batch.state = .open_ ∧ s.site.isPlanning = false ∧ ∃ d, s.batch.deadline = some d ∧ d ≤ s.cal.uptime := by
  unfold State.batchDue
  rw [Bool.and_eq_true, Bool.and_eq_true, beq_iff_eq, Bool.not_eq_true', and_assoc]
  refine and_congr_right fun _ => and_congr_right fun _ => ?_
  cases deadline : s.batch.deadline with
  | none => exact iff_of_false Bool.false_ne_true fun ⟨_, runs, _⟩ => absurd runs nofun
  | some d =>
    refine decide_eq_true_iff.trans ⟨fun le => ⟨d, rfl, le⟩, fun ⟨x, eq, le⟩ => ?_⟩
    exact (Option.some.inj eq) ▸ le

theorem checkBatch_of_due (due : s.batchDue = true) : s.checkBatch
    = (s.mapBatch fun _ => Batch.startUp).raiseNotice (.batchExpired s.batch.edits.length) := if_pos due

/-- R84: a batch that has expired is not due again in the same second event. -/
theorem checkBatch_of_closed (closed : s.batch = Batch.startUp) : s.checkBatch = s := by
  refine if_neg fun due => ?_
  obtain ⟨opened, -⟩ := (batchDue_iff s).mp due
  rw [closed] at opened
  exact absurd opened nofun

theorem advance_batchDue (opened : s.batch.state = .open_) (free : s.site.isPlanning = false)
    (deadline : s.batch.deadline = some d) (next : NextSecond s d) : s.advance.batchDue = true := by
  obtain ⟨-, -, -, -, -, batch, site⟩ := advance_units s
  rw [batchDue_iff, batch, site, advance_uptime next]
  exact ⟨opened, free, d, deadline, next.1⟩

theorem execBatchExpired_of_due (runs : Runs s) (due : s.advance.batchDue = true) :
    exec .batchExpired s = .next s.advance.checkBatch.checkAll.settle := by
  rw [exec_batchExpired, execBatchExpired, whileRunning_of_running _ _ runs.1, deadlineEvent_of_due due]

end

/-! ### A channel that takes OUT_OF_SERVICE (R135) -/

section
variable {s t u : State} {g : Group} {c : Chan}

/-- R135, step 1: each channel of the orders that end. -/
theorem ordersEnded_told (readers : t.readers = (s.ordersEnded g).readers) (cal : t.cal = s.cal) :
    ToldOutOfService s t g c := by
  have reader : t.reader c = (s.ordersEnded g).reader c := reader_of_readers readers c
  have mem (o : Order) : (o ∈ (s.group g).orders.filter fun o => o.state.isSent)
      ↔ o ∈ (s.group g).orders ∧ o.state = .sent := by rw [List.mem_filter, isSent_iff]
  unfold ToldOutOfService
  refine ⟨fun o ⟨held, sent, own⟩ one => ?_, fun none_ => ?_⟩
  · have takes : t.reader c = (s.reader c).answered s.cal.uptime (Answer.refusal .outOfService o.dest) :=
      reader.trans (deliverAll_reader_of_one (s.mapGroup g fun m => { m with orders := [] }) _
        ((mem o).mpr ⟨held, sent⟩) own fun y there its => one y ⟨((mem y).mp there).1, ((mem y).mp there).2, its⟩)
    rw [takes, cal]
    refine ⟨fun owned => ?_, fun discard => ?_⟩
    · rw [Channel.answered, owned]
      rfl
    · rw [Channel.answered, discard]
  · exact reader.trans (deliverAll_reader_of_untold _ _ fun o there own =>
      none_ o ⟨((mem o).mp there).1, ((mem o).mp there).2, own⟩)

/-- R97: a channel stands or takes one answer, however many orders of it end. -/
theorem deliverAll_reader_or (s : State) (answer : Order → Answer) (os : List Order) :
    (s.deliverAll answer os).reader c = s.reader c
    ∨ ∃ a, (s.deliverAll answer os).reader c = (s.reader c).answered s.cal.uptime a := by
  by_cases some_ : ∃ o ∈ os, o.channel = c
  · induction os generalizing s with
    | nil => exact .inl rfl
    | cons o os ih =>
      rw [deliverAll_cons]
      by_cases own : o.channel = c
      · subst own
        refine .inr ⟨answer o, ?_⟩
        rw [deliverAll_reader_of_none _ _ _ (by rw [deliver_reader]; exact answered_mark _ _ _), deliver_reader]
      · have later : ∃ y ∈ os, y.channel = c := by
          obtain ⟨y, mem, its⟩ := some_
          exact ⟨y, (List.mem_cons.mp mem).resolve_left fun eq => own (eq ▸ its), its⟩
        have rest := ih (s.deliver o.channel (answer o)) later
        rw [deliver_cal, deliver_reader_of_ne s _ fun eq => own eq.symm] at rest
        exact rest
  · exact .inl (deliverAll_reader_of_untold s answer fun o mem own => some_ ⟨o, mem, own⟩)

theorem answered_rests {x : Channel} {n : Nat} (rests : x.Rests n) (hold : 1 ≤ x.cfg.hold) (a : Answer) :
    (x.answered n a).Rests n := by
  obtain ⟨line, display⟩ := rests
  cases mark : x.mark with
  | none => rw [Channel.answered, mark]; exact ⟨line, display⟩
  | discard => rw [Channel.answered, mark]; exact ⟨line, display⟩
  | owned =>
    rw [Channel.answered, mark]
    refine ⟨line, fun d deadline => ?_⟩
    rw [← Option.some.inj deadline]
    exact Nat.lt_add_of_pos_right hold

theorem ordersEnded_rests (rests : (s.reader c).Rests s.cal.uptime) (hold : 1 ≤ (s.reader c).cfg.hold) :
    ((s.ordersEnded g).reader c).Rests s.cal.uptime := by
  rcases deliverAll_reader_or (c := c) (s.mapGroup g fun m => { m with orders := [] })
    (fun o => Answer.refusal .outOfService o.dest) ((s.group g).orders.filter fun o => o.state.isSent)
    with same | ⟨a, takes⟩
  · rw [State.ordersEnded, same]
    exact rests
  · rw [State.ordersEnded, takes]
    exact answered_rests rests hold a

/-- What a channel is told is read off the orders and the channel at the start, and off the channel and the uptime at
the end. -/
theorem ToldOutOfService.congr {s' t' : State} (told : ToldOutOfService s t g c)
    (orders : (s'.group g).orders = (s.group g).orders) (before : s'.reader c = s.reader c)
    (after : t'.reader c = t.reader c) (cal : t'.cal = t.cal) : ToldOutOfService s' t' g c := by
  unfold ToldOutOfService at told ⊢
  rw [orders, before, after, cal]
  exact told

end

/-! ### A link that goes SILENT (R133) -/

/-- R133: the link is SILENT and nothing is known of the cars. -/
def GroupMgr.silenced (m : GroupMgr) : GroupMgr :=
  { m with link := .silent, cars := Vector.replicate 8 CarRow.unknown }

/-- R134: the availability of the group on a SILENT link. -/
def State.silentAvail (s : State) (g : Group) : Avail :=
  availabilityOf (s.recallOf g).state .silent (s.group g).accepting

theorem silentAvail_ne (s : State) (g : Group) : s.silentAvail g ≠ .inService := by
  rw [State.silentAvail]
  cases (s.recallOf g).state with
  | inRecall => exact nofun
  | held => exact nofun
  | clear => exact nofun

/-- R135: the manager of a group on the link that goes SILENT, its availability reworked. -/
def GroupMgr.lost (m : GroupMgr) (after : Avail) : GroupMgr :=
  if m.avail = .inService then
    { ({ m.silenced with orders := [] } : GroupMgr).carsEnded (m.withdrawals after) with avail := after }
  else { m.silenced with avail := after }

section
variable {s u : State} {g : Group}

/-- R133: the link of the group `g` goes SILENT, its availability not yet reworked. -/
def State.silenced (s : State) (g : Group) : State := s.mapGroup g GroupMgr.silenced

/-- What the silence deadline of a link makes of its group in the event from `s` to `u`. -/
structure LinkLost (s u : State) (g : Group) : Prop where
  at_ : AtGroup g s u
  manager : u.group g = (s.group g).lost (s.silentAvail g)
  noticed : Noticed u (groupNotice s u g .linkSilent none)
  offline : (s.zoneGroup g).present = true → Raised s u .groupOffline g.val
  served : (s.group g).avail = .inService → u.readers = ((s.silenced g).ordersEnded g).readers

theorem regroup_always (s : State) (g : Group) (cause : GroupCause) (change : Option RecallChange) :
    s.regroup g cause true change
    = ((if (s.group g).avail == .inService && s.availability g != .inService then s.leaveService g (s.availability g)
        else s).mapGroup g fun m => { m with avail := s.availability g }).raiseNotice
      (.availability
        { group := g, before := (s.group g).avail, after := s.availability g, link := (s.group g).link
          accepting := (s.group g).accepting, cause := cause
          removed := if (s.group g).avail == .inService && s.availability g != .inService
            then (s.group g).orders.length else 0
          withdrawn := if (s.group g).avail == .inService && s.availability g != .inService
            then ((s.group g).withdrawals (s.availability g)).length else 0
          recallChange := change }) := by
  simp only [State.regroup, Bool.not_true, Bool.false_eq_true, and_false, if_false]

theorem silenced_group (s : State) (g : Group) : (s.silenced g).group g = (s.group g).silenced := group_mapGroup s g _

theorem silenced_availability (s : State) (g : Group) : (s.silenced g).availability g = s.silentAvail g := by
  rw [State.availability, silenced_group]
  rfl

/-- R134: the availability reworked on the link that goes SILENT. -/
def State.silenceReworked (s : State) (g : Group) : State := (s.silenced g).regroup g .linkSilent true none

theorem linkGoesSilent_eq (s : State) (g : Group) : s.linkGoesSilent g
    = if (s.zoneGroup g).present then (s.silenceReworked g).raiseFault .groupOffline g.val
      else s.silenceReworked g := rfl

theorem silenceReworked_faults (s : State) (g : Group) : (s.silenceReworked g).faults = s.faults := by
  obtain ⟨gs, rs, ns, touched⟩ := regroup_same (s.silenced g) g .linkSilent true none
  rw [State.silenceReworked, touched]
  rfl

/-- R135: a group that was IN_SERVICE leaves service. -/
theorem silenceReworked_of_served (was : (s.group g).avail = .inService) : s.silenceReworked g
    = (((s.silenced g).leaveService g (s.silentAvail g)).mapGroup g fun m =>
        { m with avail := s.silentAvail g }).raiseNotice
      (.availability
        { group := g, before := .inService, after := s.silentAvail g, link := .silent
          accepting := (s.group g).accepting, cause := .linkSilent, removed := (s.group g).orders.length
          withdrawn := ((s.group g).withdrawals (s.silentAvail g)).length, recallChange := none }) := by
  have leaves : ((s.group g).silenced.avail == .inService && s.silentAvail g != .inService) = true := by
    rw [Bool.and_eq_true, beq_iff_eq, bne_iff_ne]
    exact ⟨was, silentAvail_ne s g⟩
  rw [State.silenceReworked, regroup_always, silenced_group, silenced_availability]
  simp only [leaves, if_true]
  rw [show (s.group g).silenced.avail = .inService from was]
  rfl

/-- R134: any other group changes its availability alone. -/
theorem silenceReworked_of_unserved (was : (s.group g).avail ≠ .inService) : s.silenceReworked g
    = ((s.silenced g).mapGroup g fun m => { m with avail := s.silentAvail g }).raiseNotice
      (.availability
        { group := g, before := (s.group g).avail, after := s.silentAvail g, link := .silent
          accepting := (s.group g).accepting, cause := .linkSilent, removed := 0, withdrawn := 0
          recallChange := none }) := by
  have stays : ((s.group g).silenced.avail == .inService && s.silentAvail g != .inService) = false := by
    rw [Bool.and_eq_false_iff, beq_eq_false_iff_ne]
    exact .inl was
  rw [State.silenceReworked, regroup_always, silenced_group, silenced_availability]
  simp only [stays, Bool.false_eq_true, if_false]
  rfl

theorem lost_of_served {m : GroupMgr} (was : m.avail = .inService) (after : Avail) : m.lost after
    = { ({ m.silenced with orders := [] } : GroupMgr).carsEnded (m.withdrawals after) with avail := after } :=
  if_pos was

theorem lost_of_unserved {m : GroupMgr} (was : m.avail ≠ .inService) (after : Avail) : m.lost after
    = { m.silenced with avail := after } := if_neg was

theorem lost_line (m : GroupMgr) (after : Avail) : (m.lost after).link = .silent
    ∧ (m.lost after).cars = Vector.replicate 8 CarRow.unknown ∧ (m.lost after).avail = after
    ∧ (m.lost after).accepting = m.accepting := by
  by_cases was : m.avail = .inService
  · rw [lost_of_served was]
    exact ⟨rfl, rfl, rfl, rfl⟩
  · rw [lost_of_unserved was]
    exact ⟨rfl, rfl, rfl, rfl⟩

theorem ordersEnded_group (s : State) (g : Group) :
    (s.ordersEnded g).group g = { s.group g with orders := [] } := by
  obtain ⟨rs, touched⟩ := deliverAll_touches (s.mapGroup g fun m => { m with orders := [] })
    (fun o => Answer.refusal .outOfService o.dest) ((s.group g).orders.filter fun o => o.state.isSent)
  have groups : (s.ordersEnded g).groups = (s.mapGroup g fun m => { m with orders := [] }).groups := by
    rw [State.ordersEnded, touched]
  rw [group_of_groups groups g, group_mapGroup]

theorem raiseNotice_group (s : State) (b : NoticeBody) (g : Group) : (s.raiseNotice b).group g = s.group g := rfl

theorem silenceReworked_group (s : State) (g : Group) :
    (s.silenceReworked g).group g = (s.group g).lost (s.silentAvail g) := by
  by_cases was : (s.group g).avail = .inService
  · rw [silenceReworked_of_served was, lost_of_served was, leaveService_eq, raiseNotice_group,
      group_mapGroup, group_mapGroup, ordersEnded_group, silenced_group]
    rfl
  · rw [silenceReworked_of_unserved was, lost_of_unserved was, raiseNotice_group, group_mapGroup,
      silenced_group]

/-- R135, step 2: the count of the cars withdrawn. -/
theorem withdrawals_length (m : GroupMgr) (after : Avail) :
    (m.withdrawals after).length = if after != .offline then (openedCars m).length else 0 := by
  cases after with
  | offline => rfl
  | inService => rfl
  | notAccepting => rfl
  | inRecall => rfl

/-- R134: the notice of a group is read off its manager at the end. -/
theorem groupNotice_lost {s u : State} {g : Group} (manager : u.group g = (s.group g).lost (s.silentAvail g)) :
    Noticed (s.silenceReworked g) (groupNotice s u g .linkSilent none) := by
  obtain ⟨link, -, avail, accepting⟩ := lost_line (s.group g) (s.silentAvail g)
  rw [groupNotice, manager]
  simp only [link, avail, accepting]
  by_cases was : (s.group g).avail = .inService
  · have left : ((Avail.inService : Avail) == .inService && s.silentAvail g != .inService) = true := by
      rw [Bool.and_eq_true, beq_iff_eq, bne_iff_ne]
      exact ⟨rfl, silentAvail_ne s g⟩
    rw [was]
    simp only [left, Bool.true_and, if_true]
    rw [silenceReworked_of_served was, withdrawals_length]
    exact raiseNotice_noticed _ _
  · have stays : ((s.group g).avail == .inService && s.silentAvail g != .inService) = false := by
      rw [Bool.and_eq_false_iff, beq_eq_false_iff_ne]
      exact .inl was
    simp only [stays, Bool.false_and, Bool.false_eq_true, if_false]
    rw [silenceReworked_of_unserved was]
    exact raiseNotice_noticed _ _

theorem linkGoesSilent_lost (s : State) (g : Group) : LinkLost s (s.linkGoesSilent g) g := by
  have faults := silenceReworked_faults s g
  have on : AtGroup g (s.silenceReworked g) (s.linkGoesSilent g) := by
    rw [linkGoesSilent_eq]
    exact .ite (raiseFault_atGroup _ _ _) (.refl g _)
  have units : (s.linkGoesSilent g).groups = (s.silenceReworked g).groups
      ∧ (s.linkGoesSilent g).readers = (s.silenceReworked g).readers := by
    rw [linkGoesSilent_eq]
    split
    · obtain ⟨f, ns, touched⟩ := raiseFault_touches (s.silenceReworked g) .groupOffline g.val
      rw [touched]
      exact ⟨rfl, rfl⟩
    · exact ⟨rfl, rfl⟩
  obtain ⟨groups, readers⟩ := units
  have manager := (group_of_groups groups g).trans (silenceReworked_group s g)
  refine ⟨linkGoesSilent_atGroup s, manager, (groupNotice_lost manager).after on.after, fun present => ?_,
    fun was => ?_⟩
  · rw [linkGoesSilent_eq, if_pos present]
    exact (raiseFault_raised _ _ _).since faults.symm
  · rw [readers, silenceReworked_of_served was, leaveService_eq]
    rfl

/-! ### The second event of a silence deadline -/

theorem linkDue_iff (s : State) (g : Group) : s.linkDue g = true
    ↔ (s.group g).link ≠ .silent ∧ (s.group g).silenceDeadline ≤ s.cal.uptime := by
  rw [State.linkDue, Bool.and_eq_true, bne_iff_ne, decide_eq_true_iff]

theorem execLinkSilent_of_due (runs : Runs s) (due : s.advance.linkDue g = true) :
    exec (.linkSilent g) s = .next (s.advance.linkGoesSilent g).checkAll.settle := by
  have block : s.advance.checkLink g = s.advance.linkGoesSilent g := if_pos ((linkDue_iff _ g).mp due)
  rw [exec_linkSilent, execLinkSilent, whileRunning_of_running _ _ runs.1]
  rw [deadlineEvent_of_due (due := fun s => s.linkDue g) due, block]

theorem linkGoesSilent_recallIn (s : State) (g : Group) : (s.linkGoesSilent g).checkAll.recallIn = s.recallIn := by
  obtain ⟨gs, rs, f, ns, touched⟩ := linkGoesSilent_touches s g
  obtain ⟨gs', rs', q, b, f', ns', -, rest⟩ := checkAll_sameDeadlines (s.linkGoesSilent g)
  rw [rest, touched]

section
variable (lost : LinkLost s u g)
include lost

theorem LinkLost.silent : (u.group g).link = .silent := by
  rw [lost.manager]
  exact (lost_line _ _).1

/-- R135: a group that was IN_SERVICE is out of service. -/
theorem LinkLost.outOfService (was : (s.group g).avail = .inService) : OutOfService (u.group g) := by
  rw [lost.manager, lost_of_served was]
  exact ⟨rfl, rfl, fun car => Vector.getElem_replicate _⟩

/-- R135: the channels of the orders that end, as the silence deadline leaves them. -/
theorem LinkLost.told (was : (s.group g).avail = .inService) (c : Chan) : ToldOutOfService s u g c := by
  have told := ordersEnded_told (c := c) (lost.served was) (lost.at_.after.cal.trans rfl : u.cal = (s.silenced g).cal)
  exact told.congr (by rw [silenced_group]; rfl) rfl rfl rfl

/-- R98, R107: a channel of which no other deadline is reached is at rest once the link's has been taken. -/
theorem LinkLost.atRest (was : (s.group g).avail = .inService) {c : Chan} (hold : 1 ≤ (s.reader c).cfg.hold)
    (rests : (s.reader c).Rests s.cal.uptime) (others : ∀ h, h ≠ g → (s.group h).Untold c) :
    AtRest (u.reader c) c s.cal.uptime u ∧ (u.reader c).Rests s.cal.uptime := by
  refine ⟨⟨rfl, by rw [lost.at_.after.cal], fun h => ?_⟩, ?_⟩
  · by_cases own : h = g
    · subst own
      intro o mem
      rw [(lost.outOfService was).orders] at mem
      exact absurd mem List.not_mem_nil
    · rw [lost.at_.others h own]
      exact others h own
  · rw [reader_of_readers (lost.served was) c]
    exact ordersEnded_rests (s := s.silenced g) rests hold

/-- R133, R134: the link is SILENT once all the deadlines are taken, its cars unknown and the availability reworked. -/
theorem LinkLost.line_checkAll : (u.checkAll.group g).link = .silent
    ∧ (u.checkAll.group g).cars = Vector.replicate 8 CarRow.unknown
    ∧ (u.checkAll.group g).avail = s.silentAvail g
    ∧ (u.checkAll.group g).accepting = (s.group g).accepting := by
  obtain ⟨link, cars, avail, accepting⟩ := checkAll_sameLink lost.silent
  obtain ⟨silent, unknown, reworked, same⟩ := lost_line (s.group g) (s.silentAvail g)
  rw [link, cars, avail, accepting, lost.manager]
  exact ⟨silent, unknown, reworked, same⟩

/-- R135: the manager of a group that has left service, once all the deadlines are taken. -/
theorem LinkLost.leftService_checkAll (was : (s.group g).avail = .inService) : LeftService s u.checkAll g := by
  have manager : u.checkAll.group g = { ({ (s.group g).silenced with orders := [] } : GroupMgr).carsEnded
      ((s.group g).withdrawals (s.silentAvail g)) with avail := s.silentAvail g } := by
    rw [checkAll_group_of_outOfService (lost.outOfService was), lost.manager, lost_of_served was]
  rw [LeftService, manager]
  refine ⟨rfl, congrArg ((s.group g).tx ++ ·) ?_, fun car => Vector.getElem_replicate _⟩
  cases s.silentAvail g with
  | offline => rfl
  | inService => rfl
  | notAccepting => rfl
  | inRecall => rfl

theorem LinkLost.notice_checkAll :
    groupNotice s u.checkAll g .linkSilent none = groupNotice s u g .linkSilent none := by
  obtain ⟨link, -, avail, accepting⟩ := checkAll_sameLink lost.silent
  rw [groupNotice, groupNotice, link, avail, accepting]

end

end

end Sys2Proof.Machine

namespace Sys2Proof
open Machine

/-- Settles O12: the deadline's own block in the second event that brings it, and what the other blocks leave of it. -/
theorem batchAndLinkDeadlinesPass : Obligations.BatchAndLinkDeadlinesPass := by
  unfold Obligations.BatchAndLinkDeadlinesPass
  refine ⟨fun s d runs opened free deadline next => ?_, fun s g runs link next => ?_⟩
  · have due := advance_batchDue opened free deadline next
    obtain ⟨-, -, -, -, -, batch, -⟩ := advance_units s
    have on := checkAll_after s.advance.checkBatch
    have expired := checkBatch_of_due due
    have closed : s.advance.checkBatch.batch = Batch.startUp := by rw [expired]; rfl
    obtain ⟨-, -, -, left, cal⟩ := settle_units s.advance.checkBatch.checkAll
    refine ⟨_, execBatchExpired_of_due runs due, ?_, ?_, ?_⟩
    · rw [left, checkAll_batch, checkBatch_of_closed closed, closed]
    · rw [cal, on.cal, (checkBatch_after _).cal, advance_uptime next]
    · have told := raiseNotice_noticed (s.advance.mapBatch fun _ => Batch.startUp)
        (.batchExpired s.advance.batch.edits.length)
      rw [← expired, batch] at told
      exact (told.after on).settle
  · obtain ⟨groups, readers, lines, zone, faults, -, -⟩ := advance_units s
    have group := group_of_groups groups g
    have reader := reader_of_readers readers
    have uptime := advance_uptime next
    have due : s.advance.linkDue g = true := by
      rw [linkDue_iff, group, uptime]
      exact ⟨link, next.1⟩
    have lost := linkGoesSilent_lost s.advance g
    have on := checkAll_after (s.advance.linkGoesSilent g)
    have event := execLinkSilent_of_due runs due
    have told := (lost.noticed.after on).settle
    have raised present := (((lost.offline present).since faults.symm).after on).settle
    have recalls : (s.advance.linkGoesSilent g).checkAll.recallIn = s.advance.recallIn := linkGoesSilent_recallIn _ g
    have units := settle_units (s.advance.linkGoesSilent g).checkAll
    generalize (s.advance.linkGoesSilent g).checkAll.settle = t at event told raised units
    obtain ⟨groups', readers', recalls', -, cal⟩ := units
    have manager := group_of_groups groups' g
    obtain ⟨silent, cars, avail, accepting⟩ := lost.line_checkAll
    rw [← manager] at silent cars avail accepting
    refine ⟨t, event, silent, fun car => ?_, ?_, ?_, fun was => ⟨?_, ?_, fun c lasts => ?_⟩, fun present => ?_⟩
    · rw [cars]
      exact Vector.getElem_replicate _
    · rw [avail, State.silentAvail, State.availability, silent, accepting, State.recallOf, State.recallOf, recalls',
        recalls]
    · have same : groupNotice s t g .linkSilent none
          = groupNotice s.advance (s.advance.linkGoesSilent g).checkAll g .linkSilent none := by
        rw [groupNotice, groupNotice, manager, group]
      rw [same, lost.notice_checkAll]
      exact told
    · rw [avail]
      exact silentAvail_ne _ g
    · have left := lost.leftService_checkAll (group ▸ was)
      rw [LeftService, group, ← manager] at left
      exact left
    · obtain ⟨hold, line, display, others⟩ := lasts
      have rests : (s.advance.reader c).Rests s.advance.cal.uptime := by
        rw [reader, uptime]
        exact ⟨line, display⟩
      have untold (h : Group) (ne : h ≠ g) : (s.advance.group h).Untold c := by
        rw [group_of_groups groups h]
        exact others h ne
      have served : (s.advance.group g).avail = .inService := group ▸ was
      obtain ⟨here, rests'⟩ := lost.atRest served (by rw [reader]; exact hold) rests untold
      have stays := (checkAll_reader rests' here).reader
      exact (lost.told served c).congr (by rw [group]) (reader c).symm
        ((reader_of_readers readers' c).trans stays) (cal.trans on.cal)
    · exact raised (by rw [State.zoneGroup, zone]; exact present)

end Sys2Proof
end
